-- ==== Sys2Proof/Word.lean ====
section
/-! DEFINITION. The byte of a frame, and the bank and playback numbers. -/

namespace Sys2Proof

/-- One byte on a serial line (R164). -/
abbrev Byte := BitVec 8

/-- A number taken modulo 256 as a byte. -/
abbrev byte (n : Nat) : Byte := BitVec.ofNat 8 n

/-- A bank: 0 to 3 for A to D, as the frames code it (R15). -/
abbrev Bank := Fin 4

/-- A playback or a cue list, held as its number less one (list p belongs to playback p, R46). -/
abbrev PbId := Fin 4

/-- The number 1 to 4 of a playback, list, group or input held less one. -/
abbrev num (i : Fin 4) : Nat := i.val + 1

end Sys2Proof
end

