-- ==== Sys2Proof/Config.lean ====
section
/-! DEFINITION. What an implementation fixes and the spec leaves open (free values, no body), and the capacities the spec gives. -/

namespace Sys2Proof

/-- The code BANK_INFO sends, in the 2 bytes of R164, for a bank state, VALID (true) or BLANK: R26 names the states and
gives no codes (assumption log 11). -/
opaque Config.bankStateCode : Bool → Nat

/-- A byte the spec requires in a reply and gives no value for, one for each count of State.free
(assumption logs 10 and 12). -/
opaque Config.freeByte : Nat → Byte

/-- A bit of the last byte of the parked flags past the last channel, by its place: R114 gives it no value
(assumption log 35). -/
opaque Config.spareBit : Nat → Bool

/-- A number the spec states no value for, one for each count of State.free (assumption log 33). -/
opaque Config.freeNumber : Nat → Nat

/-- Whether a circuit, by its number within the stage, is in a list the spec states no value for, for each count of
State.free (assumption log 33). -/
opaque Config.freeMember : Nat → Nat → Bool

/-- Requests a port's request queue holds (R166). -/
def Config.requestQueue : Nat := 8
/-- BUSY replies not yet started that may wait on one port (R166). -/
def Config.busyReplies : Nat := 3
/-- Replies owed for requests taken at which a port takes no more (R167). -/
def Config.owedReplies : Nat := 13
/-- Reports the report queue holds (R172). -/
def Config.reportQueue : Nat := 16
/-- Writes the store queue holds (R11). -/
def Config.storeQueue : Nat := 8
/-- Cues a bank holds (R7). -/
def Config.bankCues : Nat := 800
/-- Level entries a bank holds (R7). -/
def Config.bankEntries : Nat := 60000
/-- Fade slots (R88). -/
def Config.slots : Nat := 48
/-- Moves of the move pool (R88). -/
def Config.movePool : Nat := 16384
/-- Prior levels of the back pool (R69). -/
def Config.backPool : Nat := 8192
/-- Back entries of one playback (R69). -/
def Config.backStack : Nat := 4
/-- Entries of the parks table (R109). -/
def Config.parks : Nat := 64
/-- Entries of the circuit fault table (R144). -/
def Config.circuitFaults : Nat := 64
/-- Events of the circuit event queue (R143). -/
def Config.circuitEvents : Nat := 16
/-- Channels (00_scope.md section 5). -/
def Config.channels : Nat := 1536
/-- Circuits (00_scope.md section 5). -/
def Config.circuits : Nat := 2304
/-- The largest value of a 16-bit count that stops at its end (R144, R149, R153, R165). -/
def Config.maxCount16 : Nat := 65535
/-- The largest value of a 32-bit count that stops at its end (R116, R175). -/
def Config.maxCount32 : Nat := 4294967295
/-- The sentinel of an absent optional number in a frame (chapter 1.7). -/
def Config.absent : Nat := 65535

end Sys2Proof
end

