-- ==== Sys2Proof/Syntax.lean ====
section
/-! DEFINITION. The commands: one constructor of Instr for each row of spec/opcode_table.json, with the operands its rule needs. -/

namespace Sys2Proof

/-- The two serial ports (chapter 10). -/
inductive PortId where
  | console
  | aux
deriving DecidableEq, Repr

/-- The two cascade inputs that count frame errors (R149). -/
inductive CasInput where
  | din
  | uin
deriving DecidableEq, Repr

/-- What the store device answers to the status poll of a read (R8). -/
inductive StoreAnswer where
  /-- The read goes on. -/
  | busy
  /-- The read ends as performed; whether what it delivers passes its check values (R6). -/
  | done (checksPass : Bool)
  /-- The read ends CHECK_FAILED. -/
  | notDone
deriving DecidableEq, Repr

/-- What the store device answers to the status poll of a write step (R8, R13). -/
inductive WriteAnswer where
  /-- The step goes on. -/
  | busy
  /-- The step ends as performed; whether what was read back passes its check values, and, of the segments a patch write
  read first, those whose read failed (R13, R35; assumption log 21). -/
  | done (checksPass : Bool) (damaged : List Nat)
  /-- The step fails. -/
  | notDone
deriving DecidableEq, Repr

/-- The loss policies (R180). -/
inductive LossPolicy where
  | continue_
  | freeze
  | safe
deriving DecidableEq, Repr

/-- The settings of one rack line (R130, R131). -/
structure LineSettings where
  enabled : Bool
  /-- SLOW (40 ms) when set, STANDARD (20 ms) otherwise. -/
  slow : Bool
  /-- 16 bit when set, 8 bit otherwise. -/
  wide : Bool
deriving DecidableEq, Repr

/-- The states of a rack monitor (R139). -/
inductive Monitor where
  | off
  | seeking
  | locked
  | lost
deriving DecidableEq, Repr

/-- The circuit fault kinds (R141). -/
inductive FaultKind where
  | noLoad
  | overload
  | breaker
  | hot
deriving DecidableEq, Repr

/-- One line of an up frame or of a stage table entry (R157, R158); model and count are 0 and 0 when none. -/
structure LineReport where
  monitor : Monitor
  model : Nat
  count : Nat
deriving DecidableEq, Repr

/-- One circuit event: a raise or a clear of a kind (R143). -/
structure CircuitEvent where
  circuit : Nat
  kind : FaultKind
  raises : Bool
deriving DecidableEq, Repr

/-- A stage frame (Table 9-1). -/
structure StageFrame where
  target : Nat
  hop : Nat
  seq : Nat
  blend : Nat
  policy : LossPolicy
  gen : Nat
  levels : List Nat
deriving DecidableEq, Repr

/-- A setup frame (R152); house circuits and safe-look entries by their number within the stage. -/
structure SetupFrame where
  target : Nat
  hop : Nat
  gen : Nat
  lines : List LineSettings
  safeFade : Nat
  policy : LossPolicy
  lamp : Nat
  house : List Nat
  safe : List (Nat × Nat)
deriving DecidableEq, Repr

/-- An up frame (Table 9-2). -/
structure UpFrame where
  stage : Nat
  orphan : Bool
  leaderLost : Bool
  gen : Nat
  lines : List LineReport
  events : List CircuitEvent
deriving DecidableEq, Repr

/-- The commands: one constructor per row of spec/opcode_table.json. A request row is the taking of that request from
the head of the named port's request queue (R167). -/
inductive Instr where
  /-- DEVICE_RESET (R179): none unless the write step being performed, if any, had already been made; then the segments
  that had failed their check on that step's read (R18, R35). -/
  | deviceReset (stepMade : Option (List Nat))
  /-- ROLE_DECIDED (R148): whether CAS_DIN showed the idle level or a frame byte. -/
  | roleDecided (dinSeen : Bool)
  /-- START_UP_READ_DONE (R2). -/
  | startUpReadDone (answer : StoreAnswer)
  /-- START_UP_DECISION (R127). -/
  | startUpDecision
  /-- SHOW_TIME_TICK (R184). -/
  | showTimeTick
  /-- FRAME_RECEIVED (R166): a frame that passed the tests of R165. -/
  | frameReceived (port : PortId) (kind : Byte) (tag : Byte) (body : List Byte)
  /-- PORT_FRAME_ERROR (R165). -/
  | portFrameError (port : PortId)
  /-- PORT_FRAME_GAP (R165): whether the late byte is a sync byte. -/
  | portFrameGap (port : PortId) (lateSync : Bool)
  /-- FRAME_SENT (R168). -/
  | frameSent (port : PortId)
  /-- CONSOLE_SILENT (R175). -/
  | consoleSilent
  /-- PING, 0x01 (R176). -/
  | ping (port : PortId)
  /-- STATUS, 0x02 (R177). -/
  | status (port : PortId)
  /-- LEVELS_READ, 0x03 (R114). -/
  | levelsRead (port : PortId)
  /-- CIRCUIT_READ, 0x04 (R37). -/
  | circuitRead (port : PortId)
  /-- PLAYBACK_READ, 0x05 (R83). -/
  | playbackRead (port : PortId)
  /-- RACK_READ, 0x06 (R147). -/
  | rackRead (port : PortId)
  /-- STAGE_READ, 0x07 (R163). -/
  | stageRead (port : PortId)
  /-- CUE_READ, 0x08 (R24). -/
  | cueRead (port : PortId)
  /-- LIST_READ, 0x09 (R25). -/
  | listRead (port : PortId)
  /-- BANK_INFO, 0x0A (R26). -/
  | bankInfo (port : PortId)
  /-- PATCH_READ, 0x0B (R36). -/
  | patchRead (port : PortId)
  /-- FAULTS_READ, 0x0C (R146). -/
  | faultsRead (port : PortId)
  /-- FAULT_RECORD_READ, 0x0D (R187). -/
  | faultRecordRead (port : PortId)
  /-- HOUSE_READ, 0x0E (R178). -/
  | houseRead (port : PortId)
  /-- SLOT_READ, 0x0F (R103). -/
  | slotRead (port : PortId)
  /-- CUE_OPEN, 0x20 (R19). -/
  | cueOpen (port : PortId)
  /-- CUE_ADD, 0x21 (R20). -/
  | cueAdd (port : PortId)
  /-- CUE_CLOSE, 0x22 (R21). -/
  | cueClose (port : PortId)
  /-- CUE_ABANDON, 0x23 (R22). -/
  | cueAbandon (port : PortId)
  /-- CUE_DELETE, 0x24 (R23). -/
  | cueDelete (port : PortId)
  /-- PATCH_SET, 0x25 (R34). -/
  | patchSet (port : PortId)
  /-- WINDOW_SET, 0x26 (R33). -/
  | windowSet (port : PortId)
  /-- BANK_TITLE, 0x27 (R16). -/
  | bankTitle (port : PortId)
  /-- RECORD, 0x28 (R77). -/
  | record (port : PortId)
  /-- GO, 0x30 (R66). -/
  | go (port : PortId)
  /-- BACK, 0x31 (R73). -/
  | back (port : PortId)
  /-- HOLD, 0x32 (R74). -/
  | hold (port : PortId)
  /-- RESUME, 0x33 (R75). -/
  | resume (port : PortId)
  /-- JUMP, 0x34 (R61). -/
  | jump (port : PortId)
  /-- RELEASE, 0x35 (R76). -/
  | release (port : PortId)
  /-- MASTER, 0x36 (R78). -/
  | master (port : PortId)
  /-- PARK, 0x40 (R110). -/
  | park (port : PortId)
  /-- UNPARK, 0x41 (R111). -/
  | unpark (port : PortId)
  /-- FAULT_CLEAR, 0x48 (R145). -/
  | faultClear (port : PortId)
  /-- FAULT_ACK, 0x49 (R187). -/
  | faultAck (port : PortId)
  /-- CHANGEOVER, 0x50 (R117). -/
  | changeover (port : PortId)
  /-- CHANGEOVER_CANCEL, 0x51 (R125). -/
  | changeoverCancel (port : PortId)
  /-- BANK_ERASE, 0x52 (R15). -/
  | bankErase (port : PortId)
  /-- HOUSE_SET, 0x53 (R170). -/
  | houseSet (port : PortId)
  /-- CURVE_SET, 0x54 (R40). -/
  | curveSet (port : PortId)
  /-- HOUSE_CIRCUITS_SET, 0x55 (R42). -/
  | houseCircuitsSet (port : PortId)
  /-- SAFE_LOOK_SET, 0x56 (R183). -/
  | safeLookSet (port : PortId)
  /-- LINE_SET, 0x57 (R131). -/
  | lineSet (port : PortId)
  /-- INPUT_SET, 0x58 (R79). -/
  | inputSet (port : PortId)
  /-- HOUSE_FADE, 0x59 (R44). -/
  | houseFade (port : PortId)
  /-- BLACKOUT, 0x5A (R108). -/
  | blackout (port : PortId)
  /-- LINE_HOLD, 0x5B (R137). -/
  | lineHold (port : PortId)
  /-- ACCESS_SET, 0x5C (R171). -/
  | accessSet (port : PortId)
  /-- LOSS_CLEAR, 0x5D (R181). -/
  | lossClear (port : PortId)
  /-- RESTART, 0x5E (R188). -/
  | restart (port : PortId)
  /-- UNKNOWN_KIND_REQUEST (R169). -/
  | unknownKindRequest (port : PortId)
  /-- FETCH_DONE (R55). -/
  | fetchDone (answer : StoreAnswer)
  /-- LOAD_STEP_DONE (R118). -/
  | loadStepDone (answer : StoreAnswer)
  /-- HOST_READ_DONE (R24). -/
  | hostReadDone (answer : StoreAnswer)
  /-- WRITE_STEP_DONE (R13). -/
  | writeStepDone (answer : WriteAnswer)
  /-- STORE_TIMEOUT (R8). -/
  | storeTimeout
  /-- PATCH_NOTICE (R30): the oldest waiting patch notice is taken. -/
  | patchNotice
  /-- LIST_NOTICE (R59): the oldest waiting list notice is taken. -/
  | listNotice
  /-- FADE_STEP (R94). -/
  | fadeStep
  /-- FOLLOW_TIMER_COUNT (R71). -/
  | followTimerCount
  /-- FOLLOW_EXPIRY (R72) of playback 1 to 4. -/
  | followExpiry (playback : Nat)
  /-- HOUSE_FADE_STEP (R45). -/
  | houseFadeStep
  /-- DARK_CHECK (R121). -/
  | darkCheck
  /-- BLEND_STEP (R182). -/
  | blendStep
  /-- FOLLOWER_BLEND_STEP (R156). -/
  | followerBlendStep
  /-- LINE_CLOCK_EXPIRY (R133) of line 1 to 6. -/
  | lineClockExpiry (line : Nat)
  /-- RETURN_FRAME (R138) on line 1 to 6: whether parity, stop bits and gaps are good, and the bytes. -/
  | returnFrame (line : Nat) (cleanLine : Bool) (bytes : List Byte)
  /-- CONTACT_CHANGE (R80): the raw contact of input 1 to 4 becomes closed or open. -/
  | contactChange (input : Nat) (closed : Bool)
  /-- DEBOUNCE_EXPIRY (R80) of input 1 to 4. -/
  | debounceExpiry (input : Nat)
  /-- CASCADE_FRAME_EXPIRY (R151). -/
  | cascadeFrameExpiry
  /-- STAGE_FRAME (R153). -/
  | stageFrame (frame : StageFrame)
  /-- SETUP_FRAME (R154). -/
  | setupFrame (frame : SetupFrame)
  /-- CASCADE_FRAME_ERROR (R149). -/
  | cascadeFrameError (input : CasInput)
  /-- CASCADE_BYTE_GAP (R149). -/
  | cascadeByteGap (input : CasInput)
  /-- LEADER_LOST (R155). -/
  | leaderLost
  /-- UP_FRAME_SEND (R157). -/
  | upFrameSend
  /-- UP_FRAME (R158). -/
  | upFrame (frame : UpFrame)
  /-- STAGE_LOST (R158) of stage 1 to 3. -/
  | stageLost (stage : Nat)
  /-- ORPHAN_WATCH_EXPIRY (R160). -/
  | orphanWatchExpiry
  /-- ENGINE_FAULT (R186): the Supervisor takes the raised fault at this place, 0 the oldest. -/
  | engineFault (place : Nat)
  /-- SYNC_AFTER_BYTES_PASSED_OVER (R165). -/
  | syncAfterBytesPassedOver (port : PortId)
deriving DecidableEq, Repr

end Sys2Proof
end

