-- ==== Sys2Proof/WellFormed.lean ====
section
/-! DEFINITION. Which commands name units the part has and carry frames of the right form with values in their ranges. -/

namespace Sys2Proof

/-- Lines 1 to 6 (00_scope.md section 5). -/
def isLine (l : Nat) : Bool := 1 ≤ l && l ≤ 6

/-- Playbacks and contact inputs 1 to 4. -/
def isOneToFour (n : Nat) : Bool := 1 ≤ n && n ≤ 4

/-- Stages of followers, 1 to 3. -/
def isFollowerStage (n : Nat) : Bool := 1 ≤ n && n ≤ 3

/-- A body that a port frame can carry: 0 to 1024 bytes (Table 10-1). -/
def isBody (b : List Byte) : Bool := b.length ≤ 1024

/-- A list rises strictly. -/
def risesStrictly : List Nat → Bool
  | a :: b :: rest => a < b && risesStrictly (b :: rest)
  | _ => true

/-- The lengths and byte widths of a stage frame (Table 9-1); a frame without them has the wrong length for its kind
(R149). -/
def StageFrame.fits (f : StageFrame) : Bool :=
  f.target ≤ 255 && f.hop ≤ 255 && f.seq ≤ 255 && f.blend ≤ 65535 && f.gen ≤ 255
    && f.levels.length = 576 && f.levels.all (· ≤ 65535)

/-- A stage frame whose values lie in the ranges of Table 9-1. -/
def StageFrame.wf (f : StageFrame) : Bool :=
  f.fits && isFollowerStage f.target && f.blend ≤ 1000 && 1 ≤ f.gen

/-- The lengths and byte widths of a setup frame (R152). -/
def SetupFrame.fits (f : SetupFrame) : Bool :=
  f.target ≤ 255 && f.hop ≤ 255 && f.gen ≤ 255 && f.lines.length = 6 && f.safeFade ≤ 65535 && f.lamp ≤ 65535
    && f.house.length ≤ 255 && f.house.all (· ≤ 65535)
    && f.safe.length ≤ 255 && f.safe.all (fun e => e.1 ≤ 65535 && e.2 ≤ 65535)

/-- House circuits of a stage as R152 lists them: 1 to 576, rising, at most 48 (R42). -/
def isHouseList (l : List Nat) : Bool := l.length ≤ 48 && l.all (fun n => 1 ≤ n && n ≤ 576) && risesStrictly l

/-- Safe-look entries of a stage as R152 lists them: circuits 1 to 576, rising, levels 0 to 1000, at most 128 (R183). -/
def isSafeList (l : List (Nat × Nat)) : Bool :=
  l.length ≤ 128 && l.all (fun e => 1 ≤ e.1 && e.1 ≤ 576 && e.2 ≤ 1000) && risesStrictly (l.map (·.1))

/-- The values of a setup frame that a part applies lie in their ranges (R152). -/
def SetupFrame.inRange (f : SetupFrame) : Bool :=
  f.safeFade ≤ 600 && 50 ≤ f.lamp && f.lamp ≤ 500 && isHouseList f.house && isSafeList f.safe

/-- A setup frame whose values lie in the ranges of R152. -/
def SetupFrame.wf (f : SetupFrame) : Bool := f.fits && isFollowerStage f.target && 1 ≤ f.gen && f.inRange

/-- The lengths and byte widths of an up frame (Table 9-2). -/
def UpFrame.fits (f : UpFrame) : Bool :=
  f.stage ≤ 255 && f.gen ≤ 255 && f.lines.length = 6 && f.lines.all (fun r => r.model ≤ 255 && r.count ≤ 255)
    && f.events.length ≤ 8 && f.events.all (fun e => e.circuit ≤ 65535)

/-- The range of the count of an up frame's line report (Table 9-2). -/
def LineReport.wf (r : LineReport) : Bool := r.count ≤ 96

/-- The range of an event's circuit number (R143). -/
def CircuitEvent.wf (e : CircuitEvent) : Bool := 1 ≤ e.circuit && e.circuit ≤ 2304

/-- The values of an up frame that the leader takes lie in their ranges (Table 9-2). -/
def UpFrame.inRange (f : UpFrame) : Bool := f.lines.all LineReport.wf && f.events.all CircuitEvent.wf

/-- An up frame whose values lie in the ranges of Table 9-2; a stage that R160 discards is a form the part meets and
counts. -/
def UpFrame.wf (f : UpFrame) : Bool := f.fits && f.inRange

/-- The well-formed commands. -/
def Instr.wf : Instr → Bool
  | .frameReceived _ _ _ body => isBody body
  | .followExpiry p => isOneToFour p
  | .lineClockExpiry l => isLine l
  | .returnFrame l _ _ => isLine l
  | .contactChange i _ => isOneToFour i
  | .debounceExpiry i => isOneToFour i
  | .stageFrame f => f.wf
  | .setupFrame f => f.wf
  | .upFrame f => f.wf
  | .stageLost n => isFollowerStage n
  | .deviceReset _ | .roleDecided _ | .startUpReadDone _ | .startUpDecision | .showTimeTick
  | .portFrameError _ | .portFrameGap _ _ | .frameSent _ | .consoleSilent
  | .ping _ | .status _ | .levelsRead _ | .circuitRead _ | .playbackRead _ | .rackRead _ | .stageRead _
  | .cueRead _ | .listRead _ | .bankInfo _ | .patchRead _ | .faultsRead _ | .faultRecordRead _ | .houseRead _
  | .slotRead _ | .cueOpen _ | .cueAdd _ | .cueClose _ | .cueAbandon _ | .cueDelete _ | .patchSet _
  | .windowSet _ | .bankTitle _ | .record _ | .go _ | .back _ | .hold _ | .resume _ | .jump _ | .release _
  | .master _ | .park _ | .unpark _ | .faultClear _ | .faultAck _ | .changeover _ | .changeoverCancel _
  | .bankErase _ | .houseSet _ | .curveSet _ | .houseCircuitsSet _ | .safeLookSet _ | .lineSet _ | .inputSet _
  | .houseFade _ | .blackout _ | .lineHold _ | .accessSet _ | .lossClear _ | .restart _
  | .unknownKindRequest _ | .fetchDone _ | .loadStepDone _ | .hostReadDone _ | .writeStepDone _
  | .storeTimeout | .patchNotice | .listNotice | .fadeStep | .followTimerCount | .houseFadeStep | .darkCheck
  | .blendStep | .followerBlendStep | .cascadeFrameExpiry | .cascadeFrameError _ | .cascadeByteGap _
  | .leaderLost | .upFrameSend | .orphanWatchExpiry | .engineFault _ | .syncAfterBytesPassedOver _ => true

end Sys2Proof
end

