-- ==== Sys2Proof/Machine/State.lean ====
section
/-! DEFINITION. Everything the spec gives the part, as plain data; the stops of the model; the state after device reset. -/

namespace Sys2Proof.Machine

/-- Four like things: banks A to D, playbacks, cue lists, house groups, cue inputs. -/
structure Four (α : Type) where
  x0 : α
  x1 : α
  x2 : α
  x3 : α
deriving DecidableEq, Repr

/-- Three like things: follower stages 1 to 3. -/
structure Three (α : Type) where
  x0 : α
  x1 : α
  x2 : α
deriving DecidableEq, Repr

/-- Six like things: rack lines 1 to 6. -/
structure Six (α : Type) where
  x0 : α
  x1 : α
  x2 : α
  x3 : α
  x4 : α
  x5 : α
deriving DecidableEq, Repr

/-- Sparse data by number: keys strictly rising. -/
abbrev Assoc (α : Type) := List (Nat × α)

/-- A look: the channels above 0, ascending, with their levels; every other channel is at 0 (R63). -/
abbrev Look := Assoc Nat

/-! ### Ports -/

/-- The statuses of Table 10-3. -/
inductive Status where
  | ok | adjusted | busy | storeBusy | notPermitted | follower | halted | badLength | badValue | noShow
  | blank | notFound | builderOpen | noBuilder | listFull | poolFull | noSlot | endOfList | goPending | noBack
  | idlePlayback | checkFailed | writeFailed | activeBank | inChangeover | noChangeover | cancelled
  | stillPresent | overlap | parksFull
deriving DecidableEq, Repr

/-- A request in a request queue (R166). -/
structure Request where
  kind : Byte
  tag : Byte
  body : List Byte
deriving DecidableEq, Repr

/-- Whom to answer: the port, the tag and the request kind (R11, R164). -/
structure Requester where
  port : PortId
  tag : Byte
  kind : Byte
deriving DecidableEq, Repr

/-- A reply in a reply queue; the first body byte is the status (R164). -/
structure Reply where
  kind : Byte
  tag : Byte
  status : Status
  fields : List Byte
deriving DecidableEq, Repr

/-- A report in the report queue; its header flags are written when it is started (R172). -/
structure Report where
  kind : Byte
  urgent : Bool
  time : Nat
  fields : List Byte
deriving DecidableEq, Repr

/-- What a transmitter is sending (R168); a report has the reports-lost flag it was started with. -/
inductive Sending where
  | reply (r : Reply)
  | report (r : Report) (lost : Bool)
deriving DecidableEq, Repr

/-- A frame receiver (R165). -/
inductive Receiver where
  /-- Hunting for a sync byte; set when the hunt follows a discarded frame. -/
  | hunting (afterDiscard : Bool)
  | gathering
deriving DecidableEq, Repr

/-- A cue record (Table 1-2); the check value belongs to the store. -/
structure Cue where
  number : Nat
  label : List Byte
  up : Nat
  down : Option Nat
  upDelay : Nat
  downDelay : Nat
  follow : Option Nat
  link : Option Nat
  block : Bool
  levels : List (Nat × Nat)
deriving DecidableEq, Repr

/-- An OPEN cue builder (R19). -/
structure Builder where
  bank : Bank
  list : PbId
  cue : Cue
deriving DecidableEq, Repr

/-- One port (chapter 10). -/
structure Port where
  receiver : Receiver
  requests : List Request
  replies : List Reply
  sending : Option Sending
  owed : Nat
  builder : Option Builder
  errors : Nat
deriving DecidableEq, Repr

/-- The access mask (R171). -/
structure Mask where
  read : Bool
  edit : Bool
  playback : Bool
  park : Bool
  faults : Bool
deriving DecidableEq, Repr

/-- What the Console Port holds besides (chapter 10). -/
structure ConsoleLink where
  reports : List Report
  lost : Bool
  silent : Bool
  timer : Bool
  limit : Nat
  lastFrame : Nat
  silence : Nat
  mask : Mask
deriving DecidableEq, Repr

/-! ### The show store and the Store Controller -/

/-- The actions a cue input may be bound to (R79). -/
inductive InputSetting where
  | go
  | back
  | hold
deriving DecidableEq, Repr

/-- The settings of one cue input (R79). -/
structure InputSettings where
  enabled : Bool
  playback : PbId
  action : InputSetting
deriving DecidableEq, Repr

/-- Member circuits and curve of one house group (Table 1-1). -/
structure GroupSettings where
  members : List Nat
  curve : Nat
deriving DecidableEq, Repr

/-- A house item with its value (Table 1-1). -/
inductive HouseItem where
  | resident (bank : Option Bank)
  | silence (limit : Nat)
  | policy (p : LossPolicy)
  | safeFade (time : Nat)
  | backTime (time : Nat)
  | lamp (threshold : Nat)
  | curve (n : Nat) (points : List Nat)
  | groups (g : Four GroupSettings)
  | safeLook (entries : List (Nat × Nat))
  | line (stage line : Nat) (settings : LineSettings)
  | input (i : Fin 4) (settings : InputSettings)
deriving DecidableEq, Repr

/-- A patch entry (R4). -/
structure PatchEntry where
  channel : Nat
  proportion : Nat
  curve : Nat
deriving DecidableEq, Repr

/-- A straight-through window (R28). -/
structure Window where
  first : Nat
  last : Nat
  channel : Nat
deriving DecidableEq, Repr

/-- A windows item: windows 1 to 4, each present or not. -/
abbrev Windows := Four (Option Window)

/-- A cue as the bank directory shows it (R3). -/
structure DirCue where
  label : List Byte
  count : Nat
deriving DecidableEq, Repr

/-- A bank header: state, title and directory; the totals are counted from the directory (R3). -/
structure Header where
  valid : Bool
  title : List Byte
  dir : Four (Assoc DirCue)
deriving DecidableEq, Repr

/-- Something the store holds with its check value (R6). -/
structure Checked (α : Type) where
  value : α
  check : BitVec 32
deriving DecidableEq, Repr

/-- One bank area of the store; none, and a cue record that is not listed, has never been written and fails its check. -/
structure StoredBank where
  header : Option (Checked Header)
  segments : List (Option (Checked (Assoc PatchEntry)))
  windows : Option (Checked Windows)
  cues : Four (Assoc (Checked Cue))
deriving DecidableEq, Repr

/-- The show store: house items by number 0 to 42 (one not listed has never been written) and the four bank areas (R1). -/
structure ShowStore where
  house : Assoc (Checked HouseItem)
  banks : Four StoredBank
deriving DecidableEq, Repr

/-- The kinds of write with their contents (R11). -/
inductive WriteKind where
  | cueWrite (list : PbId) (cue : Cue)
  | cueDelete (list : PbId) (number : Nat)
  | patchWrite (pairs : List (Nat × Option PatchEntry))
  | windowWrite (w : Windows)
  | bankErase
  | bankTitle (title : List Byte)
  | houseWrite (item : HouseItem)
deriving DecidableEq, Repr

/-- A store queue entry (R11); the doomed mark holds the status it answers with. -/
structure WriteEntry where
  kind : WriteKind
  bank : Option Bank
  req : Requester
  status : Status
  doomed : Option Status
deriving DecidableEq, Repr

/-- By which source of R50 a successor was chosen. -/
inductive Source where
  | first
  | order
  | link
  | explicit
deriving DecidableEq, Repr

/-- A standby fetch (R54). -/
structure Fetch where
  bank : Bank
  list : PbId
  number : Nat
  source : Source
deriving DecidableEq, Repr

/-- A host read waiting for or holding the port (R24, R36). -/
inductive HostRead where
  | cue (req : Requester) (bank : Bank) (list : PbId) (number first : Nat)
  | patch (req : Requester) (bank : Bank) (first count : Nat)
deriving DecidableEq, Repr

/-- The operation the store port performs (chapter 1.4). A fetch or load step has a mark: its outcome is still wanted
(R56, R118). -/
inductive StoreOp where
  | startUp (i : Nat)
  | fetch (p : PbId) (f : Fetch) (wanted : Bool)
  | load (bank : Bank) (position : Nat) (wanted : Bool)
  | hostRead (r : HostRead)
  | write
deriving DecidableEq, Repr

/-- The kinds of engine fault (R185). -/
inductive EngineFaultKind where
  | standbyCheck | storeFault | patchCheck | followMissing | followRefused | inputRefused | houseCheck
  | stageLost | chainTooLong
deriving DecidableEq, Repr

/-- A fault as raised, and as the fault record holds it (R185). -/
structure EngineFault where
  kind : EngineFaultKind
  critical : Bool
  value : Nat
  playback : Option PbId
  cue : Option Nat
  bank : Option Bank
  stage : Option Nat
  time : Nat
deriving DecidableEq, Repr

/-- What the Store Controller holds back until the role is decided (R2): an item it hands over, with the mark of a
completed write, or a STORE_FAULT. -/
inductive Held where
  | item (i : HouseItem) (completedWrite : Bool)
  | fault (f : EngineFault)
deriving DecidableEq, Repr

/-- The Store Controller (chapter 1). -/
structure StoreCtl where
  ram : Four Header
  proj : Four Header
  queue : List WriteEntry
  eraseStep : Nat
  op : Option StoreOp
  fetches : Four (Option Fetch)
  loadClaim : Option Nat
  hostReads : List HostRead
  startUp : Option Nat
  held : List Held
  failed : List Nat
  houseFailed : Bool
deriving DecidableEq, Repr

/-! ### Bank Controller and Patch Unit -/

/-- A changeover record (R116). -/
structure Change where
  target : Bank
  dark : Bool
  position : Nat
  /-- The tag of the owed CHANGEOVER reply; none for the start-up changeover. -/
  owed : Option Byte
  /-- In WAITING_DARK when set, LOADING otherwise. -/
  waiting : Bool
  darkSteps : Nat
deriving DecidableEq, Repr

/-- The Bank Controller (chapter 7); no record means IDLE. -/
structure BankCtl where
  active : Option Bank
  change : Option Change
  resident : Option Bank
  decided : Bool
deriving DecidableEq, Repr

/-- A completion notice to the Patch Unit (R30). -/
inductive PatchNotice where
  | entries (bank : Bank) (pairs : List (Nat × Option PatchEntry))
  | windows (bank : Bank) (w : Windows)
deriving DecidableEq, Repr

/-- One house group with its fader (R41). -/
structure HouseGroup where
  members : List Nat
  curve : Nat
  level : Nat
  target : Nat
  steps : Nat
deriving DecidableEq, Repr

/-- The Patch Unit (chapter 2). -/
structure PatchUnit where
  active : Assoc PatchEntry
  windows : Windows
  pending : Assoc PatchEntry
  pendingWindows : Windows
  follows : Option Bank
  /-- Curves 1 to 7. -/
  curves : List (List Nat)
  groups : Four HouseGroup
  notices : List PatchNotice
deriving DecidableEq, Repr

/-! ### Playback Engine, Fade Slot Table, Merge Unit -/

/-- The playback states (R64). -/
inductive PbState where
  | empty
  | running
  | held
  | settled
deriving DecidableEq, Repr

/-- A standby with its buffer (R53). -/
inductive Standby where
  | none
  | fetching (number : Nat) (source : Source)
  | ready (bank : Bank) (list : PbId) (source : Source) (cue : Cue)
  | bad (number : Nat) (source : Source)
  | missing (number : Nat) (source : Source)
deriving DecidableEq, Repr

/-- Where a GO comes from (R67). -/
inductive GoSource where
  | port (req : Requester)
  | follow
  | input (i : Fin 4)
deriving DecidableEq, Repr

/-- A pending GO record (R67). -/
structure PendingGo where
  source : GoSource
  override : Option Nat
  adjusted : Bool
deriving DecidableEq, Repr

/-- A running follow timer (R71); due when it has expired and the expiry has still to be taken. -/
structure FollowTimer where
  steps : Nat
  paused : Bool
  due : Bool
deriving DecidableEq, Repr

/-- A back entry (R69): the cue taken and the prior levels, ascending by channel. -/
structure BackEntry where
  cue : Nat
  levels : List (Nat × Nat)
deriving DecidableEq, Repr

/-- The last-run cue with its held link (R49). -/
structure LastRun where
  number : Nat
  link : Option Nat
deriving DecidableEq, Repr

/-- One playback context (R63); the back stack newest first. -/
structure Playback where
  state : PbState
  look : Look
  lastRun : Option LastRun
  explicit : Option Nat
  standby : Standby
  fetch : Option Fetch
  pendingGo : Option PendingGo
  follow : Option FollowTimer
  back : List BackEntry
  master : Nat
deriving DecidableEq, Repr

/-- The Playback Engine. -/
structure Engine where
  pb : Four Playback
  notices : List PbId
  backTime : Nat
deriving DecidableEq, Repr

/-- The kinds of slot (R87). -/
inductive SlotKind where
  | cue
  | back
  | release
deriving DecidableEq, Repr

/-- A move (R87). -/
structure Move where
  channel : Nat
  start : Nat
  target : Nat
deriving DecidableEq, Repr

/-- A fade slot in use (R87); times and delays in fade steps. -/
structure Slot where
  number : Nat
  playback : PbId
  kind : SlotKind
  cue : Option Nat
  up : Nat
  down : Nat
  upDelay : Nat
  downDelay : Nat
  elapsed : Nat
  paused : Bool
  moves : List Move
deriving DecidableEq, Repr

/-- A park entry (R109). -/
structure Park where
  channel : Nat
  level : Nat
  owner : PortId
deriving DecidableEq, Repr

/-- The Merge Unit (R104). -/
structure MergeUnit where
  grand : Nat
  blackout : Bool
  parks : List Park
deriving DecidableEq, Repr

/-! ### Output Stage and Cascade Unit -/

/-- The statuses a rack returns for a circuit (Table 8-2): OK, or a fault kind. -/
abbrev CircuitStatus := Option FaultKind

/-- The debounce of one circuit (R141): a condition (none is CLEAR), a candidate status and a run count. -/
structure Debounce where
  condition : Option FaultKind
  candidate : Option CircuitStatus
  run : Nat
deriving DecidableEq, Repr

/-- One rack line (R130); the clock is stopped, or running with its period in ms. -/
structure Line where
  settings : Option LineSettings
  hold : Bool
  clock : Option Nat
  seq : Nat
  live : List Nat
  next : List Nat
  monitor : Monitor
  goodRun : Nat
  badRun : Nat
  rack : Option (Nat × Nat)
  interval : Bool
  debounce : List Debounce
deriving DecidableEq, Repr

/-- An entry of the circuit fault table (R144). -/
structure CircuitFault where
  circuit : Nat
  kind : FaultKind
  stage : Nat
  firstSeen : Nat
  present : Bool
deriving DecidableEq, Repr

/-- The Output Stage (chapter 8). On a follower the safe look is held by number within the stage (R154). -/
structure OutputStage where
  lines : Six Line
  blend : Nat
  target : Nat
  safeLook : List (Nat × Nat)
  safeFade : Nat
  lamp : Nat
  started : Bool
  faults : List CircuitFault
  notTabled : Nat
deriving DecidableEq, Repr

/-- The role of the part (R148). -/
inductive Role where
  | undecided
  | leader
  | follower
  | orphan
deriving DecidableEq, Repr

/-- A stage table entry (R158). -/
structure StageEntry where
  present : Bool
  gen : Nat
  leaderLost : Bool
  lines : List LineReport
  lastUp : Nat
deriving DecidableEq, Repr

/-- The Cascade Unit (chapter 9). -/
structure Cascade where
  role : Role
  /-- Cascade frame expiries since the last setup frames, 0 to 9 (R151). -/
  frameTimer : Nat
  gens : Three Nat
  seqs : Three Nat
  lineItems : Three (Six LineSettings)
  stages : Three StageEntry
  orphanSeen : Bool
  stage : Option Nat
  cand : Option Nat
  candRun : Nat
  genHeld : Nat
  genSeen : Nat
  leaderLost : Bool
  policyHeld : LossPolicy
  lastSeq : Option Nat
  missed : Nat
  events : List CircuitEvent
  house : List Nat
  dinErrors : Nat
  uinErrors : Nat
deriving DecidableEq, Repr

/-! ### Cue Input Unit and Supervisor -/

/-- The actions INPUT_ACTION names (R82). -/
inductive InputCommand where
  | go
  | back
  | hold
  | resume
deriving DecidableEq, Repr

/-- The results INPUT_ACTION names (R82). -/
inductive InputResult where
  | taken
  | ignored
  | pending
  | refused (st : Status)
deriving DecidableEq, Repr

/-- One cue input (R79, R80); contacts are closed when set. -/
structure CueInput where
  settings : InputSettings
  raw : Bool
  closed : Bool
  timer : Bool
  last : Option (InputCommand × InputResult)
deriving DecidableEq, Repr

/-- The Supervisor (chapter 11); no loss state means CLEAR. -/
structure Supervisor where
  halted : Bool
  record : Option EngineFault
  loss : Option LossPolicy
  policy : LossPolicy
  showTime : Nat
  raised : List EngineFault
deriving DecidableEq, Repr

/-- A level frame (Table 8-1). -/
structure LevelFrame where
  seq : Nat
  held : Bool
  wide : Bool
  levels : List Nat
deriving DecidableEq, Repr

/-- A frame that has left the part. -/
inductive Output where
  | port (p : PortId) (f : Sending)
  | level (line : Fin 6) (f : LevelFrame)
  | stageFrame (f : StageFrame)
  | setupFrame (f : SetupFrame)
  | upFrame (f : UpFrame)
deriving DecidableEq, Repr

/-- The whole part, with the commands waiting. free and wire are the model's own (logs 12 and 32). -/
structure State where
  store : ShowStore
  ctl : StoreCtl
  con : Port
  aux : Port
  link : ConsoleLink
  bank : BankCtl
  patch : PatchUnit
  eng : Engine
  slots : List Slot
  merge : MergeUnit
  outp : OutputStage
  cas : Cascade
  inputs : Four CueInput
  sup : Supervisor
  free : Nat
  wire : List Output
  pending : List Instr
deriving DecidableEq, Repr

/-- Why the model stops. -/
inductive Fault where
  /-- For a command that is not well formed; no meaning raises it, since every command runs on every operand (log 33).
  Safe. -/
  | illFormed
deriving DecidableEq, Repr

/-- Why the model refuses. -/
inductive Refusal where
  /-- Raised by exec for a command with no meaning yet. Safe. -/
  | notModelled (mnemonic : String)
deriving DecidableEq, Repr

/-! ### Reset values -/

/-- The header copy of a BLANK bank: no cues, as R26 gives, and no title, which no rule gives (the model's choice, log 51). -/
def Header.blank : Header := { valid := false, title := [], dir := ⟨[], [], [], []⟩ }

def Windows.empty : Windows := ⟨Option.none, Option.none, Option.none, Option.none⟩

/-- A bank area that has never been written (R1): every check fails. -/
def StoredBank.unwritten : StoredBank :=
  { header := none, segments := List.replicate 24 none, windows := none, cues := ⟨[], [], [], []⟩ }

/-- A show store that has never been written (R1); DESIGN CHOICE, log 9. -/
def ShowStore.unwritten : ShowStore :=
  { house := [],
    banks := ⟨StoredBank.unwritten, StoredBank.unwritten, StoredBank.unwritten, StoredBank.unwritten⟩ }

def Port.reset : Port :=
  { receiver := .hunting false, requests := [], replies := [], sending := none, owed := 0, builder := none, errors := 0 }

def ConsoleLink.reset : ConsoleLink :=
  { reports := [], lost := false, silent := false, timer := true, limit := 20, lastFrame := 0, silence := 0,
    mask := { read := true, edit := false, playback := false, park := true, faults := false } }

/-- The Store Controller right after reset: the port performs the first start-up read (R9). R3 gives the RAM copies of the
four bank headers, and with them the projected banks, no value before their start-up reads; they are BLANK until then, the
model's choice (assumption log 49). -/
def StoreCtl.reset : StoreCtl :=
  { ram := ⟨.blank, .blank, .blank, .blank⟩, proj := ⟨.blank, .blank, .blank, .blank⟩, queue := [], eraseStep := 0,
    op := some (.startUp 0), fetches := ⟨none, none, none, none⟩, loadClaim := none, hostReads := [],
    startUp := some 0, held := [], failed := [], houseFailed := false }

def BankCtl.reset : BankCtl := { active := none, change := none, resident := none, decided := false }

/-- The points of curve 0: i × 65535 / 20 (R38). -/
def linearPoints : List Nat := (List.range 21).map (fun i => i * 65535 / 20)

def HouseGroup.reset : HouseGroup := { members := [], curve := 0, level := 0, target := 0, steps := 0 }

def PatchUnit.reset : PatchUnit :=
  { active := [], windows := .empty, pending := [], pendingWindows := .empty, follows := none,
    curves := List.replicate 7 linearPoints,
    groups := ⟨.reset, .reset, .reset, .reset⟩, notices := [] }

def Playback.reset : Playback :=
  { state := .empty, look := [], lastRun := none, explicit := none, standby := .none, fetch := none,
    pendingGo := none, follow := none, back := [], master := 1000 }

def Engine.reset : Engine := { pb := ⟨.reset, .reset, .reset, .reset⟩, notices := [], backTime := 20 }

def MergeUnit.reset : MergeUnit := { grand := 1000, blackout := false, parks := [] }

def Debounce.reset : Debounce := { condition := none, candidate := none, run := 0 }

def Line.reset : Line :=
  { settings := none, hold := false, clock := none, seq := 255, live := List.replicate 96 0,
    next := List.replicate 96 0, monitor := .off, goodRun := 0, badRun := 0, rack := none, interval := false,
    debounce := List.replicate 96 .reset }

def OutputStage.reset : OutputStage :=
  { lines := ⟨.reset, .reset, .reset, .reset, .reset, .reset⟩, blend := 0, target := 0, safeLook := [],
    safeFade := 30, lamp := 100, started := false, faults := [], notTabled := 0 }

/-- The default line settings (Table 1-1). -/
def defaultLine : LineSettings := { enabled := true, slow := false, wide := false }

def Six.all {α : Type} (a : α) : Six α := ⟨a, a, a, a, a, a⟩

/-- A line as a stage table entry holds it before any report: OFF with model and count 0 (R158). -/
def lineOff : LineReport := { monitor := .off, model := 0, count := 0 }

def StageEntry.reset : StageEntry :=
  { present := false, gen := 0, leaderLost := false, lines := List.replicate 6 lineOff, lastUp := 0 }

def Cascade.reset : Cascade :=
  { role := .undecided, frameTimer := 0, gens := ⟨1, 1, 1⟩, seqs := ⟨255, 255, 255⟩,
    lineItems := ⟨.all defaultLine, .all defaultLine, .all defaultLine⟩, stages := ⟨.reset, .reset, .reset⟩,
    orphanSeen := false, stage := none, cand := none, candRun := 0, genHeld := 0, genSeen := 0, leaderLost := false,
    policyHeld := .freeze, lastSeq := none, missed := 0, events := [], house := [], dinErrors := 0, uinErrors := 0 }

/-- The default input settings (R79). -/
def InputSettings.default : InputSettings := { enabled := false, playback := 0, action := .go }

/-- A cue input at device reset: the debounced state is the raw contact as found (R80). -/
def CueInput.reset (raw : Bool) : CueInput :=
  { settings := .default, raw := raw, closed := raw, timer := false, last := none }

def Supervisor.reset : Supervisor :=
  { halted := false, record := none, loss := none, policy := .freeze, showTime := 0, raised := [] }

/-- The part right after device reset (R18, R41, R63, R102, R104, R116, R130, R148, R174, R179, R180, R184, R185), its
store never written and its contacts open (log 9). -/
def State.reset : State :=
  { store := .unwritten, ctl := .reset, con := .reset, aux := .reset, link := .reset, bank := .reset, patch := .reset,
    eng := .reset, slots := [], merge := .reset, outp := .reset, cas := .reset,
    inputs := ⟨.reset false, .reset false, .reset false, .reset false⟩, sup := .reset, free := 0, wire := [],
    pending := [] }

end Sys2Proof.Machine
end

