-- ==== Sys2Proof/Machine/Flags.lean ====
section
/-! DEFINITION. The codes and flag bits of the frames (Tables 10-2 to 10-4), the request kinds with their groups, and the access mask. -/

namespace Sys2Proof.Machine

/-- One byte. -/
def b1 (n : Nat) : List Byte := [byte n]
/-- Two bytes, low byte first (00_scope.md section 5). -/
def b2 (n : Nat) : List Byte := [byte n, byte (n / 256)]
/-- Four bytes, low byte first. -/
def b4 (n : Nat) : List Byte := [byte n, byte (n / 256), byte (n / 65536), byte (n / 16777216)]
/-- A yes-or-no byte: 1 for yes, 0 for no, as the rules that code one have it. Where a rule gives its byte no code, as R70 for
"back kept" and R83 for the follow timer's "paused", the code is the model's choice (log 52). -/
def bBool (x : Bool) : List Byte := b1 (if x then 1 else 0)
/-- An optional number, 65535 when absent (chapter 1.7). -/
def bOpt (x : Option Nat) : List Byte := b2 (x.getD Config.absent)
/-- A length byte and the characters. -/
def bText (t : List Byte) : List Byte := b1 t.length ++ t

/-- The status codes (Table 10-3). -/
def Status.code : Status → Nat
  | .ok => 0 | .adjusted => 1 | .busy => 2 | .storeBusy => 3 | .notPermitted => 4 | .follower => 5 | .halted => 6
  | .badLength => 7 | .badValue => 8 | .noShow => 9 | .blank => 10 | .notFound => 11 | .builderOpen => 12
  | .noBuilder => 13 | .listFull => 14 | .poolFull => 15 | .noSlot => 16 | .endOfList => 17 | .goPending => 18
  | .noBack => 19 | .idlePlayback => 20 | .checkFailed => 21 | .writeFailed => 22 | .activeBank => 23
  | .inChangeover => 24 | .noChangeover => 25 | .cancelled => 26 | .stillPresent => 27 | .overlap => 28
  | .parksFull => 29

/-- OK, or ADJUSTED where a setting was legalized (R170). -/
def okOr (adjusted : Bool) : Status := if adjusted then .adjusted else .ok

/-- The request groups of Table 10-2. -/
inductive Group where
  | always | read | edit | playback | park | faults | consoleOnly
deriving DecidableEq, Repr

/-- Table 10-2: code, group, and whether the kind is taken while HALTED. -/
def kindTable : List (Nat × Group × Bool) :=
  [(0x01, .always, true), (0x02, .read, true), (0x03, .read, true), (0x04, .read, true), (0x05, .read, true),
   (0x06, .read, true), (0x07, .read, true), (0x08, .read, true), (0x09, .read, true), (0x0A, .read, true),
   (0x0B, .read, true), (0x0C, .read, true), (0x0D, .read, true), (0x0E, .read, true), (0x0F, .read, true)] ++
  [(0x20, .edit, false), (0x21, .edit, false), (0x22, .edit, false), (0x23, .edit, false), (0x24, .edit, false),
   (0x25, .edit, false), (0x26, .edit, false), (0x27, .edit, false), (0x28, .edit, false)] ++
  [(0x30, .playback, false), (0x31, .playback, false), (0x32, .playback, false), (0x33, .playback, false),
   (0x34, .playback, false), (0x35, .playback, false), (0x36, .playback, true), (0x40, .park, true),
   (0x41, .park, true), (0x48, .faults, false), (0x49, .consoleOnly, true)] ++
  [(0x50, .consoleOnly, false), (0x51, .consoleOnly, false), (0x52, .consoleOnly, false),
   (0x53, .consoleOnly, false), (0x54, .consoleOnly, false), (0x55, .consoleOnly, false),
   (0x56, .consoleOnly, false), (0x57, .consoleOnly, false), (0x58, .consoleOnly, false)] ++
  [(0x59, .consoleOnly, true), (0x5A, .consoleOnly, true), (0x5B, .consoleOnly, true), (0x5C, .consoleOnly, true),
   (0x5D, .consoleOnly, true), (0x5E, .consoleOnly, true)]

/-- The group and HALTED column of a kind; none for a kind not in Table 10-2. -/
def kindInfo (code : Nat) : Option (Group × Bool) :=
  (kindTable.find? (fun e => e.1 = code)).map (·.2)

/-- The kinds that need the Store Controller (R167): the EDIT group, BANK_ERASE, the house writes of R17, CUE_READ,
LIST_READ, BANK_INFO and PATCH_READ. -/
def needsStore (code : Nat) : Bool :=
  (0x20 ≤ code && code ≤ 0x28) || (0x52 ≤ code && code ≤ 0x58) || (0x08 ≤ code && code ≤ 0x0B)

/-- CHANGEOVER and CHANGEOVER_CANCEL wait for the start-up decision (R127, R167). -/
def needsDecision (code : Nat) : Bool := code = 0x50 || code = 0x51

/-- Whether the mask holds a group (R171). -/
def Mask.holds (m : Mask) : Group → Bool
  | .always => true
  | .read => m.read
  | .edit => m.edit
  | .playback => m.playback
  | .park => m.park
  | .faults => m.faults
  | .consoleOnly => false

/-- The mask byte of ACCESS_SET (R171). -/
def Mask.toNat (m : Mask) : Nat :=
  (if m.read then 1 else 0) + (if m.edit then 2 else 0) + (if m.playback then 4 else 0) + (if m.park then 8 else 0)
    + (if m.faults then 16 else 0)

/-- The mask a byte 0 to 31 names (R171). -/
def Mask.ofNat (n : Nat) : Mask :=
  { read := n.testBit 0, edit := n.testBit 1, playback := n.testBit 2, park := n.testBit 3, faults := n.testBit 4 }

/-- NOT_PERMITTED of R169: the Console Port may make every kind; the Auxiliary Port the kinds whose group its mask
holds, and no kind that is not in Table 10-2. -/
def permitted (p : PortId) (m : Mask) (code : Nat) : Bool :=
  match p with
  | .console => true
  | .aux => match kindInfo code with
    | some (g, _) => m.holds g
    | none => false

/-- Whether a kind is taken while HALTED (Table 10-2). -/
def takenHalted (code : Nat) : Bool :=
  match kindInfo code with
  | some (_, h) => h
  | none => false

/-! Codes of choices. -/

def policyCode : LossPolicy → Nat
  | .continue_ => 0
  | .freeze => 1
  | .safe => 2

/-- The loss state as STATUS codes it (R177). -/
def lossCode : Option LossPolicy → Nat
  | none => 0
  | some p => policyCode p + 1

/-- A playback's state as PLAYBACK_READ codes it (R83), and the replies of HOLD and RESUME (log 54). -/
def PbState.code : PbState → Nat
  | .empty => 0
  | .running => 1
  | .held => 2
  | .settled => 3

def monitorCode : Monitor → Nat
  | .off => 0
  | .seeking => 1
  | .locked => 2
  | .lost => 3

def faultKindCode : FaultKind → Nat
  | .noLoad => 1
  | .overload => 2
  | .breaker => 3
  | .hot => 4

/-- A circuit's condition as RACK_READ codes it (R147). -/
def conditionCode : Option FaultKind → Nat
  | none => 0
  | some k => faultKindCode k

def Source.code : Source → Nat
  | .first => 0
  | .order => 1
  | .link => 2
  | .explicit => 3

def SlotKind.code : SlotKind → Nat
  | .cue => 0
  | .back => 1
  | .release => 2

def ownerCode : PortId → Nat
  | .console => 1
  | .aux => 2

def InputCommand.code : InputCommand → Nat
  | .go => 0
  | .back => 1
  | .hold => 2
  | .resume => 3

def InputSetting.code : InputSetting → Nat
  | .go => 0
  | .back => 1
  | .hold => 2

def InputResult.code : InputResult → Nat
  | .taken => 0
  | .ignored => 1
  | .pending => 2
  | .refused _ => 3

/-- The status byte that goes with a result (R82). -/
def InputResult.status : InputResult → Nat
  | .refused st => st.code
  | _ => 0

def EngineFaultKind.code : EngineFaultKind → Nat
  | .standbyCheck => 1
  | .storeFault => 2
  | .patchCheck => 3
  | .followMissing => 4
  | .followRefused => 5
  | .inputRefused => 6
  | .houseCheck => 7
  | .stageLost => 8
  | .chainTooLong => 9

/-- A bank byte, 4 for none (R123, R177). -/
def bankCode : Option Bank → Nat
  | none => 4
  | some b => b.val

/-- The source bytes of CUE_TAKEN (R70) and PLAYBACK_READ (R83). -/
def GoSource.code : GoSource → Nat
  | .port r => ownerCode r.port
  | .follow => 3
  | .input _ => 4

/-- The input number of a GO, 0 unless it comes from an input (R70). -/
def GoSource.inputNo : GoSource → Nat
  | .input i => num i
  | _ => 0

/-- One bit per entry, the first in the least significant bit of the first byte; the bits of the last byte past the last
entry are free (R114; log 35). -/
def packBits : List Bool → List Byte
  | a :: b :: c :: d :: e :: f :: g :: h :: rest =>
    byte ([a, b, c, d, e, f, g, h].foldr (fun x n => 2 * n + (if x then 1 else 0)) 0) :: packBits rest
  | [] => []
  | xs => [byte ((xs ++ (List.range (8 - xs.length)).map (fun i => Config.spareBit (xs.length + i))).foldr
      (fun x n => 2 * n + (if x then 1 else 0)) 0)]

end Sys2Proof.Machine
end

