-- ==== Sys2Proof/Machine/Operands.lean ====
section
/-! DEFINITION. The operands of the requests: the fields of a request body, with the BAD_LENGTH and BAD_VALUE checks
and the legalization each rule gives (R169, R170). -/

namespace Sys2Proof.Machine

/-- The byte at a place of a body. -/
def byteAt (b : List Byte) (i : Nat) : Nat := (b.getD i 0).toNat
/-- The 2-byte number at a place of a body, low byte first. -/
def wordAt (b : List Byte) (i : Nat) : Nat := byteAt b i + 256 * byteAt b (i + 1)

/-- A number 1 to 4 as an index. -/
def idx4 (n : Nat) : Option (Fin 4) := if h : 1 ≤ n ∧ n ≤ 4 then some ⟨n - 1, by omega⟩ else none
/-- A bank byte 0 to 3. -/
def bank? (n : Nat) : Option Bank := if h : n < 4 then some ⟨n, h⟩ else none
/-- A line number 1 to 6 as an index. -/
def line? (n : Nat) : Option (Fin 6) := if h : 1 ≤ n ∧ n ≤ 6 then some ⟨n - 1, by omega⟩ else none
/-- A follower stage 1 to 3 as an index. -/
def stage? (n : Nat) : Option (Fin 3) := if h : 1 ≤ n ∧ n ≤ 3 then some ⟨n - 1, by omega⟩ else none

def isChannel (n : Nat) : Bool := 1 ≤ n && n ≤ Config.channels
def isCircuit (n : Nat) : Bool := 1 ≤ n && n ≤ Config.circuits
def isCueNumber (n : Nat) : Bool := 1 ≤ n && n ≤ 9999
def isTime (n : Nat) : Bool := n ≤ 6000
def isOptTime (n : Nat) : Bool := n ≤ 6000 || n = Config.absent
def isOptCueNumber (n : Nat) : Bool := isCueNumber n || n = Config.absent
/-- Printable characters, codes 32 to 126 (R3). -/
def isText (t : List Byte) : Bool := t.all (fun c => 32 ≤ c.toNat && c.toNat ≤ 126)
/-- A number that stands for itself, 65535 for absent. -/
def optOf (n : Nat) : Option Nat := if n = Config.absent then none else some n

/-- The checks of a body of a size that is fixed or that its own counts give: BAD_LENGTH, then BAD_VALUE for a missing value
(R169). -/
def sized {α : Type} (size : Nat) (b : List Byte) (value : Option α) : Except Status α :=
  if b.length ≠ size then .error .badLength
  else match value with
    | some v => .ok v
    | none => .error .badValue

/-- A request with no fields. -/
def parseNone (b : List Byte) : Except Status Unit := sized 0 b (some ())

/-- PING: 0 to 16 echo bytes (R176). -/
def parsePing (b : List Byte) : Except Status (List Byte) :=
  if 16 < b.length then .error .badLength else .ok b

/-- A request whose one field is a playback (R73, R74, R75, R83). -/
def parsePlayback (b : List Byte) : Except Status PbId := sized 1 b (idx4 (byteAt b 0))

/-- LEVELS_READ: source, first channel, count (R114). -/
def parseLevelsRead (b : List Byte) : Except Status (Nat × Nat × Nat) :=
  let src := byteAt b 0
  let first := wordAt b 1
  let count := wordAt b 3
  sized 5 b <|
    if src = 5 then some (src, first, count)
    else if src ≤ 4 ∧ isChannel first ∧ 1 ≤ count ∧ count ≤ 400 ∧ first + count ≤ Config.channels + 1 then
      some (src, first, count)
    else none

/-- CIRCUIT_READ: first circuit, count (R37). -/
def parseCircuitRead (b : List Byte) : Except Status (Nat × Nat) :=
  let first := wordAt b 0
  let count := byteAt b 2
  sized 3 b <|
    if isCircuit first ∧ 1 ≤ count ∧ count ≤ 96 ∧ first + count ≤ Config.circuits + 1 then some (first, count) else none

/-- RACK_READ: line (R147). -/
def parseRackRead (b : List Byte) : Except Status (Fin 6) := sized 1 b (line? (byteAt b 0))

/-- STAGE_READ: stage (R163). -/
def parseStageRead (b : List Byte) : Except Status (Fin 3) := sized 1 b (stage? (byteAt b 0))

/-- HOUSE_READ: part 0 to 3 (R178). -/
def parseHouseRead (b : List Byte) : Except Status Nat :=
  sized 1 b (if byteAt b 0 ≤ 3 then some (byteAt b 0) else none)

/-- SLOT_READ: slot, first index (R103). -/
def parseSlotRead (b : List Byte) : Except Status (Nat × Nat) :=
  sized 3 b (if 1 ≤ byteAt b 0 ∧ byteAt b 0 ≤ Config.slots ∧ wordAt b 1 ≤ 1535 then some (byteAt b 0, wordAt b 1) else none)

/-- Bank and list, the first two bytes of the cue requests. -/
def bankList (b : List Byte) : Option (Bank × PbId) :=
  match bank? (byteAt b 0), idx4 (byteAt b 1) with
  | some k, some l => some (k, l)
  | _, _ => none

/-- CUE_READ: bank, list, number, first index (R24). -/
def parseCueRead (b : List Byte) : Except Status ((Bank × PbId) × Nat × Nat) :=
  sized 6 b <| (bankList b).bind fun kl =>
    if isCueNumber (wordAt b 2) ∧ wordAt b 4 ≤ 1535 then some (kl, wordAt b 2, wordAt b 4) else none

/-- LIST_READ: bank, list, after 0 to 9999 (R25). -/
def parseListRead (b : List Byte) : Except Status ((Bank × PbId) × Nat) :=
  sized 4 b <| (bankList b).bind fun kl => if wordAt b 2 ≤ 9999 then some (kl, wordAt b 2) else none

/-- A request whose one field is a bank (R15, R26). -/
def parseBank (b : List Byte) : Except Status Bank := sized 1 b (bank? (byteAt b 0))

/-- PATCH_READ: bank, first circuit, count (R36). -/
def parsePatchRead (b : List Byte) : Except Status (Bank × Nat × Nat) :=
  let first := wordAt b 1
  let count := byteAt b 3
  sized 4 b <| (bank? (byteAt b 0)).bind fun k =>
    if isCircuit first ∧ 1 ≤ count ∧ count ≤ 96 ∧ first + count ≤ Config.circuits + 1 then some (k, first, count)
    else none

/-- CUE_OPEN: bank, list and cue header, no entries (R19); a block byte of 1 is yes (log 52). -/
def parseCueOpen (b : List Byte) : Except Status Builder :=
  let label := b.drop 18
  sized (18 + byteAt b 17) b <| (bankList b).bind fun kl =>
    if isCueNumber (wordAt b 2) ∧ isTime (wordAt b 4) ∧ isOptTime (wordAt b 6) ∧ isTime (wordAt b 8)
        ∧ isTime (wordAt b 10) ∧ isOptTime (wordAt b 12) ∧ isOptCueNumber (wordAt b 14) ∧ byteAt b 16 ≤ 1
        ∧ byteAt b 17 ≤ 16 ∧ isText label then
      some { bank := kl.1, list := kl.2,
             cue := { number := wordAt b 2, label := label, up := wordAt b 4, down := optOf (wordAt b 6),
                      upDelay := wordAt b 8, downDelay := wordAt b 10, follow := optOf (wordAt b 12),
                      link := optOf (wordAt b 14), block := byteAt b 16 = 1, levels := [] } }
    else none

/-- A level entry is 3 bytes holding level × 2048 + channel (chapter 1.7). -/
def entryAt (b : List Byte) (i : Nat) : Nat × Nat :=
  let n := byteAt b i + 256 * byteAt b (i + 1) + 65536 * byteAt b (i + 2)
  (n % 2048, n / 2048)

/-- CUE_ADD: a count byte and that many level entries (R20; the count byte, log 14). -/
def parseCueAdd (b : List Byte) : Except Status (List (Nat × Nat)) :=
  let count := byteAt b 0
  let entries := (List.range count).map (fun i => entryAt b (1 + 3 * i))
  sized (1 + 3 * count) b <|
    if 1 ≤ count ∧ count ≤ 300 ∧ entries.all (fun e => isChannel e.1 && e.2 ≤ 1000) then some entries else none

/-- CUE_DELETE: bank, list, number (R23). -/
def parseCueDelete (b : List Byte) : Except Status ((Bank × PbId) × Nat) :=
  sized 4 b <| (bankList b).bind fun kl => if isCueNumber (wordAt b 2) then some (kl, wordAt b 2) else none

/-- One record of PATCH_SET: circuit, channel or 65535, proportion, curve; proportion and curve are not checked for an
absent entry (R34). -/
def patchPairAt (b : List Byte) (i : Nat) : Option (Nat × Option PatchEntry) :=
  let circuit := wordAt b i
  let channel := wordAt b (i + 2)
  if ¬ isCircuit circuit then none
  else if channel = Config.absent then some (circuit, none)
  else if isChannel channel ∧ byteAt b (i + 4) ≤ 100 ∧ byteAt b (i + 5) ≤ 7 then
    some (circuit, some { channel := channel, proportion := byteAt b (i + 4), curve := byteAt b (i + 5) })
  else none

/-- PATCH_SET: bank, count, records of ascending circuits (R34). -/
def parsePatchSet (b : List Byte) : Except Status (Bank × List (Nat × Option PatchEntry)) :=
  let count := byteAt b 1
  let pairs := (List.range count).filterMap (fun i => patchPairAt b (2 + 6 * i))
  sized (2 + 6 * count) b <| (bank? (byteAt b 0)).bind fun k =>
    if 1 ≤ count ∧ count ≤ 64 ∧ pairs.length = count ∧ risesStrictly (pairs.map (·.1)) then some (k, pairs) else none

/-- One window of WINDOW_SET; the numbers of an absent window are not checked (R33). -/
def windowAt (b : List Byte) (i : Nat) : Option (Option Window) :=
  if byteAt b i = 0 then some none
  else if byteAt b i = 1 ∧ isCircuit (wordAt b (i + 1)) ∧ isCircuit (wordAt b (i + 3))
      ∧ wordAt b (i + 1) ≤ wordAt b (i + 3) ∧ isChannel (wordAt b (i + 5)) then
    some (some { first := wordAt b (i + 1), last := wordAt b (i + 3), channel := wordAt b (i + 5) })
  else none

/-- WINDOW_SET: bank and four windows (R33). -/
def parseWindowSet (b : List Byte) : Except Status (Bank × Windows) :=
  sized 29 b <|
    match bank? (byteAt b 0), windowAt b 1, windowAt b 8, windowAt b 15, windowAt b 22 with
    | some k, some w0, some w1, some w2, some w3 => some (k, ⟨w0, w1, w2, w3⟩)
    | _, _, _, _, _ => none

/-- BANK_TITLE: bank, title length, title (R16). -/
def parseBankTitle (b : List Byte) : Except Status (Bank × List Byte) :=
  sized (2 + byteAt b 1) b <| (bank? (byteAt b 0)).bind fun k =>
    if byteAt b 1 ≤ 24 ∧ isText (b.drop 2) then some (k, b.drop 2) else none

/-- The fields of RECORD (R77). -/
structure RecordArgs where
  playback : PbId
  number : Nat
  up : Nat
  down : Option Nat
  label : List Byte
deriving DecidableEq, Repr

/-- RECORD: playback, cue number, up time, down time, label (R77). -/
def parseRecord (b : List Byte) : Except Status RecordArgs :=
  sized (8 + byteAt b 7) b <| (idx4 (byteAt b 0)).bind fun p =>
    if isCueNumber (wordAt b 1) ∧ isTime (wordAt b 3) ∧ isOptTime (wordAt b 5) ∧ byteAt b 7 ≤ 16 ∧ isText (b.drop 8) then
      some { playback := p, number := wordAt b 1, up := wordAt b 3, down := optOf (wordAt b 5), label := b.drop 8 }
    else none

/-- GO: playback, time override; 6001 to 65534 is legalized to 6000 (R66). -/
def parseGo (b : List Byte) : Except Status (PbId × Option Nat × Bool) :=
  let t := wordAt b 1
  sized 3 b <| (idx4 (byteAt b 0)).map fun p =>
    if t = Config.absent then (p, none, false)
    else if 6000 < t then (p, some 6000, true)
    else (p, some t, false)

/-- JUMP: playback, cue number (R61). -/
def parseJump (b : List Byte) : Except Status (PbId × Nat) :=
  sized 3 b <| (idx4 (byteAt b 0)).bind fun p => if isCueNumber (wordAt b 1) then some (p, wordAt b 1) else none

/-- A value held within a range from 0, with the mark that it was changed (R170). -/
def capped (top n : Nat) : Nat × Bool := if top < n then (top, true) else (n, false)

/-- RELEASE: playback, time legalized to 6000 (R76). -/
def parseRelease (b : List Byte) : Except Status (PbId × Nat × Bool) :=
  sized 3 b <| (idx4 (byteAt b 0)).map fun p => (p, capped 6000 (wordAt b 1))

/-- MASTER: target 0 to 4, level legalized to 1000 (R78). -/
def parseMaster (b : List Byte) : Except Status (Nat × Nat × Bool) :=
  sized 3 b (if byteAt b 0 ≤ 4 then some (byteAt b 0, capped 1000 (wordAt b 1)) else none)

/-- PARK: channel, level legalized to 1000 (R110). -/
def parsePark (b : List Byte) : Except Status (Nat × Nat × Bool) :=
  sized 4 b (if isChannel (wordAt b 0) then some (wordAt b 0, capped 1000 (wordAt b 2)) else none)

/-- UNPARK: channel, 0 for all (R111). -/
def parseUnpark (b : List Byte) : Except Status Nat :=
  sized 2 b (if wordAt b 0 ≤ Config.channels then some (wordAt b 0) else none)

/-- A circuit fault kind 1 to 4 (R144). -/
def faultKind? : Nat → Option FaultKind
  | 1 => some .noLoad
  | 2 => some .overload
  | 3 => some .breaker
  | 4 => some .hot
  | _ => none

/-- FAULT_CLEAR: none for all, or a circuit and a kind (R145). -/
def parseFaultClear (b : List Byte) : Except Status (Option (Nat × FaultKind)) :=
  sized 3 b <|
    if wordAt b 0 = 0 then some none
    else if isCircuit (wordAt b 0) then (faultKind? (byteAt b 2)).map (fun k => some (wordAt b 0, k))
    else none

/-- CHANGEOVER: bank, mode 0 CUT or 1 DARK (R117). -/
def parseChangeover (b : List Byte) : Except Status (Bank × Bool) :=
  sized 2 b <| (bank? (byteAt b 0)).bind fun k => if byteAt b 1 ≤ 1 then some (k, byteAt b 1 = 1) else none

/-- A loss policy byte (R170). -/
def policy? : Nat → Option LossPolicy
  | 0 => some .continue_
  | 1 => some .freeze
  | 2 => some .safe
  | _ => none

/-- HOUSE_SET: the house item a selector and a value name, legalized (R170). -/
def houseSetItem (selector value : Nat) : Option (HouseItem × Bool) :=
  match selector with
  | 1 => if value = 4 then some (.resident none, false) else (bank? value).map (fun k => (.resident (some k), false))
  | 2 => some (.silence (capped 100 value).1, (capped 100 value).2)
  | 3 => (policy? value).map (fun p => (.policy p, false))
  | 4 => some (.safeFade (capped 600 value).1, (capped 600 value).2)
  | 5 => some (.backTime (capped 600 value).1, (capped 600 value).2)
  | 6 => if value < 50 then some (.lamp 50, true) else some (.lamp (capped 500 value).1, (capped 500 value).2)
  | _ => none

/-- HOUSE_SET: selector, value (R170). -/
def parseHouseSet (b : List Byte) : Except Status (HouseItem × Bool) :=
  sized 3 b (houseSetItem (byteAt b 0) (wordAt b 1))

/-- Points made legal in order: one lower than the point before it is raised to it (R40). -/
def legalPoints : Nat → List Nat → List Nat
  | _, [] => []
  | low, p :: rest => max low p :: legalPoints (max low p) rest

/-- CURVE_SET: curve 1 to 7, 21 points legalized (R40). -/
def parseCurveSet (b : List Byte) : Except Status (HouseItem × Bool) :=
  let points := (List.range 21).map (fun i => wordAt b (1 + 2 * i))
  let legal := legalPoints 0 points
  sized 43 b (if 1 ≤ byteAt b 0 ∧ byteAt b 0 ≤ 7 then some (.curve (byteAt b 0) legal, legal ≠ points) else none)

/-- One group of HOUSE_CIRCUITS_SET from a place of the body, with the place after it (R42). -/
def groupAt (b : List Byte) (i : Nat) : GroupSettings × Nat :=
  let count := byteAt b (i + 1)
  ({ curve := byteAt b i, members := (List.range count).map (fun j => wordAt b (i + 2 + 2 * j)) }, i + 2 + 2 * count)

/-- HOUSE_CIRCUITS_SET: four groups of curve, count and circuits (R42). -/
def parseHouseCircuitsSet (b : List Byte) : Except Status (Four GroupSettings) :=
  let (g0, i1) := groupAt b 0
  let (g1, i2) := groupAt b i1
  let (g2, i3) := groupAt b i2
  let (g3, i4) := groupAt b i3
  let gs := [g0, g1, g2, g3]
  let all := gs.flatMap (·.members)
  sized i4 b <|
    if gs.all (fun g => g.curve ≤ 7 && risesStrictly g.members) ∧ all.all isCircuit ∧ all.Nodup ∧ all.length ≤ 48 then
      some ⟨g0, g1, g2, g3⟩
    else none

/-- SAFE_LOOK_SET: count and entries of ascending circuits (R183). -/
def parseSafeLookSet (b : List Byte) : Except Status (List (Nat × Nat)) :=
  let count := byteAt b 0
  let entries := (List.range count).map (fun i => (wordAt b (1 + 4 * i), wordAt b (3 + 4 * i)))
  sized (1 + 4 * count) b <|
    if count ≤ 128 ∧ entries.all (fun e => isCircuit e.1 && e.2 ≤ 1000) ∧ risesStrictly (entries.map (·.1)) then
      some entries
    else none

/-- LINE_SET: stage, line, enabled, rate, width (R131); an enabled byte of 1 is yes (log 52). -/
def parseLineSet (b : List Byte) : Except Status HouseItem :=
  sized 5 b <|
    if byteAt b 0 ≤ 3 ∧ isLine (byteAt b 1) ∧ byteAt b 2 ≤ 1 ∧ byteAt b 3 ≤ 1 ∧ byteAt b 4 ≤ 1 then
      some (.line (byteAt b 0) (byteAt b 1)
        { enabled := byteAt b 2 = 1, slow := byteAt b 3 = 1, wide := byteAt b 4 = 1 })
    else none

/-- An action byte of INPUT_SET (R79). -/
def inputSetting? : Nat → Option InputSetting
  | 0 => some .go
  | 1 => some .back
  | 2 => some .hold
  | _ => none

/-- INPUT_SET: input, enabled, playback, action (R79); an enabled byte of 1 is yes (log 52). -/
def parseInputSet (b : List Byte) : Except Status HouseItem :=
  sized 4 b <|
    match idx4 (byteAt b 0), idx4 (byteAt b 2), inputSetting? (byteAt b 3) with
    | some i, some p, some a =>
      if byteAt b 1 ≤ 1 then some (.input i { enabled := byteAt b 1 = 1, playback := p, action := a }) else none
    | _, _, _ => none

/-- HOUSE_FADE: group, level legalized to 1000, time legalized to 6000 (R44). -/
def parseHouseFade (b : List Byte) : Except Status (Fin 4 × Nat × Nat × Bool) :=
  sized 5 b <| (idx4 (byteAt b 0)).map fun g =>
    (g, (capped 1000 (wordAt b 1)).1, (capped 6000 (wordAt b 3)).1,
      (capped 1000 (wordAt b 1)).2 || (capped 6000 (wordAt b 3)).2)

/-- BLACKOUT: state 0 OFF or 1 ON (R108). -/
def parseBlackout (b : List Byte) : Except Status Bool :=
  sized 1 b (if byteAt b 0 ≤ 1 then some (byteAt b 0 = 1) else none)

/-- LINE_HOLD: line 0 to 6, hold 0 or 1 (R137). -/
def parseLineHold (b : List Byte) : Except Status (Nat × Bool) :=
  sized 2 b (if byteAt b 0 ≤ 6 ∧ byteAt b 1 ≤ 1 then some (byteAt b 0, byteAt b 1 = 1) else none)

/-- ACCESS_SET: the mask byte, bits 5 to 7 clear (R171). -/
def parseAccessSet (b : List Byte) : Except Status Mask :=
  sized 1 b (if byteAt b 0 ≤ 31 then some (Mask.ofNat (byteAt b 0)) else none)

end Sys2Proof.Machine
end

