-- ==== Sys2Proof/Machine/Frames.lean ====
section
/-! DEFINITION. The frames as bytes on the links (Tables 8-1, 9-1, 9-2, 10-1 and R152), and the check values. -/

namespace Sys2Proof.Machine

/-- One bit of the CRC-16: generator polynomial 0x1021, most significant bit first (R136). -/
def crc16Bit (c : BitVec 16) : BitVec 16 := if c.msb then (c <<< 1) ^^^ 0x1021#16 else c <<< 1

/-- One byte of the CRC-16. -/
def crc16Byte (c : BitVec 16) (x : Byte) : BitVec 16 :=
  crc16Bit (crc16Bit (crc16Bit (crc16Bit (crc16Bit (crc16Bit (crc16Bit (crc16Bit (c ^^^ (x.zeroExtend 16 <<< 8)))))))))

/-- The CRC-16 of a run of bytes, the register starting at all ones (R136). -/
def crc16 (bs : List Byte) : BitVec 16 := bs.foldl crc16Byte 0xFFFF#16

/-- The CRC-16 of a run of bytes as it is sent, low byte first (R136). -/
def crcBytes (bs : List Byte) : List Byte := b2 (crc16 bs).toNat

/-- One bit of the CRC-32: generator polynomial 0x04C11DB7, least significant bit first (R6). -/
def crc32Bit (c : BitVec 32) : BitVec 32 := if c.getLsbD 0 then (c >>> 1) ^^^ 0xEDB88320#32 else c >>> 1

/-- One byte of the CRC-32. -/
def crc32Byte (c : BitVec 32) (x : Byte) : BitVec 32 :=
  crc32Bit (crc32Bit (crc32Bit (crc32Bit (crc32Bit (crc32Bit (crc32Bit (crc32Bit (c ^^^ x.zeroExtend 32))))))))

/-- The check value of a run of store bytes (R6); the spec gives no byte layout of the items (log 19). -/
def crc32 (bs : List Byte) : BitVec 32 := ~~~(bs.foldl crc32Byte 0xFFFFFFFF#32)

/-- A frame: the sync byte, the bytes from the kind on, and their CRC-16. -/
def framed (sync : Byte) (bs : List Byte) : List Byte := sync :: (bs ++ crcBytes bs)

/-- A port frame (Table 10-1). -/
def portFrame (kind tag : Byte) (body : List Byte) : List Byte := framed 0xC5 (b2 body.length ++ kind :: tag :: body)

/-- The kind, tag and body of a run of bytes that is one valid port frame: the tests of R165. -/
def portFrameOf (bs : List Byte) : Option (Byte × Byte × List Byte) :=
  let len := wordAt bs 1
  let content := (bs.drop 1).take (4 + len)
  if byteAt bs 0 = 0xC5 ∧ len ≤ 1024 ∧ bs.length = 7 + len ∧ bs.drop (5 + len) = crcBytes content then
    some (byte (byteAt bs 3), byte (byteAt bs 4), (bs.drop 5).take len)
  else none

/-- The body of a reply: the status, then the fields (R164). -/
def Reply.body (r : Reply) : List Byte := b1 r.status.code ++ r.fields

/-- The body of a report: the header of R172, then its own fields. -/
def Report.body (r : Report) (lost : Bool) : List Byte := bBool lost ++ b4 r.time ++ r.fields

/-- A reply or report as bytes (R164); a report carries tag 0. -/
def Sending.bytes : Sending → List Byte
  | .reply r => portFrame r.kind r.tag r.body
  | .report r lost => portFrame r.kind 0 (r.body lost)

/-- A level as a level frame of width 8 or 16 sends it (R136). -/
def levelBytes (wide : Bool) (level : Nat) : List Byte := if wide then b2 level else b1 ((level + 128) / 257)

/-- A level frame (Table 8-1). -/
def LevelFrame.bytes (f : LevelFrame) : List Byte :=
  framed 0xA7 (b1 (if f.wide then 2 else 1) ++ b1 f.seq ++ bBool f.held ++ f.levels.flatMap (levelBytes f.wide))

/-- A stage frame (Table 9-1). -/
def stageFrameBytes (f : StageFrame) : List Byte :=
  framed 0xB3 (b1 0x10 ++ b1 f.target ++ b1 f.hop ++ b1 f.seq ++ b2 f.blend ++ b1 (policyCode f.policy) ++ b1 f.gen
    ++ f.levels.flatMap b2)

/-- Line settings, one byte each, coded as in LINE_SET (R131). -/
def settingsBytes (x : LineSettings) : List Byte := bBool x.enabled ++ bBool x.slow ++ bBool x.wide

/-- A setup frame (R152). -/
def setupFrameBytes (f : SetupFrame) : List Byte :=
  let content := b1 f.target ++ b1 f.hop ++ b1 f.gen ++ f.lines.flatMap settingsBytes ++ b2 f.safeFade
    ++ b1 (policyCode f.policy) ++ b2 f.lamp ++ b1 f.house.length ++ f.house.flatMap b2 ++ b1 f.safe.length
    ++ f.safe.flatMap (fun e => b2 e.1 ++ b2 e.2)
  framed 0xB3 (b1 0x11 ++ b2 content.length ++ content)

/-- A line report, one byte each (Table 9-2). -/
def lineReportBytes (r : LineReport) : List Byte := b1 (monitorCode r.monitor) ++ b1 r.model ++ b1 r.count

/-- An up frame (Table 9-2). -/
def upFrameBytes (f : UpFrame) : List Byte :=
  framed 0xB5 (b1 0x20 ++ b1 f.stage ++ b1 ((if f.orphan then 1 else 0) + (if f.leaderLost then 2 else 0)) ++ b1 f.gen
    ++ f.lines.flatMap lineReportBytes ++ b1 f.events.length
    ++ f.events.flatMap (fun e => b2 e.circuit ++ b1 (faultKindCode e.kind + (if e.raises then 128 else 0))))

/-- The bytes of a frame that has left the part. -/
def Output.bytes : Output → List Byte
  | .port _ f => f.bytes
  | .level _ f => f.bytes
  | .stageFrame f => stageFrameBytes f
  | .setupFrame f => setupFrameBytes f
  | .upFrame f => upFrameBytes f

end Sys2Proof.Machine
end

