-- ==== Sys2Proof/Machine/Ops.lean ====
section
/-! DEFINITION. The operations all commands share: families and sparse tables, replies, reports, raised faults, the taking
of a request with the general checks, and the transmitters. -/

namespace Sys2Proof.Machine

variable {α : Type}

/-! ### Families -/

def Four.get (f : Four α) : Fin 4 → α
  | 0 => f.x0
  | 1 => f.x1
  | 2 => f.x2
  | 3 => f.x3

def Four.set (f : Four α) (i : Fin 4) (a : α) : Four α :=
  match i with
  | 0 => { f with x0 := a }
  | 1 => { f with x1 := a }
  | 2 => { f with x2 := a }
  | 3 => { f with x3 := a }

def Four.toList (f : Four α) : List α := [f.x0, f.x1, f.x2, f.x3]

def Four.map {β : Type} (g : α → β) (f : Four α) : Four β := ⟨g f.x0, g f.x1, g f.x2, g f.x3⟩

def Three.get (f : Three α) : Fin 3 → α
  | 0 => f.x0
  | 1 => f.x1
  | 2 => f.x2

def Three.set (f : Three α) (i : Fin 3) (a : α) : Three α :=
  match i with
  | 0 => { f with x0 := a }
  | 1 => { f with x1 := a }
  | 2 => { f with x2 := a }

def Three.toList (f : Three α) : List α := [f.x0, f.x1, f.x2]

def Three.map {β : Type} (g : α → β) (f : Three α) : Three β := ⟨g f.x0, g f.x1, g f.x2⟩

def Six.get (f : Six α) : Fin 6 → α
  | 0 => f.x0
  | 1 => f.x1
  | 2 => f.x2
  | 3 => f.x3
  | 4 => f.x4
  | 5 => f.x5

def Six.set (f : Six α) (i : Fin 6) (a : α) : Six α :=
  match i with
  | 0 => { f with x0 := a }
  | 1 => { f with x1 := a }
  | 2 => { f with x2 := a }
  | 3 => { f with x3 := a }
  | 4 => { f with x4 := a }
  | 5 => { f with x5 := a }

def Six.toList (f : Six α) : List α := [f.x0, f.x1, f.x2, f.x3, f.x4, f.x5]

def Six.map {β : Type} (g : α → β) (f : Six α) : Six β := ⟨g f.x0, g f.x1, g f.x2, g f.x3, g f.x4, g f.x5⟩

/-- The four indexes in order. -/
def four : List (Fin 4) := [0, 1, 2, 3]
/-- The six line indexes in order. -/
def six : List (Fin 6) := [0, 1, 2, 3, 4, 5]
/-- The three follower stages in order. -/
def three : List (Fin 3) := [0, 1, 2]

/-! ### Sparse tables -/

/-- The value a table holds under a number. -/
def Assoc.find (m : Assoc α) (k : Nat) : Option α := (m.find? (fun e => e.1 = k)).map (·.2)

/-- The table with the value under a number, keys rising. -/
def Assoc.insert (k : Nat) (v : α) : Assoc α → Assoc α
  | [] => [(k, v)]
  | e :: rest => if k < e.1 then (k, v) :: e :: rest else if k = e.1 then (k, v) :: rest else e :: Assoc.insert k v rest

/-- The table with nothing under a number. -/
def Assoc.erase (k : Nat) (m : Assoc α) : Assoc α := m.filter (fun e => e.1 ≠ k)

/-- The table with a value, or nothing, under a number. -/
def Assoc.put (k : Nat) (v : Option α) (m : Assoc α) : Assoc α :=
  match v with
  | some a => Assoc.insert k a m
  | none => Assoc.erase k m

/-- The canonical form: keys strictly rising. -/
def Assoc.wf (m : Assoc α) : Bool := risesStrictly (m.map (·.1))

/-- The level of a channel in a look (R63). -/
def Look.level (l : Look) (c : Nat) : Nat := (Assoc.find l c).getD 0

/-- A look with one level written; a level of 0 is held by listing nothing. -/
def Look.write (l : Look) (c v : Nat) : Look := if v = 0 then Assoc.erase c l else Assoc.insert c v l

/-- A count raised by n that stops at 65535. -/
def raiseCount (n c : Nat) : Nat := min (c + n) Config.maxCount16

/-- A count raised by one that stops at 4,294,967,295. -/
def raiseCount32 (c : Nat) : Nat := min (c + 1) Config.maxCount32

/-! ### Parts of the state -/

namespace State

def port (s : State) : PortId → Port
  | .console => s.con
  | .aux => s.aux

def setPort (s : State) (p : PortId) (x : Port) : State :=
  match p with
  | .console => { s with con := x }
  | .aux => { s with aux := x }

def pb (s : State) (p : PbId) : Playback := s.eng.pb.get p

def setPb (s : State) (p : PbId) (x : Playback) : State := { s with eng := { s.eng with pb := s.eng.pb.set p x } }

def line (s : State) (l : Fin 6) : Line := s.outp.lines.get l

def setLine (s : State) (l : Fin 6) (x : Line) : State :=
  { s with outp := { s.outp with lines := s.outp.lines.set l x } }

/-- FOLLOWER or ORPHAN (R148). -/
def isFollower (s : State) : Bool := s.cas.role = .follower || s.cas.role = .orphan

def isLeader (s : State) : Bool := s.cas.role = .leader

/-! ### Replies, reports, faults -/

/-- A reply joins the end of its port's reply queue (R168); its kind is the request's plus 0x80 (R164). -/
def answer (s : State) (q : Requester) (st : Status) (fields : List Byte) : State :=
  s.setPort q.port
    { s.port q.port with
      replies := (s.port q.port).replies ++
        [{ kind := if (kindInfo q.kind.toNat).isSome then q.kind + 0x80 else 0xFF, tag := q.tag, status := st,
           fields := fields }] }

/-- A report joins the report queue under the overflow rule of R173; a follower produces none (R161). -/
def report (s : State) (kind : Nat) (urgent : Bool) (fields : List Byte) : State :=
  let r : Report := { kind := byte kind, urgent := urgent, time := s.sup.showTime, fields := fields }
  let q := s.link.reports
  if s.isFollower then s
  else if q.length < Config.reportQueue then { s with link := { s.link with reports := q ++ [r] } }
  else if urgent ∧ q.any (fun x => !x.urgent) then
    { s with link := { s.link with reports := q.eraseP (fun x => !x.urgent) ++ [r], lost := true } }
  else { s with link := { s.link with lost := true } }

/-- A fault is raised to the Supervisor, stamped with the show time (R184, R185); a follower discards it (R162). -/
def raise (s : State) (f : EngineFault) : State :=
  if s.isFollower then s else { s with sup := { s.sup with raised := s.sup.raised ++ [f] } }

/-- A fault with its fields absent. -/
def fault (s : State) (kind : EngineFaultKind) (critical : Bool) (value : Nat) : EngineFault :=
  { kind := kind, critical := critical, value := value, playback := none, cue := none, bank := none, stage := none,
    time := s.sup.showTime }

/-! ### The transmitters -/

/-- The report the report queue's head rule picks: the oldest urgent, else the oldest routine (R172). -/
def headReport (q : List Report) : Option Report := (q.find? (·.urgent)).or q.head?

/-- The queue without its head report. -/
def dropReport (q : List Report) : List Report :=
  if q.any (·.urgent) then q.eraseP (·.urgent) else q.drop 1

/-- A free transmitter starts the oldest reply (R168). -/
def startReply (s : State) (p : PortId) : State :=
  match (s.port p).sending, (s.port p).replies with
  | none, r :: rest => s.setPort p { s.port p with sending := some (.reply r), replies := rest }
  | _, _ => s

/-- A free Console Port transmitter with no reply waiting starts the head report, which takes the reports-lost flag,
cleared at that instant (R172, R173). -/
def startReport (s : State) : State :=
  match s.con.sending, s.con.replies, headReport s.link.reports with
  | none, [], some r =>
    { s with con := { s.con with sending := some (.report r s.link.lost) },
             link := { s.link with reports := dropReport s.link.reports, lost := false } }
  | _, _, _ => s

/-- The transmitters start replies. -/
def startReplies (s : State) : State := (s.startReply .console).startReply .aux

/-- The transmitters at the end of a command (R168; log 6). -/
def pump (s : State) : State := s.startReplies.startReport

/-! ### Taking a request -/

/-- The first three general checks of R169: NOT_PERMITTED, FOLLOWER, HALTED. A part whose role is undecided is no follower:
its requests are taken as on a leader (log 44). -/
def gate (s : State) (p : PortId) (code : Nat) : Option Status :=
  if permitted p s.link.mask code = false then some .notPermitted
  else if s.isFollower ∧ code ≠ 0x02 then some .follower
  else if s.sup.halted ∧ takenHalted code = false then some .halted
  else none

/-- Whether a request that passes the general checks waits at the head of its queue (R167). -/
def mustWait (s : State) (code : Nat) : Bool :=
  (needsStore code && s.ctl.startUp.isSome) || (needsDecision code && !s.bank.decided)

/-- Taking a request removes it from the queue; its reply is owed (R167). -/
def takeOff (s : State) (p : PortId) (rest : List Request) : State :=
  s.setPort p { s.port p with requests := rest, owed := (s.port p).owed + 1 }

/-- The head of a port's request queue, when the port owes fewer than 13 replies (R167). -/
def headRequest (s : State) (p : PortId) : Option (Request × List Request) :=
  match (s.port p).requests with
  | [] => none
  | r :: rest => if (s.port p).owed < Config.owedReplies then some (r, rest) else none

/-- The taking of a request of one kind (R167, R169): the general checks, the waits, then the work of its rule.
Nothing happens when the head of the queue is another request or has to wait (log 1). -/
def takeRequest {β : Type} (s : State) (p : PortId) (code : Nat) (parse : List Byte → Except Status β)
    (work : State → Requester → β → State) : State :=
  match s.headRequest p with
  | none => s
  | some (r, rest) =>
    if r.kind.toNat ≠ code then s
    else
      let q : Requester := { port := p, tag := r.tag, kind := r.kind }
      match s.gate p code with
      | some st => ((s.takeOff p rest).answer q st []).pump
      | none =>
        match parse r.body with
        | .error st => ((s.takeOff p rest).answer q st []).pump
        | .ok v => if s.mustWait code then s else (work (s.takeOff p rest) q v).pump

/-- A frame leaves the part on a link (log 32). -/
def emit (s : State) (o : Output) : State := { s with wire := s.wire ++ [o] }

end State

end Sys2Proof.Machine
end

