-- ==== Sys2Proof/Machine/Merge.lean ====
section
/-! DEFINITION. The channel output of the Merge Unit (R105). -/

namespace Sys2Proof.Machine.State

/-- The park of a channel (R109). -/
def parkOf (s : State) (c : Nat) : Option Park := s.merge.parks.find? (fun p => p.channel = c)

/-- One playback's scaled level: look × master / 1000 (R105). -/
def scaled (s : State) (p : PbId) (c : Nat) : Nat := (s.pb p).look.level c * (s.pb p).master / 1000

/-- The largest of the four scaled levels (R105). -/
def merged (s : State) (c : Nat) : Nat := max (max (s.scaled 0 c) (s.scaled 1 c)) (max (s.scaled 2 c) (s.scaled 3 c))

/-- The channel output O[c] (R105): the park, else 0 in blackout, else the merged level scaled by the grand master. -/
def output (s : State) (c : Nat) : Nat :=
  match s.parkOf c with
  | some p => p.level
  | none => if s.merge.blackout then 0 else s.merged c * s.merge.grand / 1000

/-- The dark check: every channel output is 0 (R121). -/
def isDark (s : State) : Bool := (List.range Config.channels).all (fun i => s.output (i + 1) = 0)

end Sys2Proof.Machine.State
end

