-- ==== Sys2Proof/Machine/Patch.lean ====
section
/-! DEFINITION. Curves, windows, house circuits and the circuit level of the Patch Unit (R27, R28, R38). -/

namespace Sys2Proof.Machine

/-- A level through the points of a curve (R38). -/
def curveValue (points : List Nat) (x : Nat) : Nat :=
  let p := fun i => points.getD i 0
  if x < 1000 then p (x / 50) + (p (x / 50 + 1) - p (x / 50)) * (x % 50) / 50 else p 20

/-- The window that covers a circuit (R28). -/
def Windows.covering (w : Windows) (k : Nat) : Option Window :=
  w.toList.findSome? (fun o => match o with
    | some x => if x.first ≤ k ∧ k ≤ x.last then some x else none
    | none => none)

/-- The channel a windows item gives a circuit: none past channel 1536 (R28). -/
def Windows.channel (w : Windows) (k : Nat) : Option Nat :=
  match w.covering k with
  | some x => if x.channel + (k - x.first) ≤ Config.channels then some (x.channel + (k - x.first)) else none
  | none => none

/-- Whether two present windows share a circuit (R33). -/
def Windows.overlap (w : Windows) : Bool :=
  let meets := fun (a b : Option Window) => match a, b with
    | some x, some y => x.first ≤ y.last && y.first ≤ x.last
    | _, _ => false
  meets w.x0 w.x1 || meets w.x0 w.x2 || meets w.x0 w.x3 || meets w.x1 w.x2 || meets w.x1 w.x3 || meets w.x2 w.x3

/-- A patch table with the pairs of a write written in order: an entry replaces the slot, absent empties it (R30). -/
def writePairs (pairs : List (Nat × Option PatchEntry)) (m : Assoc PatchEntry) : Assoc PatchEntry :=
  pairs.foldl (fun t e => Assoc.put e.1 e.2 t) m

/-- The circuits of segment n, 1 to 24 (R4). -/
def segmentCircuits (n : Nat) : List Nat := (List.range 96).map (fun i => (n - 1) * 96 + i + 1)

/-- The segment of a circuit (R4). -/
def segmentOf (k : Nat) : Nat := (k - 1) / 96 + 1

/-- The 96 entries of a segment as pairs (R32, R35). -/
def segmentPairs (n : Nat) (m : Assoc PatchEntry) : List (Nat × Option PatchEntry) :=
  (segmentCircuits n).map (fun k => (k, Assoc.find m k))

/-- The sources of a circuit level (R27). -/
inductive CircuitSource where
  | none
  | entry (channel : Nat)
  | window (channel : Nat)
  | house (group : Fin 4)
deriving DecidableEq, Repr

namespace State

/-- Curve 0 is straight and fixed; 1 to 7 are in the curve table (R38, R39). -/
def curve (s : State) (u : Nat) : List Nat := if u = 0 then linearPoints else s.patch.curves.getD (u - 1) linearPoints

/-- The house group a circuit is reserved to (R41). -/
def houseGroupOf (s : State) (k : Nat) : Option (Fin 4) := four.find? (fun g => (s.patch.groups.get g).members.contains k)

/-- The source of a circuit's level, the first that applies (R27). -/
def circuitSource (s : State) (k : Nat) : CircuitSource :=
  match s.houseGroupOf k with
  | some g => .house g
  | none =>
    match Assoc.find s.patch.active k with
    | some e => .entry e.channel
    | none =>
      match s.patch.windows.channel k with
      | some c => .window c
      | none => .none

/-- The circuit level of a circuit (R27). -/
def circuitLevel (s : State) (k : Nat) : Nat :=
  match s.houseGroupOf k with
  | some g => curveValue (s.curve (s.patch.groups.get g).curve) (s.patch.groups.get g).level
  | none =>
    match Assoc.find s.patch.active k with
    | some e => curveValue (s.curve e.curve) (s.output e.channel * e.proportion / 100)
    | none =>
      match s.patch.windows.channel k with
      | some c => curveValue (s.curve 0) (s.output c)
      | none => 0

end State

end Sys2Proof.Machine
end

