-- ==== Sys2Proof/Machine/Layout.lean ====
section
/-! DEFINITION. What the show store holds as bytes, and the check values: computed at every write, tested at every read (R1, R3
to R6). The spec gives the contents and no layout; the order of the bytes here is the model's (log 19). -/

namespace Sys2Proof.Machine

/-! ### Check values -/

/-- A value with the check value computed as it is written (R6). -/
def Checked.seal {α : Type} (bytes : α → List Byte) (v : α) : Checked α := { value := v, check := crc32 (bytes v) }

/-- What a read hands over: nothing where nothing has been written, or where the check value does not match (R1, R6). -/
def Checked.read {α : Type} (bytes : α → List Byte) (x : Option (Checked α)) : Option α :=
  x.bind fun c => if c.check = crc32 (bytes c.value) then some c.value else none

/-! ### House items -/

/-- The number of a house item, 0 to 42, in the order of Table 1-1 (log 26). -/
def HouseItem.id : HouseItem → Nat
  | .resident _ => 0
  | .silence _ => 1
  | .policy _ => 2
  | .safeFade _ => 3
  | .backTime _ => 4
  | .lamp _ => 5
  | .curve n _ => 5 + n
  | .groups _ => 13
  | .safeLook _ => 14
  | .line st l _ => 15 + st * 6 + (l - 1)
  | .input i _ => 39 + i.val

/-- An input's settings as in INPUT_SET (R79, R178; log 39). -/
def inputFields (i : Fin 4) (x : InputSettings) : List Byte :=
  b1 (num i) ++ bBool x.enabled ++ b1 (num x.playback) ++ b1 x.action.code

/-- The house item as its request sends it, with the selector of HOUSE_SET (R17; log 16). -/
def HouseItem.fields : HouseItem → List Byte
  | .resident b => b1 1 ++ b2 (bankCode b)
  | .silence n => b1 2 ++ b2 n
  | .policy p => b1 3 ++ b2 (policyCode p)
  | .safeFade n => b1 4 ++ b2 n
  | .backTime n => b1 5 ++ b2 n
  | .lamp n => b1 6 ++ b2 n
  | .curve n points => b1 n ++ points.flatMap b2
  | .groups g => g.toList.flatMap (fun x => b1 x.curve ++ b1 x.members.length ++ x.members.flatMap b2)
  | .safeLook e => b1 e.length
  | .line st l x => b1 st ++ b1 l ++ settingsBytes x
  | .input i x => inputFields i x

/-- The entries of a safe look; the reply to its write carries their count alone (R183). -/
def HouseItem.entries : HouseItem → List (Nat × Nat)
  | .safeLook e => e
  | _ => []

/-- A house item in the house area: its number, then its value (R1). -/
def HouseItem.bytes (item : HouseItem) : List Byte :=
  b1 item.id ++ item.fields ++ item.entries.flatMap (fun e => b2 e.1 ++ b2 e.2)

/-! ### Banks -/

/-- The cues of a bank (R3). -/
def Header.cues (h : Header) : Nat := (h.dir.toList.map List.length).sum

/-- The level entries of a bank (R3). -/
def Header.entries (h : Header) : Nat := (h.dir.toList.map (fun l => (l.map (fun e => e.2.count)).sum)).sum

/-- A bank header: state, title, the four lists of the directory, totals (R3). -/
def Header.bytes (h : Header) : List Byte :=
  bBool h.valid ++ bText h.title
    ++ h.dir.toList.flatMap (fun l => b2 l.length ++ l.flatMap (fun e => b2 e.1 ++ bText e.2.label ++ b2 e.2.count))
    ++ b2 h.cues ++ b4 h.entries

/-- A patch segment: its present entries with their circuits; the others of its 96 are absent (R4). -/
def segmentBytes (m : Assoc PatchEntry) : List Byte :=
  m.flatMap (fun e => b2 e.1 ++ b2 e.2.channel ++ b1 e.2.proportion ++ b1 e.2.curve)

/-- A windows item, its four windows as in WINDOW_SET (R4). -/
def Windows.bytes (w : Windows) : List Byte :=
  w.toList.flatMap fun o => match o with
    | some x => b1 1 ++ b2 x.first ++ b2 x.last ++ b2 x.channel
    | none => b1 0

/-- A level entry as CUE_ADD sends it, in 3 bytes (chapter 1.7). -/
def entryBytes (e : Nat × Nat) : List Byte :=
  let n := e.2 * 2048 + e.1
  [byte n, byte (n / 256), byte (n / 65536)]

/-- A cue record, in the order of Table 1-2 (R5). -/
def Cue.bytes (c : Cue) : List Byte :=
  b2 c.number ++ bText c.label ++ b2 c.up ++ bOpt c.down ++ b2 c.upDelay ++ b2 c.downDelay ++ bOpt c.follow ++ bOpt c.link
    ++ bBool c.block ++ b2 c.levels.length ++ c.levels.flatMap entryBytes

namespace State

/-! ### Reading the store -/

/-- The house item of a number, as the store holds it and its check value passes (R2, R6). -/
def storedItem (s : State) (i : Nat) : Option HouseItem := Checked.read HouseItem.bytes (Assoc.find s.store.house i)

/-- The header of a bank, as the store holds it and its check value passes (R3, R6). -/
def storedHeader (s : State) (b : Bank) : Option Header := Checked.read Header.bytes (s.store.banks.get b).header

/-- Segment n of a bank, 1 to 24, as the store holds it and its check value passes (R4, R6). -/
def storedSegment (s : State) (b : Bank) (n : Nat) : Option (Assoc PatchEntry) :=
  Checked.read segmentBytes ((s.store.banks.get b).segments.getD (n - 1) none)

/-- The windows item of a bank, as the store holds it and its check value passes (R4, R6). -/
def storedWindows (s : State) (b : Bank) : Option Windows := Checked.read Windows.bytes (s.store.banks.get b).windows

/-- A cue record of a bank, as the store holds it and its check value passes (R5, R6). -/
def storedCue (s : State) (b : Bank) (l : PbId) (n : Nat) : Option Cue :=
  Checked.read Cue.bytes (Assoc.find ((s.store.banks.get b).cues.get l) n)

end State

end Sys2Proof.Machine
end

