-- ==== Sys2Proof/Machine/Store.lean ====
section
/-! DEFINITION. The Store Controller's shared operations: projected banks, capacities, the store queue, forwarding and the arbiter (R7 to R12). -/

namespace Sys2Proof.Machine

/-! ### Projected banks -/

/-- A freshly erased bank: VALID, blank title, empty lists (R7, R15). -/
def Header.fresh : Header := { Header.blank with valid := true }

/-- A header with one write applied (R7). -/
def Header.apply (h : Header) : WriteKind → Header
  | .bankErase => Header.fresh
  | .cueWrite l c =>
    if h.valid then
      { h with dir := h.dir.set l (Assoc.insert c.number { label := c.label, count := c.levels.length } (h.dir.get l)) }
    else h
  | .cueDelete l n => if h.valid then { h with dir := h.dir.set l (Assoc.erase n (h.dir.get l)) } else h
  | .bankTitle t => if h.valid then { h with title := t } else h
  | .patchWrite _ => h
  | .windowWrite _ => h
  | .houseWrite _ => h

/-- The refusal of a bank past its capacities, LIST_FULL before POOL_FULL (R7). -/
def Header.overfull (h : Header) : Option Status :=
  if Config.bankCues < h.cues then some .listFull
  else if Config.bankEntries < h.entries then some .poolFull
  else none

/-- The capacity test of a CUE_WRITE: the bank after it, a cue of the same number freed first (R7). -/
def Header.capacity (h : Header) (l : PbId) (c : Cue) : Option Status := (h.apply (.cueWrite l c)).overfull

/-- What a queued write makes of a cue (R10): some record, some absence, or nothing; a doomed write makes nothing. -/
def WriteEntry.onCue (w : WriteEntry) (b : Bank) (l : PbId) (n : Nat) : Option (Option Cue) :=
  if w.bank ≠ some b ∨ w.doomed.isSome then none
  else match w.kind with
    | .cueWrite l' c => if l' = l ∧ c.number = n then some (some c) else none
    | .cueDelete l' n' => if l' = l ∧ n' = n then some none else none
    | .bankErase => some none
    | .patchWrite _ => none
    | .windowWrite _ => none
    | .bankTitle _ => none
    | .houseWrite _ => none

/-- How the Store Controller answers a reader of a cue (R10). -/
inductive CueAnswer where
  | ready (c : Cue)
  | notFound
  | readPort
deriving DecidableEq, Repr

namespace State

/-- The projected bank (R7). -/
def proj (s : State) (b : Bank) : Header := s.ctl.proj.get b

/-- The RAM copy of a bank header (R3). -/
def ram (s : State) (b : Bank) : Header := s.ctl.ram.get b

def setProj (s : State) (b : Bank) (h : Header) : State := { s with ctl := { s.ctl with proj := s.ctl.proj.set b h } }

def setRam (s : State) (b : Bank) (h : Header) : State := { s with ctl := { s.ctl with ram := s.ctl.ram.set b h } }

/-- A write can be accepted only below 8 writes (R11). -/
def queueFull (s : State) : Bool := Config.storeQueue ≤ s.ctl.queue.length

/-- An accepted write joins the queue and is applied to the projection (R7, R11). -/
def enqueue (s : State) (w : WriteEntry) : State :=
  let s := { s with ctl := { s.ctl with queue := s.ctl.queue ++ [w] } }
  match w.bank with
  | some b => s.setProj b ((s.proj b).apply w.kind)
  | none => s

/-- The projection of a bank worked out anew from its header and the queue, marking CUE_WRITEs past the capacities doomed
(R14). The header is the projection so far. -/
def reproject (b : Bank) : Header → List WriteEntry → Header × List WriteEntry
  | h, [] => (h, [])
  | h, w :: rest =>
    if w.bank ≠ some b ∨ w.doomed.isSome then
      let (h', rest') := reproject b h rest
      (h', w :: rest')
    else match w.kind with
      | .cueWrite l c =>
        match h.capacity l c with
        | some st =>
          let (h', rest') := reproject b h rest
          (h', { w with doomed := some st } :: rest')
        | none =>
          let (h', rest') := reproject b (h.apply w.kind) rest
          (h', w :: rest')
      | k =>
        let (h', rest') := reproject b (h.apply k) rest
        (h', w :: rest')

/-- R14: the failed write's bank is worked out anew. -/
def projectAnew (s : State) (b : Bank) : State :=
  let (h, q) := reproject b (s.ram b) s.ctl.queue
  ({ s with ctl := { s.ctl with queue := q } }).setProj b h

/-! ### Reading through the queue -/

/-- A cue as the projected bank has it: the newest write that affects it decides, else the directory of the RAM copy
(R10). -/
def cueAnswer (s : State) (b : Bank) (l : PbId) (n : Nat) : CueAnswer :=
  match s.ctl.queue.reverse.findSome? (fun w => w.onCue b l n) with
  | some (some c) => .ready c
  | some none => .notFound
  | none => if (Assoc.find ((s.ram b).dir.get l) n).isSome then .readPort else .notFound

/-- A BANK_ERASE of the bank is queued or being performed (R15). -/
def eraseQueued (s : State) (b : Bank) : Bool := s.ctl.queue.any (fun w => w.bank = some b && w.kind = .bankErase)

/-- The bank is reported BLANK to the Bank Controller (R15). -/
def reportedBlank (s : State) (b : Bank) : Bool := !(s.ram b).valid || s.eraseQueued b

/-! ### The arbiter -/

/-- The head write leaves the queue and its requester is answered (R12, R13, R14). -/
def endHeadWrite (s : State) (st : Status) (fields : List Byte) : State :=
  match s.ctl.queue with
  | [] => s
  | w :: rest => ({ s with ctl := { s.ctl with queue := rest, eraseStep := 0 } }).answer w.req st fields

/-- The write names a bank that is BLANK in the RAM copy (R12). -/
def blankBank (s : State) (w : WriteEntry) : Bool :=
  match w.bank with
  | some b => !(s.ram b).valid
  | none => false

/-- The test of a granted head write: the status it ends with when no operation is made (R12). -/
def headTest (s : State) (w : WriteEntry) : Option Status :=
  if w.kind ≠ .bankErase ∧ s.blankBank w = true then some .blank
  else if w.doomed.isSome then w.doomed
  else match w.kind, w.bank with
    | .cueDelete l n, some b => if (Assoc.find ((s.ram b).dir.get l) n).isNone then some .notFound else none
    | _, _ => none

/-- The grant of the head write, past the writes that end without an operation; the first number bounds how many. -/
def grantWrite : Nat → State → State
  | 0, s => s
  | n + 1, s =>
    match s.ctl.queue with
    | [] => s
    | w :: _ =>
      match s.headTest w with
      | some st => grantWrite n (s.endHeadWrite st [])
      | none => { s with ctl := { s.ctl with op := some .write } }

/-- The waiting fetch of the lowest playback (R9). -/
def firstFetch (s : State) : Option (PbId × Fetch) :=
  four.findSome? (fun p => (s.ctl.fetches.get p).map (fun f => (p, f)))

/-- The waiting load step claim with its bank (R9, R118). -/
def loadWaiting (s : State) : Option (Bank × Nat) :=
  match s.ctl.loadClaim, s.bank.change with
  | some n, some c => some (c.target, n)
  | _, _ => none

/-- When the port is free, the arbiter grants one claim: a start-up read, else the fetch of the lowest playback, else the
load step, else the oldest host read, else the head write (R9). While a list notice waits to be taken it grants none of
these but a start-up read, since the fetch that the notice starts is a claim of the same grant (R59, chapter 3.8; log 50). -/
def arbitrate (s : State) : State :=
  if s.ctl.op.isSome then s
  else match s.ctl.startUp with
    | some i => { s with ctl := { s.ctl with op := some (.startUp i) } }
    | none =>
      if s.eng.notices ≠ [] then s
      else match s.firstFetch with
        | some (p, f) => { s with ctl := { s.ctl with op := some (.fetch p f true), fetches := s.ctl.fetches.set p none } }
        | none =>
          match s.loadWaiting with
          | some (b, n) => { s with ctl := { s.ctl with op := some (.load b n true), loadClaim := none } }
          | none =>
            match s.ctl.hostReads with
            | r :: rest => { s with ctl := { s.ctl with op := some (.hostRead r), hostReads := rest } }
            | [] => grantWrite s.ctl.queue.length s

/-- The operation on the port has ended and the port is free. -/
def freePort (s : State) : State := { s with ctl := { s.ctl with op := none } }

/-- The end of a command that may free the store port or ask for it: one grant, then the transmitters (logs 6 and 7). -/
def settle (s : State) : State := s.arbitrate.pump

/-- The taking of a request whose work may ask for the store port: a grant follows the work (R9). -/
def takeStoreRequest {β : Type} (s : State) (p : PortId) (code : Nat) (parse : List Byte → Except Status β)
    (work : State → Requester → β → State) : State :=
  s.takeRequest p code parse (fun t q v => (work t q v).arbitrate)

end State

end Sys2Proof.Machine
end

