-- ==== Sys2Proof/Machine/Edits.lean ====
section
/-! DEFINITION. The requests that build and delete cues, edit patches and titles, erase banks and write house items (R15 to
R23, R33, R34, R40, R42, R79, R131, R170, R183). -/

namespace Sys2Proof.Machine

namespace State

/-- A write is accepted into the store queue, or answered STORE_BUSY (R11). -/
def acceptWrite (s : State) (q : Requester) (kind : WriteKind) (bank : Option Bank) (status : Status) : State :=
  if s.queueFull then s.answer q .storeBusy []
  else s.enqueue { kind := kind, bank := bank, req := q, status := status, doomed := none }

/-- A write to a bank that must not be BLANK in the projection (R16, R34). -/
def acceptBankWrite (s : State) (q : Requester) (kind : WriteKind) (bank : Bank) : State :=
  if (s.proj bank).valid then s.acceptWrite q kind (some bank) .ok else s.answer q .blank []

/-- A house write (R17). -/
def houseWork (s : State) (q : Requester) (a : HouseItem × Bool) : State :=
  s.acceptWrite q (.houseWrite a.1) none (okOr a.2)

/-- A port's cue builder (R19). -/
def setBuilder (s : State) (p : PortId) (x : Option Builder) : State := s.setPort p { s.port p with builder := x }

/-- CUE_OPEN (R19). -/
def cueOpenWork (s : State) (q : Requester) (a : Builder) : State :=
  if (s.port q.port).builder.isSome then s.answer q .builderOpen []
  else if (s.proj a.bank).valid = false then s.answer q .blank []
  else (s.setBuilder q.port (some a)).answer q .ok []

/-- CUE_ADD (R20). -/
def cueAddWork (s : State) (q : Requester) (entries : List (Nat × Nat)) : State :=
  match (s.port q.port).builder with
  | none => s.answer q .noBuilder []
  | some x =>
    let last := (x.cue.levels.getLast?.map (·.1)).getD 0
    let levels := x.cue.levels ++ entries
    if risesStrictly (last :: entries.map (·.1)) = false then s.answer q .badValue []
    else if Config.channels < levels.length then s.answer q .badValue []
    else (s.setBuilder q.port (some { x with cue := { x.cue with levels := levels } })).answer q .ok (b2 levels.length)

/-- CUE_CLOSE (R21). -/
def cueCloseWork (s : State) (q : Requester) (_ : Unit) : State :=
  match (s.port q.port).builder with
  | none => s.answer q .noBuilder []
  | some x =>
    if (s.proj x.bank).valid = false then s.answer q .blank []
    else match (s.proj x.bank).capacity x.list x.cue with
      | some st => s.answer q st []
      | none =>
        if s.queueFull then s.answer q .storeBusy []
        else (s.setBuilder q.port none).acceptWrite q (.cueWrite x.list x.cue) (some x.bank) .ok

/-- CUE_ABANDON (R22). -/
def cueAbandonWork (s : State) (q : Requester) (_ : Unit) : State :=
  if (s.port q.port).builder.isNone then s.answer q .noBuilder [] else (s.setBuilder q.port none).answer q .ok []

/-- CUE_DELETE (R23). -/
def cueDeleteWork (s : State) (q : Requester) (a : (Bank × PbId) × Nat) : State :=
  if (s.proj a.1.1).valid = false then s.answer q .blank []
  else if (Assoc.find ((s.proj a.1.1).dir.get a.1.2) a.2).isNone then s.answer q .notFound []
  else s.acceptWrite q (.cueDelete a.1.2 a.2) (some a.1.1) .ok

/-- PATCH_SET (R34). -/
def patchSetWork (s : State) (q : Requester) (a : Bank × List (Nat × Option PatchEntry)) : State :=
  s.acceptBankWrite q (.patchWrite a.2) a.1

/-- WINDOW_SET (R33). -/
def windowSetWork (s : State) (q : Requester) (a : Bank × Windows) : State :=
  if a.2.overlap then s.answer q .overlap [] else s.acceptBankWrite q (.windowWrite a.2) a.1

/-- BANK_TITLE (R16). -/
def bankTitleWork (s : State) (q : Requester) (a : Bank × List Byte) : State :=
  s.acceptBankWrite q (.bankTitle a.2) a.1

/-- Whether a bank is the changeover target. -/
def isTarget (s : State) (b : Bank) : Bool :=
  match s.bank.change with
  | some c => c.target = b
  | none => false

/-- BANK_ERASE (R15). -/
def bankEraseWork (s : State) (q : Requester) (b : Bank) : State :=
  if s.bank.active = some b then s.answer q .activeBank []
  else if s.isTarget b then s.answer q .inChangeover []
  else s.acceptWrite q .bankErase (some b) .ok

/-- HOUSE_CIRCUITS_SET (R42). -/
def houseCircuitsSetWork (s : State) (q : Requester) (g : Four GroupSettings) : State := s.houseWork q (.groups g, false)

/-- SAFE_LOOK_SET (R183). -/
def safeLookSetWork (s : State) (q : Requester) (e : List (Nat × Nat)) : State := s.houseWork q (.safeLook e, false)

/-- LINE_SET and INPUT_SET: nothing is legalized (R79, R131). -/
def plainHouseWork (s : State) (q : Requester) (x : HouseItem) : State := s.houseWork q (x, false)

end State

/-! ### The meanings -/

/-- CUE_OPEN (R19). -/
def execCueOpen (port : PortId) (s : State) : Host.Outcome State Fault Refusal :=
  .next (s.takeRequest port 0x20 parseCueOpen State.cueOpenWork)

/-- CUE_ADD (R20). -/
def execCueAdd (port : PortId) (s : State) : Host.Outcome State Fault Refusal :=
  .next (s.takeRequest port 0x21 parseCueAdd State.cueAddWork)

/-- CUE_CLOSE (R21). -/
def execCueClose (port : PortId) (s : State) : Host.Outcome State Fault Refusal :=
  .next (s.takeStoreRequest port 0x22 parseNone State.cueCloseWork)

/-- CUE_ABANDON (R22). -/
def execCueAbandon (port : PortId) (s : State) : Host.Outcome State Fault Refusal :=
  .next (s.takeRequest port 0x23 parseNone State.cueAbandonWork)

/-- CUE_DELETE (R23). -/
def execCueDelete (port : PortId) (s : State) : Host.Outcome State Fault Refusal :=
  .next (s.takeStoreRequest port 0x24 parseCueDelete State.cueDeleteWork)

/-- PATCH_SET (R34). -/
def execPatchSet (port : PortId) (s : State) : Host.Outcome State Fault Refusal :=
  .next (s.takeStoreRequest port 0x25 parsePatchSet State.patchSetWork)

/-- WINDOW_SET (R33). -/
def execWindowSet (port : PortId) (s : State) : Host.Outcome State Fault Refusal :=
  .next (s.takeStoreRequest port 0x26 parseWindowSet State.windowSetWork)

/-- BANK_TITLE (R16). -/
def execBankTitle (port : PortId) (s : State) : Host.Outcome State Fault Refusal :=
  .next (s.takeStoreRequest port 0x27 parseBankTitle State.bankTitleWork)

/-- BANK_ERASE (R15). -/
def execBankErase (port : PortId) (s : State) : Host.Outcome State Fault Refusal :=
  .next (s.takeStoreRequest port 0x52 parseBank State.bankEraseWork)

/-- HOUSE_SET (R170). -/
def execHouseSet (port : PortId) (s : State) : Host.Outcome State Fault Refusal :=
  .next (s.takeStoreRequest port 0x53 parseHouseSet State.houseWork)

/-- CURVE_SET (R40). -/
def execCurveSet (port : PortId) (s : State) : Host.Outcome State Fault Refusal :=
  .next (s.takeStoreRequest port 0x54 parseCurveSet State.houseWork)

/-- HOUSE_CIRCUITS_SET (R42). -/
def execHouseCircuitsSet (port : PortId) (s : State) : Host.Outcome State Fault Refusal :=
  .next (s.takeStoreRequest port 0x55 parseHouseCircuitsSet State.houseCircuitsSetWork)

/-- SAFE_LOOK_SET (R183). -/
def execSafeLookSet (port : PortId) (s : State) : Host.Outcome State Fault Refusal :=
  .next (s.takeStoreRequest port 0x56 parseSafeLookSet State.safeLookSetWork)

/-- LINE_SET (R131). -/
def execLineSet (port : PortId) (s : State) : Host.Outcome State Fault Refusal :=
  .next (s.takeStoreRequest port 0x57 parseLineSet State.plainHouseWork)

/-- INPUT_SET (R79). -/
def execInputSet (port : PortId) (s : State) : Host.Outcome State Fault Refusal :=
  .next (s.takeStoreRequest port 0x58 parseInputSet State.plainHouseWork)

end Sys2Proof.Machine
end

