-- ==== Sys2Proof/Machine/Fades.lean ====
section
/-! DEFINITION. The Fade Slot Table: move levels, slot ends, takeover, creation, pausing and the fade step (R87 to R102). -/

namespace Sys2Proof.Machine

/-- The level of a move at an elapsed count: up moves (R91), down moves and equal moves (R92). -/
def Slot.level (sl : Slot) (m : Move) (e : Nat) : Nat :=
  if m.start < m.target then
    if e < sl.upDelay then m.start
    else if sl.up = 0 then m.target
    else min m.target (m.start + (m.target - m.start) * (e - sl.upDelay) / sl.up)
  else if m.target < m.start then
    if e < sl.downDelay then m.start
    else if sl.down = 0 then m.target
    else max m.target (m.start - (m.start - m.target) * (e - sl.downDelay) / sl.down)
  else m.start

/-- The end of a slot from the moves it holds (R93). -/
def Slot.finish (sl : Slot) : Nat :=
  max (if sl.moves.any (fun m => m.start < m.target) then sl.upDelay + sl.up else 0)
    (if sl.moves.any (fun m => m.target < m.start) then sl.downDelay + sl.down else 0)

/-- The moves of all slots in use (R88). -/
def poolUse (slots : List Slot) : Nat := (slots.map (fun sl => sl.moves.length)).sum

/-- Whether a run of moves holds a channel. -/
def movesChannel (moves : List Move) (c : Nat) : Bool := moves.any (fun m => m.channel = c)

/-- An older slot of a playback after the takeover of the channels of new moves (R90). -/
def Slot.loses (sl : Slot) (p : PbId) (moves : List Move) : Slot :=
  if sl.playback = p then { sl with moves := sl.moves.filter (fun m => !movesChannel moves m.channel) } else sl

/-- A takeover leaves a slot without moves, and so frees it; a slot that had none is not freed by it (R90; log 22). A RELEASE
frees that slot too, by its own step 5 (R76; log 45). -/
def Slot.freedBy (sl : Slot) (p : PbId) (moves : List Move) : Bool :=
  !sl.moves.isEmpty && (sl.loses p moves).moves.isEmpty

/-- The slots after a takeover (R90). -/
def takeover (p : PbId) (moves : List Move) (slots : List Slot) : List Slot :=
  (slots.filter (fun sl => !sl.freedBy p moves)).map (fun sl => sl.loses p moves)

/-- The capacity tests of a new slot in their order: NO_SLOT when the table is full and no older slot makes room, then
POOL_FULL over the slots that are kept (R68). -/
def capacityRefusal (slots kept : List Slot) (makesRoom : Slot → Bool) (moves : List Move) : Option Status :=
  if Config.slots ≤ slots.length ∧ slots.all (fun sl => !makesRoom sl) then some .noSlot
  else if Config.movePool < poolUse kept + moves.length then some .poolFull
  else none

/-- The capacity tests of a CUE or BACK slot, as the tables will stand after takeover (R68). -/
def slotRefusal (p : PbId) (moves : List Move) (slots : List Slot) : Option Status :=
  capacityRefusal slots (takeover p moves slots) (fun sl => sl.freedBy p moves) moves

/-- The slots without those of a playback. -/
def withoutSlotsOf (p : PbId) (slots : List Slot) : List Slot := slots.filter (fun sl => sl.playback ≠ p)

/-- The capacity tests of a RELEASE slot: every older slot of the playback is freed, so the slot test passes if it has any
(R68, R76; log 45). -/
def releaseRefusal (p : PbId) (moves : List Move) (slots : List Slot) : Option Status :=
  capacityRefusal slots (withoutSlotsOf p slots) (fun sl => sl.playback = p) moves

/-- The lowest free slot number (R89). -/
def freeSlot (slots : List Slot) : Nat :=
  (((List.range Config.slots).map (· + 1)).find? (fun n => slots.all (fun sl => sl.number ≠ n))).getD 0

/-- A slot put in its place by number. -/
def insertSlot (sl : Slot) : List Slot → List Slot
  | [] => [sl]
  | x :: rest => if sl.number < x.number then sl :: x :: rest else x :: insertSlot sl rest

/-- The levels of a slot's moves at an elapsed count, written into a look (R94). -/
def Slot.writeLook (sl : Slot) (e : Nat) (look : Look) : Look :=
  sl.moves.foldl (fun l m => l.write m.channel (sl.level m e)) look

/-- The times of a new slot, in tenths of a second (R87). -/
structure SlotTimes where
  up : Nat
  down : Nat
  upDelay : Nat
  downDelay : Nat
deriving DecidableEq, Repr

namespace State

/-- The slots of a playback. -/
def slotsOf (s : State) (p : PbId) : List Slot := s.slots.filter (fun sl => sl.playback = p)

/-- The slot a creation makes: the lowest free number, times in steps, elapsed 0, not paused (R89). -/
def newSlot (s : State) (p : PbId) (kind : SlotKind) (cue : Option Nat) (t : SlotTimes) (moves : List Move) : Slot :=
  { number := freeSlot (takeover p moves s.slots), playback := p, kind := kind, cue := cue, up := t.up * 10,
    down := t.down * 10, upDelay := t.upDelay * 10, downDelay := t.downDelay * 10, elapsed := 0, paused := false,
    moves := moves }

/-- The creation of a slot (R89): takeover, the slot, and the levels of its moves at elapsed 0 in the look. -/
def createSlot (s : State) (sl : Slot) : State :=
  let s := { s with slots := insertSlot sl (takeover sl.playback sl.moves s.slots) }
  s.setPb sl.playback { s.pb sl.playback with look := sl.writeLook 0 (s.pb sl.playback).look }

/-- The paused flag of every slot of a playback (R98). -/
def setPaused (s : State) (p : PbId) (paused : Bool) : State :=
  { s with slots := s.slots.map (fun sl => if sl.playback = p then { sl with paused := paused } else sl) }

/-- Entry to HELD: slots and follow timer paused; a paused timer does not expire (R65, R71). -/
def enterHeld (s : State) (p : PbId) : State :=
  let s := s.setPaused p true
  s.setPb p { s.pb p with
    state := .held, follow := (s.pb p).follow.map (fun f => { f with paused := true, due := false }) }

/-- Leaving HELD: slots and follow timer unpaused (R65); the command then sets the state. -/
def unhold (s : State) (p : PbId) : State :=
  let s := s.setPaused p false
  s.setPb p { s.pb p with follow := (s.pb p).follow.map (fun f => { f with paused := false }) }

/-- The playback's slots are ended or freed, nothing written and no CUE_COMPLETE sent (R76 step 5, R100, R101). -/
def dropSlots (s : State) (p : PbId) : State := { s with slots := withoutSlotsOf p s.slots }

/-- The state of a playback whose last slot has ended: EMPTY when the slot is a RELEASE, the look is 0, the back stack empty
and the follow idle; else SETTLED (R64). -/
def afterLastSlot (kind : SlotKind) (x : Playback) : PbState :=
  if kind = .release ∧ x.look.isEmpty ∧ x.back.isEmpty ∧ x.follow.isNone then .empty else .settled

/-- The end of a slot at a fade step (R96): targets written, slot freed, CUE_COMPLETE for a CUE or BACK slot, and the
playback's state when no slot of it is left. -/
def endSlot (s : State) (sl : Slot) : State :=
  let p := sl.playback
  let s := s.setPb p { s.pb p with look := sl.moves.foldl (fun l m => l.write m.channel m.target) (s.pb p).look }
  let s := { s with slots := s.slots.filter (fun x => x.number ≠ sl.number) }
  let s :=
    if sl.kind = .release then s
    else s.report 0xE0 false
      (b1 (num p) ++ b1 sl.kind.code ++ b2 (sl.cue.getD 0) ++ b1 sl.number ++ b4 sl.elapsed ++ b2 sl.moves.length)
  if (s.slotsOf p).isEmpty then s.setPb p { s.pb p with state := afterLastSlot sl.kind (s.pb p) } else s

/-- One slot advanced by a fade step (R94). -/
def advanceSlot (s : State) (n : Nat) : State :=
  match s.slots.find? (fun sl => sl.number = n) with
  | none => s
  | some old =>
    if old.paused then s
    else
      let sl := { old with elapsed := old.elapsed + 1 }
      let p := sl.playback
      let s := { s with slots := s.slots.map (fun (x : Slot) => if x.number = n then sl else x) }
      let s := s.setPb p { s.pb p with look := sl.writeLook sl.elapsed (s.pb p).look }
      if sl.finish ≤ sl.elapsed then s.endSlot sl else s

/-- A fade step: while the engine is NORMAL, each unpaused slot in ascending number (R94, R96). -/
def fadeStep (s : State) : State :=
  if s.sup.halted then s else (s.slots.map (·.number)).foldl advanceSlot s

end State

end Sys2Proof.Machine
end

