-- ==== Sys2Proof/Machine/Standby.lean ====
section
/-! DEFINITION. The successor, the standby and its fetch, GO with its capacity tests, back entries and endings, and the
results of input actions (R46 to R57, R62, R66 to R72, R82). -/

namespace Sys2Proof.Machine

/-! ### Moves and back entries -/

/-- A number put in its place in a rising list, once. -/
def insertNat (n : Nat) : List Nat → List Nat
  | [] => [n]
  | x :: rest => if n < x then n :: x :: rest else if n = x then x :: rest else x :: insertNat n rest

/-- The channels held by the moves of a playback's slots. -/
def heldChannels (p : PbId) (slots : List Slot) : List Nat :=
  (slots.filter (fun sl => sl.playback = p)).flatMap (fun sl => sl.moves.map (·.channel))

/-- The channels of a playback that are above 0 or held by a move, rising (R68, R76). -/
def litOrHeld (p : PbId) (look : Look) (slots : List Slot) : List Nat :=
  (heldChannels p slots).foldl (fun l c => insertNat c l) (look.map (·.1))

/-- The channels the slot of a cue moves: those it names, and for a block cue also every other channel of the playback
that is above 0 or held by a move (R68). -/
def cueChannels (p : PbId) (look : Look) (slots : List Slot) (c : Cue) : List Nat :=
  if c.block then c.levels.foldl (fun l e => insertNat e.1 l) (litOrHeld p look slots) else c.levels.map (·.1)

/-- The moves of a CUE slot: from the look to the cue's level, or to 0 where the cue names none (R68). -/
def cueMoves (p : PbId) (look : Look) (slots : List Slot) (c : Cue) : List Move :=
  (cueChannels p look slots c).map (fun ch =>
    { channel := ch, start := look.level ch, target := (Assoc.find c.levels ch).getD 0 })

/-- The moves of a BACK slot: from the look to each prior level (R73). -/
def backMoves (look : Look) (levels : List (Nat × Nat)) : List Move :=
  levels.map (fun e => { channel := e.1, start := look.level e.1, target := e.2 })

/-- The moves of a RELEASE slot: to 0 on every channel above 0 or held by a move (R76). -/
def releaseMoves (p : PbId) (look : Look) (slots : List Slot) : List Move :=
  (litOrHeld p look slots).map (fun ch => { channel := ch, start := look.level ch, target := 0 })

/-- The prior levels of a back stack. -/
def stackUse (stack : List BackEntry) : Nat := (stack.map (fun e => e.levels.length)).sum

/-- The oldest entries are dropped, one at a time, until the room suffices or the stack is empty; the stack is given
oldest first, with the free room (R69 step 2). -/
def makeRoom (need : Nat) : Nat → List BackEntry → Nat × List BackEntry
  | room, [] => (room, [])
  | room, e :: rest => if need ≤ room then (room, e :: rest) else makeRoom need (room + e.levels.length) rest

/-- A push onto a back stack, with "back kept"; others is what the other stacks hold of the back pool (R69). -/
def pushBack (stack : List BackEntry) (others : Nat) (e : BackEntry) : List BackEntry × Bool :=
  let stack := if Config.backStack ≤ stack.length then stack.dropLast else stack
  let roomed := makeRoom e.levels.length (Config.backPool - (others + stackUse stack)) stack.reverse
  if e.levels.length ≤ roomed.1 then (e :: roomed.2.reverse, true) else ([], false)

/-- The times of a CUE slot: the cue's, an override replacing the up and the down time (R68). -/
def cueTimes (c : Cue) (override : Option Nat) : SlotTimes :=
  { up := override.getD c.up, down := override.getD (c.down.getD c.up), upDelay := c.upDelay, downDelay := c.downDelay }

/-- The state and number by which R62 compares a standby. -/
def Standby.code : Standby → Nat
  | .none => 0
  | .ready .. => 1
  | .bad .. => 2
  | .missing .. => 3
  | .fetching .. => 4

def Standby.number : Standby → Nat
  | .none => 0
  | .ready _ _ _ c => c.number
  | .bad n _ => n
  | .missing n _ => n
  | .fetching n _ => n

def Standby.source : Standby → Nat
  | .none => 0
  | .ready _ _ s _ => s.code
  | .bad _ s => s.code
  | .missing _ s => s.code
  | .fetching _ s => s.code

/-- The fields of a READY standby in STANDBY_CHANGED (R62). -/
def Standby.cueFields : Standby → List Byte
  | .ready _ _ _ c => bText c.label ++ b2 c.up ++ bOpt c.down ++ bOpt c.follow ++ bBool c.block ++ b2 c.levels.length
  | _ => []

namespace State

/-- Prior levels held by all four back stacks (R69). -/
def backUse (s : State) : Nat := (s.eng.pb.toList.map (fun x => stackUse x.back)).sum

/-! ### The results of input actions -/

/-- The result of an input's action: it replaces the last result, sends INPUT_ACTION, and a refusal other than CANCELLED
or HALTED raises INPUT_REFUSED (R82). -/
def inputResult (s : State) (i : Fin 4) (p : PbId) (a : InputCommand) (r : InputResult) (cue : Nat) : State :=
  let s := { s with inputs := s.inputs.set i { s.inputs.get i with last := some (a, r) } }
  let s := s.report 0xED false (b1 (num i) ++ b1 a.code ++ b1 (num p) ++ b1 r.code ++ b1 r.status ++ b2 cue)
  match r with
  | .refused st =>
    if st = .cancelled ∨ st = .halted then s
    else s.raise { s.fault .inputRefused false st.code with playback := some p }
  | _ => s

/-! ### Fetches -/

/-- The list a playback plays, as the projected active bank has it; empty with no active bank (R46). -/
def playList (s : State) (p : PbId) : Assoc DirCue :=
  match s.bank.active with
  | some b => (s.proj b).dir.get p
  | none => []

/-- The successor of a playback and its source (R50). -/
def successor (s : State) (p : PbId) : Option (Nat × Source) :=
  if s.bank.active.isNone then none
  else match (s.pb p).explicit, (s.pb p).lastRun with
    | some n, _ => some (n, .explicit)
    | none, some { number := _, link := some n } => some (n, .link)
    | none, some { number := n, link := none } => ((s.playList p).find? (fun e => n < e.1)).map (fun e => (e.1, .order))
    | none, none => (s.playList p).head?.map (fun e => (e.1, .first))

/-- STANDBY_CHANGED of a playback (R62). -/
def standbyChanged (s : State) (p : PbId) : State :=
  let y := (s.pb p).standby
  s.report 0xE1 false (b1 (num p) ++ b1 y.code ++ b2 y.number ++ b1 y.source ++ y.cueFields)

/-- A fetch ends at once in NONE or MISSING: reported unless the standby was already there before the fetch (R62). -/
def endAtOnce (s : State) (p : PbId) (before now : Standby) : State :=
  let s := s.setPb p { s.pb p with standby := now }
  if before.code = now.code ∧ before.number = now.number then s else s.standbyChanged p

/-- An outcome is taken: the standby is set, the fetch in hand is empty, the report is sent (R55, R62). -/
def takeStandby (s : State) (p : PbId) (now : Standby) : State :=
  (s.setPb p { s.pb p with standby := now, fetch := none }).standbyChanged p

/-- The fetch in hand is dropped: its waiting claim is withdrawn, and the outcome of one already granted is no longer
wanted (R9, R56). -/
def dropFetch (s : State) (p : PbId) : State :=
  let op := match s.ctl.op with
    | some (.fetch q f w) => some (.fetch q f (if q = p then false else w))
    | o => o
  ({ s with ctl := { s.ctl with op := op, fetches := s.ctl.fetches.set p none } }).setPb p
    { s.pb p with fetch := none }

/-- A fetch is started (R54), without the handing of its end to a pending GO. -/
def startFetchCore (s : State) (p : PbId) : State :=
  let before := (s.pb p).standby
  let s := s.dropFetch p
  match s.bank.active, s.successor p with
  | some b, some (n, src) =>
    if (src = .explicit ∨ src = .link) ∧ (Assoc.find (s.playList p) n).isNone then s.endAtOnce p before (.missing n src)
    else match s.cueAnswer b p n with
      | .ready c => s.takeStandby p (.ready b p src c)
      | .notFound => s.takeStandby p (.missing n src)
      | .readPort =>
        let f : Fetch := { bank := b, list := p, number := n, source := src }
        let s := { s with ctl := { s.ctl with fetches := s.ctl.fetches.set p (some f) } }
        s.setPb p { s.pb p with standby := .fetching n src, fetch := some f }
  | _, _ => s.endAtOnce p before .none

/-! ### GO -/

/-- A GO ends without being taken: what its source does with the status (R66, R67, R72, R82). -/
def endGo (s : State) (p : PbId) (src : GoSource) (st : Status) : State :=
  match src with
  | .port q => s.answer q st []
  | .input i => s.inputResult i p .go (.refused st) 0
  | .follow =>
    if st = .noSlot ∨ st = .poolFull then
      s.raise { s.fault .followRefused false st.code with playback := some p }
    else if st = .notFound then
      s.raise { s.fault .followMissing false (s.pb p).standby.number with playback := some p }
    else s

/-- The reply of a GO taken (R70 step 8); the playback takes the 2 bytes of R164, as R70 marks no width for it (log 13), and
"back kept", which R70 gives 1 byte and no code, is 1 for yes and 0 for no (the model's choice, log 52). -/
def goReply (s : State) (p : PbId) (src : GoSource) (override : Option Nat) (adjusted : Bool) (cue slot : Nat)
    (kept : Bool) : State :=
  match src with
  | .port q => s.answer q (okOr adjusted) (b2 (num p) ++ b2 cue ++ b1 slot ++ bBool kept ++ bOpt override)
  | _ => s

/-- The INPUT_ACTION of a GO taken from an input (R70, R82). -/
def goAction (s : State) (p : PbId) (src : GoSource) (cue : Nat) : State :=
  match src with
  | .input i => s.inputResult i p .go .taken cue
  | _ => s

/-- A GO on a READY standby: refused by R68, or taken in the order of R70. The code of "back kept" in CUE_TAKEN is the model's
choice, as in the reply (log 52). -/
def goTake (s : State) (p : PbId) (src : GoSource) (override : Option Nat) (adjusted : Bool) (c : Cue) : State :=
  let x := s.pb p
  let moves := cueMoves p x.look s.slots c
  match slotRefusal p moves s.slots with
  | some st => s.endGo p src st
  | none =>
    let pushed := pushBack x.back (s.backUse - stackUse x.back)
      { cue := c.number, levels := moves.map (fun m => (m.channel, m.start)) }
    let s := s.setPb p { x with follow := none, back := pushed.1 }
    let s := if x.state = .held then s.unhold p else s
    let t := cueTimes c override
    let sl := s.newSlot p .cue (some c.number) t moves
    let s := s.createSlot sl
    let s := s.setPb p { s.pb p with
      state := .running, lastRun := some { number := c.number, link := c.link }, explicit := none,
      follow := c.follow.map (fun n => { steps := n * 10, paused := false, due := false }) }
    let s := s.goReply p src override adjusted c.number sl.number pushed.2
    let s := s.report 0xEF false (b2 (num p) ++ b2 c.number ++ b1 src.code ++ b1 src.inputNo ++ b1 sl.number
      ++ bBool pushed.2 ++ b2 t.up ++ b2 t.down)
    let s := s.goAction p src c.number
    s.startFetchCore p

/-- A pending GO is handed the standby state a fetch ended in (R57). -/
def handPending (s : State) (p : PbId) : State :=
  match (s.pb p).pendingGo with
  | none => s
  | some g =>
    let t := s.setPb p { s.pb p with pendingGo := none }
    match (s.pb p).standby with
    | .fetching .. => s
    | .ready _ _ _ c => t.goTake p g.source g.override g.adjusted c
    | .bad .. => t.endGo p g.source .checkFailed
    | .missing .. => t.endGo p g.source .notFound
    | .none => t.endGo p g.source .endOfList

/-- A fetch is started, and a GO pending on it is handed its end when it ends at once (R54, R57). -/
def startFetch (s : State) (p : PbId) : State := (s.startFetchCore p).handPending p

/-- A pending GO is ended with a status, CANCELLED or HALTED (R67). -/
def endPending (s : State) (p : PbId) (st : Status) : State :=
  match (s.pb p).pendingGo with
  | none => s
  | some g => (s.setPb p { s.pb p with pendingGo := none }).endGo p g.source st

/-- The GO becomes the pending GO (R67); an input reports it PENDING (R82). -/
def makePending (s : State) (p : PbId) (src : GoSource) (override : Option Nat) (adjusted : Bool) : State :=
  let s := s.setPb p { s.pb p with pendingGo := some { source := src, override := override, adjusted := adjusted } }
  match src with
  | .input i => s.inputResult i p .go .pending 0
  | _ => s

/-- GO from any source: the state checks of R66 in order. -/
def goCommand (s : State) (p : PbId) (src : GoSource) (override : Option Nat) (adjusted : Bool) : State :=
  if s.bank.active.isNone then s.endGo p src .noShow
  else match (s.pb p).standby with
    | .none => s.endGo p src .endOfList
    | .missing .. => s.endGo p src .notFound
    | .bad .. => s.endGo p src .checkFailed
    | .fetching .. =>
      if (s.pb p).pendingGo.isSome then s.endGo p src .goPending else s.makePending p src override adjusted
    | .ready _ _ _ c =>
      if (s.pb p).pendingGo.isSome then s.endGo p src .goPending else s.goTake p src override adjusted c

/-- The outcome of the fetch in hand, as it is taken (R55, R57); none is CHECK_FAILED. -/
def takeOutcome (s : State) (p : PbId) (f : Fetch) (record : Option Cue) : State :=
  match record with
  | some c => (s.takeStandby p (.ready f.bank f.list f.source c)).handPending p
  | none =>
    let s := s.raise { s.fault .standbyCheck true f.number with playback := some p, bank := some f.bank }
    (s.takeStandby p (.bad f.number f.source)).handPending p

end State

end Sys2Proof.Machine
end

