-- ==== Sys2Proof/Machine/Playbacks.lean ====
section
/-! DEFINITION. The playback commands from any source, and the playback and master requests: RECORD, GO, BACK, HOLD, RESUME,
JUMP, RELEASE, MASTER (R61, R66, R73 to R78), with the steps of follow timers and fades (R71, R72, R94). -/

namespace Sys2Proof.Machine

/-- What a BACK hands to its reply (R73). -/
structure BackTaken where
  cue : Nat
  slot : Nat
  depth : Nat
deriving DecidableEq, Repr

/-- One count of a follow timer: it expires at 0 steps, or as they reach 0; it is due until the expiry is taken (R71). -/
def FollowTimer.count (f : FollowTimer) : FollowTimer :=
  if f.paused ∨ f.due then f else { f with steps := f.steps - 1, due := f.steps ≤ 1 }

namespace State

/-! ### Commands from any source -/

/-- BACK from any source: its refusal, or the state with what the reply carries (R73). -/
def backCommand (s : State) (p : PbId) : Except Status (State × BackTaken) :=
  let x := s.pb p
  match x.back with
  | [] => .error .noBack
  | top :: rest =>
    if x.pendingGo.isSome then .error .goPending
    else
      let moves := backMoves x.look top.levels
      match slotRefusal p moves s.slots with
      | some st => .error st
      | none =>
        let s := s.setPb p { x with back := rest, follow := none }
        let s := if x.state = .held then s.unhold p else s
        let sl := s.newSlot p .back (some top.cue)
          { up := s.eng.backTime, down := s.eng.backTime, upDelay := 0, downDelay := 0 } moves
        let s := s.createSlot sl
        let s := s.setPb p { s.pb p with state := .running, explicit := some top.cue }
        .ok (s.startFetch p, { cue := top.cue, slot := sl.number, depth := rest.length })

/-- HOLD from any source (R74). -/
def holdCommand (s : State) (p : PbId) : Except Status State :=
  match (s.pb p).state with
  | .running => .ok (s.enterHeld p)
  | .settled => if (s.pb p).follow.isSome then .ok (s.enterHeld p) else .error .idlePlayback
  | .empty => .error .idlePlayback
  | .held => .ok s

/-- RESUME from any source (R75). -/
def resumeCommand (s : State) (p : PbId) : Except Status State :=
  if (s.pb p).state = .held then
    let s := s.unhold p
    .ok (s.setPb p { s.pb p with state := if (s.slotsOf p).isEmpty then .settled else .running })
  else .error .idlePlayback

/-- RELEASE: the reply of its step 8 and the fetch of its step 9, after the sequence is cleared (R76). -/
def releaseReply (s : State) (q : Requester) (p : PbId) (slot time : Nat) (adjusted : Bool) : State :=
  let s := s.setPb p { s.pb p with lastRun := none, explicit := none }
  (s.answer q (okOr adjusted) (b1 (num p) ++ b2 slot ++ b2 time)).startFetch p

/-- RELEASE on a playback that is not EMPTY and passes the tests of R68 (R76 steps 1 to 9). Its step 5 frees each older slot
of the playback, those without moves among them, which R90's takeover alone would leave (log 45). -/
def releaseSlot (s : State) (q : Requester) (p : PbId) (time : Nat) (adjusted : Bool) (moves : List Move) : State :=
  let s := s.endPending p .cancelled
  let x := s.pb p
  let s := s.setPb p { x with follow := none, back := [] }
  let s := if x.state = .held then s.unhold p else s
  let s := s.dropSlots p
  let sl := s.newSlot p .release none { up := time, down := time, upDelay := 0, downDelay := 0 } moves
  let s := s.createSlot sl
  let s := s.setPb p { s.pb p with state := .running }
  s.releaseReply q p sl.number time adjusted

/-- RELEASE (R76). -/
def releaseCommand (s : State) (q : Requester) (p : PbId) (time : Nat) (adjusted : Bool) : State :=
  if (s.pb p).state = .empty then (s.endPending p .cancelled).releaseReply q p 0 time adjusted
  else
    let moves := releaseMoves p (s.pb p).look s.slots
    match releaseRefusal p moves s.slots with
    | some st => s.answer q st []
    | none => s.releaseSlot q p time adjusted moves

/-- A master level is set; target 0 is the grand master (R78). -/
def setMaster (s : State) (target level : Nat) : State :=
  match idx4 target with
  | some p => s.setPb p { s.pb p with master := level }
  | none => { s with merge := { s.merge with grand := level } }

/-! ### The work of the requests -/

/-- The cue RECORD builds from a look (R77). -/
def recordedCue (a : RecordArgs) (look : Look) : Cue :=
  { number := a.number, label := a.label, up := a.up, down := a.down, upDelay := 0, downDelay := 0, follow := none,
    link := none, block := true, levels := look }

def recordWork (s : State) (q : Requester) (a : RecordArgs) : State :=
  match s.bank.active with
  | none => s.answer q .noShow []
  | some b =>
    let c := recordedCue a (s.pb a.playback).look
    match (s.proj b).capacity a.playback c with
    | some st => s.answer q st []
    | none =>
      if s.queueFull then s.answer q .storeBusy []
      else s.enqueue { kind := .cueWrite a.playback c, bank := some b, req := q, status := .ok, doomed := none }

def goWork (s : State) (q : Requester) (a : PbId × Option Nat × Bool) : State :=
  s.goCommand a.1 (.port q) a.2.1 a.2.2

def backWork (s : State) (q : Requester) (p : PbId) : State :=
  match s.backCommand p with
  | .error st => s.answer q st []
  | .ok (t, r) => t.answer q .ok (b1 (num p) ++ b2 r.cue ++ b2 r.slot ++ b2 r.depth)

/-- HOLD's reply; the new state has the codes of R83 (R74; logs 13 and 54). -/
def holdWork (s : State) (q : Requester) (p : PbId) : State :=
  match s.holdCommand p with
  | .error st => s.answer q st []
  | .ok t =>
    t.answer q .ok (b1 (num p) ++ b2 (t.pb p).state.code ++ b2 (t.slotsOf p).length
      ++ bOpt ((t.pb p).follow.map (·.steps)))

/-- RESUME's reply; the new state has the codes of R83 (R75; logs 13 and 54). -/
def resumeWork (s : State) (q : Requester) (p : PbId) : State :=
  match s.resumeCommand p with
  | .error st => s.answer q st []
  | .ok t => t.answer q .ok (b1 (num p) ++ b2 (t.pb p).state.code)

/-- JUMP (R61). -/
def jumpWork (s : State) (q : Requester) (a : PbId × Nat) : State :=
  let p := a.1
  if s.bank.active.isNone then s.answer q .noShow []
  else if (s.pb p).pendingGo.isSome then s.answer q .goPending []
  else if (Assoc.find (s.playList p) a.2).isNone then s.answer q .notFound []
  else
    let s := (s.setPb p { s.pb p with explicit := some a.2 }).startFetch p
    s.answer q .ok (b1 (num p) ++ b2 a.2)

def releaseWork (s : State) (q : Requester) (a : PbId × Nat × Bool) : State :=
  s.releaseCommand q a.1 a.2.1 a.2.2

def masterWork (s : State) (q : Requester) (a : Nat × Nat × Bool) : State :=
  (s.setMaster a.1 a.2.1).answer q (okOr a.2.2) (b1 a.1 ++ b2 a.2.1)

/-- One count of every follow timer, while the engine is NORMAL (R71, R84). -/
def countFollows (s : State) : State :=
  if s.sup.halted then s
  else { s with eng := { s.eng with pb := s.eng.pb.map (fun x => { x with follow := x.follow.map FollowTimer.count }) } }

/-- A follow timer that is due expires and acts as a GO; it is idle from then on (R72). -/
def expireFollow (s : State) (p : PbId) : State :=
  match (s.pb p).follow with
  | some f =>
    if f.due ∧ s.sup.halted = false then
      ((s.setPb p { s.pb p with follow := none }).goCommand p .follow none false).settle
    else s
  | none => s

end State

/-! ### The meanings -/

/-- RECORD (R77). -/
def execRecord (port : PortId) (s : State) : Host.Outcome State Fault Refusal :=
  .next (s.takeStoreRequest port 0x28 parseRecord State.recordWork)

/-- GO (R66 to R70). -/
def execGo (port : PortId) (s : State) : Host.Outcome State Fault Refusal :=
  .next (s.takeStoreRequest port 0x30 parseGo State.goWork)

/-- BACK (R73). -/
def execBack (port : PortId) (s : State) : Host.Outcome State Fault Refusal :=
  .next (s.takeStoreRequest port 0x31 parsePlayback State.backWork)

/-- HOLD (R74). -/
def execHold (port : PortId) (s : State) : Host.Outcome State Fault Refusal :=
  .next (s.takeRequest port 0x32 parsePlayback State.holdWork)

/-- RESUME (R75). -/
def execResume (port : PortId) (s : State) : Host.Outcome State Fault Refusal :=
  .next (s.takeRequest port 0x33 parsePlayback State.resumeWork)

/-- JUMP (R61). -/
def execJump (port : PortId) (s : State) : Host.Outcome State Fault Refusal :=
  .next (s.takeStoreRequest port 0x34 parseJump State.jumpWork)

/-- RELEASE (R76). -/
def execRelease (port : PortId) (s : State) : Host.Outcome State Fault Refusal :=
  .next (s.takeStoreRequest port 0x35 parseRelease State.releaseWork)

/-- MASTER (R78). -/
def execMaster (port : PortId) (s : State) : Host.Outcome State Fault Refusal :=
  .next (s.takeRequest port 0x36 parseMaster State.masterWork)

/-- FADE_STEP (R94). -/
def execFadeStep (s : State) : Host.Outcome State Fault Refusal := .next s.fadeStep.pump

/-- FOLLOW_TIMER_COUNT (R71). -/
def execFollowTimerCount (s : State) : Host.Outcome State Fault Refusal := .next s.countFollows

/-- FOLLOW_EXPIRY (R72); a playback the part does not have has no timer (log 33). -/
def execFollowExpiry (playback : Nat) (s : State) : Host.Outcome State Fault Refusal :=
  match idx4 playback with
  | none => .next s
  | some p => .next (s.expireFollow p)

end Sys2Proof.Machine
end

