-- ==== Sys2Proof/Machine/Supervisor.lean ====
section
/-! DEFINITION. The Supervisor and the blend: show time, the loss policy, engine faults and HALTED, the fault record (R84,
R156, R174, R175, R180 to R187). -/

namespace Sys2Proof.Machine

/-- The blend factor after one blend step toward its target; the safe-fade time is in tenths of a second (R182). -/
def moveBlend (safeFade blend target : Nat) : Nat :=
  let n := safeFade * 10
  let step := (1000 + n - 1) / n
  if n = 0 then target
  else if blend < target then min target (blend + step)
  else max target (blend - step)

/-- The fields of a fault in ENGINE_FAULT and FAULT_RECORD_READ (R186, R187). -/
def EngineFault.fields (f : EngineFault) : List Byte :=
  b1 f.kind.code ++ bBool f.critical ++ b2 f.value ++ b1 ((f.playback.map num).getD 0) ++ b2 (f.cue.getD 0)
    ++ b1 (bankCode f.bank) ++ b1 (f.stage.getD 255) ++ b4 f.time

namespace State

/-! ### Show time and silence -/

/-- The show time rises by one, from 4,294,967,295 to 0 (R184); a silence grows a step longer (R175; log 36). -/
def tick (s : State) : State :=
  let s := { s with sup := { s.sup with showTime := (s.sup.showTime + 1) % 4294967296 } }
  if s.link.silent then { s with link := { s.link with silence := raiseCount32 s.link.silence } } else s

/-- FREEZE on one playback: RUNNING, or SETTLED with its follow timer running, enters HELD (R180). -/
def freeze (s : State) (p : PbId) : State :=
  if (s.pb p).state = .running ∨ ((s.pb p).state = .settled ∧ (s.pb p).follow.isSome) then s.enterHeld p else s

/-- The loss policy is applied once, as it stands (R180). -/
def applyLoss (s : State) : State :=
  let s := { s with sup := { s.sup with loss := some s.sup.policy } }
  match s.sup.policy with
  | .continue_ => s
  | .freeze => four.foldl freeze s
  | .safe =>
    let s := four.foldl freeze s
    { s with outp := { s.outp with target := 1000 } }

/-- The silence timer expires (R175); it runs on the leader while the link is LINKED and the limit above 0 (R174). -/
def goSilent (s : State) : State :=
  if s.isLeader ∧ s.link.timer ∧ s.link.silent = false then
    let s := { s with link := { s.link with silent := true, timer := false, silence := 0 } }
    let s := s.report 0xEB true (b1 s.link.limit ++ b4 s.link.lastFrame ++ b1 (policyCode s.sup.policy))
    s.applyLoss.pump
  else s

/-! ### The blend -/

/-- One blend step (R182). -/
def stepBlend (s : State) : State :=
  { s with outp := { s.outp with blend := moveBlend s.outp.safeFade s.outp.blend s.outp.target } }

/-! ### Engine faults -/

/-- The engine enters HALTED: pending GOs are answered HALTED, those of playbacks 1 to 4 in that order (log 48); slots and
follow timers stand still from now on (R84, R99, R186). -/
def enterHalted (s : State) : State :=
  four.foldl (fun t p => t.endPending p .halted) { s with sup := { s.sup with halted := true } }

/-- The Supervisor takes one fault: its report, the record, the halt (R186). The two kinds in the HALTED report take the
1 byte that step 1 of R186 marks for the kind, though step 3 marks none (the model's choice, log 13). -/
def takeFault (s : State) (f : EngineFault) : State :=
  let before := s.sup.record
  let halts := f.critical && (before.map (·.critical)).getD false && !s.sup.halted
  let s := s.report 0xE2 true (f.fields ++ bBool before.isNone)
  let s := { s with sup := { s.sup with record := before.or (some f) } }
  if halts then
    s.enterHalted.report 0xE3 true (b1 f.kind.code ++ b2 f.value ++ b1 ((before.map (·.kind.code)).getD 0)
      ++ b4 ((before.map (·.time)).getD 0))
  else s

/-- The raised fault at a place is taken, on the leader (R186; logs 4 and 30). -/
def takeRaised (s : State) (place : Nat) : State :=
  if s.isLeader then
    match s.sup.raised[place]? with
    | none => s
    | some f => (({ s with sup := { s.sup with raised := s.sup.raised.eraseIdx place } }).takeFault f).pump
  else s

/-! ### The work of the requests -/

/-- FAULT_RECORD_READ (R187); present is 1 where the record is not empty (log 52). -/
def faultRecordReadWork (s : State) (q : Requester) (_ : Unit) : State :=
  s.answer q .ok (bBool s.sup.halted ++ b1 (lossCode s.sup.loss) ++ bBool s.sup.record.isSome
    ++ (s.sup.record.map EngineFault.fields).getD [])

/-- FAULT_ACK (R187). -/
def faultAckWork (s : State) (q : Requester) (_ : Unit) : State :=
  let f : Option EngineFault := s.sup.record
  ({ s with sup := { s.sup with record := none } }).answer q .ok
    (b1 ((f.map (fun x : EngineFault => x.kind.code)).getD 0) ++ bBool ((f.map EngineFault.critical).getD false) ++ bBool s.sup.halted)

/-- LOSS_CLEAR (R181). -/
def lossClearWork (s : State) (q : Requester) (_ : Unit) : State :=
  ({ s with sup := { s.sup with loss := none }, outp := { s.outp with target := 0 } }).answer q .ok
    (b1 (lossCode s.sup.loss) ++ b2 s.outp.blend ++ b2 0)

end State

/-! ### The meanings -/

/-- SHOW_TIME_TICK (R184). -/
def execShowTimeTick (s : State) : Host.Outcome State Fault Refusal := .next s.tick

/-- CONSOLE_SILENT (R175). -/
def execConsoleSilent (s : State) : Host.Outcome State Fault Refusal := .next s.goSilent

/-- FAULT_RECORD_READ (R187). -/
def execFaultRecordRead (port : PortId) (s : State) : Host.Outcome State Fault Refusal :=
  .next (s.takeRequest port 0x0D parseNone State.faultRecordReadWork)

/-- FAULT_ACK (R187). -/
def execFaultAck (port : PortId) (s : State) : Host.Outcome State Fault Refusal :=
  .next (s.takeRequest port 0x49 parseNone State.faultAckWork)

/-- LOSS_CLEAR (R181). -/
def execLossClear (port : PortId) (s : State) : Host.Outcome State Fault Refusal :=
  .next (s.takeRequest port 0x5D parseNone State.lossClearWork)

/-- BLEND_STEP (R182): the leader's blend timer. -/
def execBlendStep (s : State) : Host.Outcome State Fault Refusal :=
  .next (if s.isFollower then s else s.stepBlend)

/-- FOLLOWER_BLEND_STEP (R156): a follower's own blend timer. -/
def execFollowerBlendStep (s : State) : Host.Outcome State Fault Refusal :=
  .next (if s.isFollower then s.stepBlend else s)

/-- ENGINE_FAULT (R186). -/
def execEngineFault (place : Nat) (s : State) : Host.Outcome State Fault Refusal := .next (s.takeRaised place)

end Sys2Proof.Machine
end

