-- ==== Sys2Proof/Machine/Changeover.lean ====
section
/-! DEFINITION. The Bank Controller: starting, loading, waiting for dark, the commit and the ends without a commit, the
start-up decision, and RESTART (R85, R86, R113, R115 to R128, R188). -/

namespace Sys2Proof.Machine

/-- The console's CHANGEOVER request that a reply is owed to. -/
def changeoverReq (tag : Byte) : Requester := { port := .console, tag := tag, kind := 0x50 }

/-- The kind byte of SHOW_ACTIVE: 0 START-UP, 1 CUT, 2 DARK (R123). -/
def Change.kindCode (c : Change) : Nat := if c.owed.isNone then 0 else if c.dark then 2 else 1

/-- A changeover state as CHANGEOVER_CANCEL and STATUS code it (R125, R177). -/
def Change.stateCode (c : Change) : Nat := if c.waiting then 2 else 1

/-- The Patch Unit with its pending patch emptied (R32). -/
def PatchUnit.empty (u : PatchUnit) (follows : Option Bank) : PatchUnit :=
  { u with pending := [], pendingWindows := .empty, follows := follows }

/-- The Patch Unit after a commit: the pending patch is active, and the pending patch is empty (R32). -/
def PatchUnit.install (u : PatchUnit) : PatchUnit :=
  { u with active := u.pending, windows := u.pendingWindows, pending := [], pendingWindows := .empty, follows := none }

/-- An entry of the parks table in PARKS_RELEASED and LEVELS_READ (R113, R114). -/
def Park.fields (p : Park) : List Byte := b2 p.channel ++ b2 p.level ++ b1 (ownerCode p.owner)

namespace State

/-! ### Starting and ending a changeover -/

/-- A changeover is taken: R117 steps 1 to 3. -/
def startChangeover (s : State) (target : Bank) (dark : Bool) (owed : Option Byte) : State :=
  { s with
    bank := { s.bank with
      change := some { target := target, dark := dark, position := 1, owed := owed, waiting := false, darkSteps := 0 } },
    patch := s.patch.empty (some target),
    ctl := { s.ctl with loadClaim := some 1 } }

/-- A reply owed to the CHANGEOVER is produced (R120, R123, R125). -/
def answerOwed (s : State) (owed : Option Byte) (st : Status) (fields : List Byte) : State :=
  match owed with
  | some tag => s.answer (changeoverReq tag) st fields
  | none => s

/-- The end of a changeover without a commit: the waiting claim is withdrawn, the outcome of a granted load step is no
longer wanted, the pending patch is emptied, the record is cleared (R120, R125, R128). -/
def endChangeover (s : State) : State :=
  let op := match s.ctl.op with
    | some (.load b n _) => some (.load b n false)
    | o => o
  { s with
    ctl := { s.ctl with op := op, loadClaim := none },
    patch := s.patch.empty none,
    bank := { s.bank with change := none } }

/-- The fields of a CANCELLED CHANGEOVER and of CHANGEOVER_CANCEL: R125 marks 1 byte for the state alone. -/
def cancelFields (c : Change) : List Byte := b2 c.target.val ++ b1 c.stateCode ++ b2 c.position

/-- R125 steps 1 to 4. -/
def cancelChangeover (s : State) (c : Change) : State := s.endChangeover.answerOwed c.owed .cancelled (cancelFields c)

/-! ### The commit -/

/-- Standby fetches waiting for the port are withdrawn, and the outcome of a granted one is no longer wanted (R60). -/
def withdrawFetches (s : State) : State :=
  let op := match s.ctl.op with
    | some (.fetch p f _) => some (.fetch p f false)
    | o => o
  { s with ctl := { s.ctl with op := op, fetches := ⟨none, none, none, none⟩ } }

/-- A playback context at a commit, up to its fetch (R86 steps 1 to 7). -/
def commitPlayback (s : State) (p : PbId) : State :=
  let s := s.endPending p .cancelled
  let s := s.dropSlots p
  s.setPb p { s.pb p with
    follow := none, look := [], back := [], lastRun := none, explicit := none, state := .empty }

/-- The parks table is emptied and, if it held entries, PARKS_RELEASED is sent (R113). -/
def releaseParks (s : State) : State :=
  if s.merge.parks.isEmpty then s
  else
    let t := s.report 0xEE false (b1 s.merge.parks.length ++ s.merge.parks.flatMap Park.fields)
    { t with merge := { t.merge with parks := [] } }

/-- SHOW_ACTIVE (R123). -/
def showActive (s : State) (previous : Option Bank) (c : Change) : State :=
  s.report 0xF0 false (b1 c.target.val ++ b1 (bankCode previous) ++ b1 c.kindCode ++ bText (s.ram c.target).title
    ++ (s.proj c.target).dir.toList.flatMap (fun l => b2 l.length))

/-- The commit (R122): the steps of the rule in their order. -/
def commit (s : State) (c : Change) : State :=
  let previous := s.bank.active
  let released := s.merge.parks.length
  let s := { s with patch := s.patch.install }
  let s := { s with bank := { s.bank with active := some c.target, change := none } }
  let s := s.withdrawFetches
  let s := four.foldl commitPlayback s
  let s := s.releaseParks
  let s := s.showActive previous c
  let s := s.answerOwed c.owed .ok
    (b1 c.target.val ++ bBool c.dark ++ b1 (bankCode previous) ++ b1 released ++ b4 (if c.dark then c.darkSteps else 0))
  four.foldl startFetch s

/-- One dark check: the commit is taken when it passes (R121). -/
def darkCheck (s : State) (c : Change) : State := if s.isDark then s.commit c else s

/-- An expiry of the dark check timer in WAITING_DARK raises the dark steps, then the check is taken (R121). -/
def darkExpiry (s : State) : State :=
  match s.bank.change with
  | none => s
  | some c =>
    if c.waiting then
      let c := { c with darkSteps := raiseCount32 c.darkSteps }
      (({ s with bank := { s.bank with change := some c } }).darkCheck c).settle
    else s

/-! ### Loading -/

/-- A failed load step: R120 for a CHANGEOVER, R128 for the start-up changeover. -/
def failLoad (s : State) (c : Change) : State :=
  let t := s.endChangeover
  match c.owed with
  | some tag => t.answer (changeoverReq tag) .checkFailed (b1 c.target.val ++ b1 c.position)
  | none => t.raise { t.fault .patchCheck true c.target.val with bank := some c.target }

/-- What a load step of a position reads into the pending patch: a segment's 96 entries, or the windows item; none when
the check fails (R6, R32, R118). -/
def loadInto (s : State) (b : Bank) (position : Nat) : Option PatchUnit :=
  if position ≤ 24 then
    (s.storedSegment b position).map fun m =>
      { s.patch with pending := writePairs (segmentPairs position m) s.patch.pending }
  else (s.storedWindows b).map fun w => { s.patch with pendingWindows := w }

/-- A READY load step: the next claim, or the end of the loading with the commit or the entry to WAITING_DARK (R118). -/
def passLoad (s : State) (c : Change) (u : PatchUnit) : State :=
  let s := { s with patch := u }
  if c.position < 25 then
    { s with
      bank := { s.bank with change := some { c with position := c.position + 1 } },
      ctl := { s.ctl with loadClaim := some (c.position + 1) } }
  else if c.dark then
    let c := { c with waiting := true, darkSteps := 0 }
    ({ s with bank := { s.bank with change := some c } }).darkCheck c
  else s.commit c

/-- The outcome of a load step of a bank's position, as it is taken (R118). -/
def takeLoad (s : State) (b : Bank) (position : Nat) (passes : Bool) : State :=
  match s.bank.change with
  | none => s
  | some c =>
    match s.loadInto b position, passes with
    | some u, true => s.passLoad c u
    | _, _ => s.failLoad c

/-- A load step ends (R118); one no longer wanted is dropped. -/
def loadDone (s : State) (answer : StoreAnswer) : State :=
  match s.ctl.op, answer with
  | some (.load _ _ _), .busy => s
  | some (.load b n wanted), a =>
    let t := s.freePort
    (if wanted then t.takeLoad b n (a = .done true) else t).settle
  | _, _ => s

/-! ### The start-up decision -/

/-- The start-up decision (R127), once the role is LEADER and the start-up reads have ended. -/
def decideStartUp (s : State) : State :=
  if s.isLeader ∧ s.ctl.startUp.isNone ∧ s.bank.decided = false then
    let s := { s with bank := { s.bank with decided := true } }
    let s := if s.ctl.houseFailed then s.raise (s.fault .houseCheck false 0) else s
    match s.bank.resident with
    | none => s.settle
    | some b => if s.reportedBlank b then s.settle else (s.startChangeover b false none).settle
  else s

/-! ### RESTART -/

/-- A playback context at RESTART, up to its fetch (R85 steps 1 to 6). -/
def restartPlayback (s : State) (p : PbId) : State :=
  let s := s.endPending p .cancelled
  let s := s.dropSlots p
  let x := s.pb p
  s.setPb p { x with
    follow := none, back := [], lastRun := none, explicit := none,
    state := if x.look.isEmpty then .empty else .settled }

/-- Pending GOs over the four playbacks. -/
def pendingGos (s : State) : Nat := (s.eng.pb.toList.filter (fun x => x.pendingGo.isSome)).length

/-- RESTART (R188); the playback contexts are taken 1 to 4, each with its fetch before the next (R85; log 47). The code of
"whether a changeover was cancelled" is the model's choice (log 52). -/
def restartWork (s : State) (q : Requester) (_ : Unit) : State :=
  let halted := s.sup.halted
  let record : Option EngineFault := s.sup.record
  let change := s.bank.change
  let gos := s.pendingGos
  let s := { s with sup := { s.sup with record := none, halted := false } }
  let s := match change with
    | some c => s.cancelChangeover c
    | none => s
  let s := four.foldl (fun t p => (t.restartPlayback p).startFetch p) s
  s.answer q .ok (bBool halted ++ b1 ((record.map (fun f : EngineFault => f.kind.code)).getD 0) ++ bBool change.isSome
    ++ b1 gos)

/-! ### The work of the requests -/

/-- CHANGEOVER (R117). -/
def changeoverWork (s : State) (q : Requester) (a : Bank × Bool) : State :=
  if s.bank.change.isSome then s.answer q .inChangeover []
  else if s.reportedBlank a.1 then s.answer q .blank []
  else s.startChangeover a.1 a.2 (some q.tag)

/-- CHANGEOVER_CANCEL (R125). -/
def changeoverCancelWork (s : State) (q : Requester) (_ : Unit) : State :=
  match s.bank.change with
  | none => s.answer q .noChangeover []
  | some c => (s.cancelChangeover c).answer q .ok (cancelFields c)

end State

/-! ### The meanings -/

/-- START_UP_DECISION (R127). -/
def execStartUpDecision (s : State) : Host.Outcome State Fault Refusal := .next s.decideStartUp

/-- CHANGEOVER (R117). -/
def execChangeover (port : PortId) (s : State) : Host.Outcome State Fault Refusal :=
  .next (s.takeStoreRequest port 0x50 parseChangeover State.changeoverWork)

/-- CHANGEOVER_CANCEL (R125). -/
def execChangeoverCancel (port : PortId) (s : State) : Host.Outcome State Fault Refusal :=
  .next (s.takeRequest port 0x51 parseNone State.changeoverCancelWork)

/-- LOAD_STEP_DONE (R118). -/
def execLoadStepDone (answer : StoreAnswer) (s : State) : Host.Outcome State Fault Refusal := .next (s.loadDone answer)

/-- DARK_CHECK (R121). -/
def execDarkCheck (s : State) : Host.Outcome State Fault Refusal := .next s.darkExpiry

/-- RESTART (R188). -/
def execRestart (port : PortId) (s : State) : Host.Outcome State Fault Refusal :=
  .next (s.takeStoreRequest port 0x5E parseNone State.restartWork)

end Sys2Proof.Machine
end

