-- ==== Sys2Proof/Machine/Lines.lean ====
section
/-! DEFINITION. The Output Stage: line settings, level frames, returns, the rack monitor, circuit status and the circuit fault
table (R130 to R147). -/

namespace Sys2Proof.Machine

/-! ### Settings -/

/-- The clock period of a line in ms (R130). -/
def linePeriod (x : LineSettings) : Nat := if x.slow then 40 else 20

/-- A reset of a circuit's debounce keeps its condition (R141). -/
def Debounce.restart (d : Debounce) : Debounce := { d with candidate := none, run := 0 }

/-- A line with every circuit's debounce reset (R141). -/
def Line.restartDebounce (x : Line) : Line := { x with debounce := x.debounce.map Debounce.restart }

/-- The enabling of a line (R132): SEEKING, both runs 0, no rack model, the clock running. -/
def Line.enable (x : Line) (n : LineSettings) : Line :=
  { x with settings := some n, monitor := .seeking, goodRun := 0, badRun := 0, rack := none, clock := some (linePeriod n) }

/-- The disabling of a line (R132). -/
def Line.disable (x : Line) (n : LineSettings) : Line :=
  { x.restartDebounce with
    settings := some n, clock := none, monitor := .off, goodRun := 0, badRun := 0, rack := none, interval := false }

/-- Whether a line's settings in effect enable it. -/
def Line.isEnabled (x : Line) : Bool :=
  match x.settings with
  | some o => o.enabled
  | none => false

/-- New settings reach a line (R132). -/
def Line.take (x : Line) (n : LineSettings) : Line :=
  if x.isEnabled = false ∧ n.enabled then x.enable n
  else if x.isEnabled ∧ n.enabled = false then x.disable n
  else if x.isEnabled then { x with settings := some n, clock := some (linePeriod n) }
  else { x with settings := some n }

/-- A line is started with the settings it was handed (R130). -/
def Line.start (x : Line) : Line :=
  match x.settings with
  | some n => if n.enabled then x.enable n else x
  | none => x

/-! ### Levels -/

/-- A safe level as a 16-bit value (R135). -/
def safe16 (level : Nat) : Nat := level * 65535 / 1000

/-- The blend of a circuit level with its safe level (R135). -/
def blended (b level safe : Nat) : Nat := (level * (1000 - b) + safe16 safe * b) / 1000

/-! ### The rack monitor -/

/-- A return as it is classed (R138): good with model, circuit count and statuses, or bad. -/
inductive Return where
  | good (model count : Nat) (statuses : List CircuitStatus)
  | bad
deriving DecidableEq, Repr

/-- A status byte 0 to 4 (Table 8-2). -/
def circuitStatus? : Nat → Option CircuitStatus
  | 0 => some none
  | n => (faultKind? n).map some

/-- The statuses of a run of bytes, when every byte is 0 to 4. -/
def circuitStatuses? : List Byte → Option (List CircuitStatus)
  | [] => some []
  | x :: rest =>
    match circuitStatus? x.toNat, circuitStatuses? rest with
    | some a, some l => some (a :: l)
    | _, _ => none

/-- The classing of a return frame; the echo must be the sequence of the frame sent last (R138). -/
def classReturn (seq : Nat) (cleanLine : Bool) (b : List Byte) : Return :=
  let n := byteAt b 3
  if cleanLine ∧ byteAt b 0 = 0xA5 ∧ 1 ≤ n ∧ n ≤ 96 ∧ b.length = 4 + n + 2
      ∧ b.drop (4 + n) = crcBytes ((b.drop 1).take (3 + n)) ∧ byteAt b 1 = seq then
    match circuitStatuses? ((b.drop 4).take n) with
    | some l => .good (byteAt b 2) n l
    | none => .bad
  else .bad

/-- What a counted return makes of a line: the report it calls for. -/
inductive RackNews where
  | none
  | found
  | lost
  | changed (model count : Nat)
deriving DecidableEq, Repr

/-- A good return on the monitor; a return in LOCKED after it has its statuses taken (R139). -/
def Line.goodReturn (x : Line) (model count : Nat) : Line × RackNews :=
  let x := { x with badRun := 0 }
  match x.monitor with
  | .off => (x, .none)
  | .locked =>
    if x.rack = some (model, count) then (x, .none)
    else ({ x.restartDebounce with rack := some (model, count) },
      .changed (x.rack.getD (0, 0)).1 (x.rack.getD (0, 0)).2)
  | _ =>
    let run := if x.goodRun = 0 ∨ x.rack = some (model, count) then x.goodRun + 1 else 1
    if 8 ≤ run then
      ({ x.restartDebounce with goodRun := run, rack := some (model, count), monitor := .locked }, .found)
    else ({ x with goodRun := run, rack := some (model, count) }, .none)

/-- A bad or missing return on the monitor (R139). -/
def Line.badReturn (x : Line) : Line × RackNews :=
  let x := { x with goodRun := 0 }
  match x.monitor with
  | .locked =>
    if 5 ≤ x.badRun + 1 then ({ x.restartDebounce with badRun := x.badRun + 1, monitor := .lost }, .lost)
    else ({ x with badRun := x.badRun + 1 }, .none)
  | _ => (x, .none)

/-! ### Circuit status -/

/-- Step 1 of R141: the candidate and the run of one counted status. -/
def Debounce.count (d : Debounce) (st : CircuitStatus) : Debounce :=
  if d.candidate = some st then { d with run := min (d.run + 1) 4 } else { d with candidate := some st, run := 1 }

/-- Steps 2 and 3 of R141: the events a circuit at threshold makes, as kind and raise. -/
def Debounce.events (d : Debounce) : List (FaultKind × Bool) :=
  if d.run < 4 then []
  else match d.candidate, d.condition with
    | some (some k), none => [(k, true)]
    | some (some k), some j => if k = j then [] else [(j, false), (k, true)]
    | some none, some j => [(j, false)]
    | _, _ => []

/-- Step 4 of R141: the events have been handed over. -/
def Debounce.handOver (d : Debounce) : Debounce := { d with condition := d.candidate.getD none }

/-- The lamp check level (R142). -/
def lampLevel (threshold : Nat) : Nat := threshold * 65535 / 1000

/-- The line of a circuit on its stage (00_scope.md section 5). -/
def lineOfCircuit (k : Nat) : Nat := (k - 1) % 576 / 96 + 1

namespace State

/-- The stage a part holds, 0 on the leader (R143). -/
def ownStage (s : State) : Nat := if s.isFollower then s.cas.stage.getD 0 else 0

/-! ### The circuit fault table -/

/-- CIRCUIT_FAULT or CIRCUIT_CLEARED (R144); the first seen time when the event is tabled, whose byte is then 1 (log 52). -/
def circuitReport (s : State) (stage : Nat) (e : CircuitEvent) (seen : Option Nat) : State :=
  s.report (if e.raises then 0xE4 else 0xE5) e.raises
    (b2 e.circuit ++ b1 (faultKindCode e.kind) ++ b1 stage ++ b1 (lineOfCircuit e.circuit) ++ bBool seen.isSome
      ++ b4 (seen.getD 0) ++ b1 s.outp.faults.length)

/-- The entry of a circuit and kind. -/
def circuitEntry (s : State) (circuit : Nat) (kind : FaultKind) : Option CircuitFault :=
  s.outp.faults.find? (fun x => x.circuit = circuit && x.kind = kind)

/-- The table with the present flag of a circuit and kind set as given. -/
def markFault (s : State) (circuit : Nat) (kind : FaultKind) (present : Bool) : State :=
  { s with outp := { s.outp with
    faults := s.outp.faults.map (fun x => if x.circuit = circuit ∧ x.kind = kind then { x with present := present } else x) } }

/-- One event into the leader's circuit fault table, with its report (R144). -/
def tableEvent (s : State) (stage : Nat) (e : CircuitEvent) : State :=
  match s.circuitEntry e.circuit e.kind with
  | some x => (s.markFault e.circuit e.kind e.raises).circuitReport stage e (some x.firstSeen)
  | none =>
    if e.raises = false then s.circuitReport stage e none
    else if s.outp.faults.length < Config.circuitFaults then
      let x : CircuitFault :=
        { circuit := e.circuit, kind := e.kind, stage := stage, firstSeen := s.sup.showTime, present := true }
      ({ s with outp := { s.outp with faults := s.outp.faults ++ [x] } }).circuitReport stage e (some x.firstSeen)
    else
      ({ s with outp := { s.outp with notTabled := raiseCount 1 s.outp.notTabled } }).circuitReport stage e none

/-! ### Statuses -/

/-- The debounce of a slot (counted from 0) of a line. -/
def setDebounce (s : State) (l : Fin 6) (i : Nat) (d : Debounce) : State :=
  s.setLine l { s.line l with debounce := (s.line l).debounce.set i d }

/-- The events of a circuit are handed over: into the table on the leader, into the event queue of a follower that has
room for all of them; else the circuit stays at threshold (R143). -/
def handEvents (s : State) (l : Fin 6) (i : Nat) (d : Debounce) : State :=
  let es := d.events.map fun e =>
    { circuit := s.ownStage * 576 + l.val * 96 + i + 1, kind := e.1, raises := e.2 : CircuitEvent }
  if es.isEmpty then s.setDebounce l i d
  else if s.isFollower then
    if s.cas.events.length + es.length ≤ Config.circuitEvents then
      let s := s.setDebounce l i d.handOver
      { s with cas := { s.cas with events := s.cas.events ++ es } }
    else s.setDebounce l i d
  else es.foldl (fun t e => t.tableEvent 0 e) (s.setDebounce l i d.handOver)

/-- One status taken: set aside by the lamp check of R142, else counted (R141). -/
def takeStatus (s : State) (l : Fin 6) (i : Nat) (st : CircuitStatus) : State :=
  if st = some .noLoad ∧ (s.line l).live.getD i 0 < lampLevel s.outp.lamp then s
  else s.handEvents l i (((s.line l).debounce.getD i .reset).count st)

/-- The statuses of a good return (R141); they are taken from slot 1 up, where R141 gives no order (the model's choice,
log 56). -/
def takeStatuses (s : State) (l : Fin 6) (statuses : List CircuitStatus) : State :=
  (statuses.zipIdx).foldl (fun t e => t.takeStatus l e.2 e.1) s

/-! ### Returns -/

/-- The reports of R140 for a line of a stage. -/
def rackReport (s : State) (stage line : Nat) (rack : Nat × Nat) : RackNews → State
  | .none => s
  | .found => s.report 0xE6 false (b1 stage ++ b1 line ++ b1 rack.1 ++ b1 rack.2)
  | .lost => s.report 0xE7 true (b1 stage ++ b1 line ++ b1 rack.1 ++ b1 rack.2)
  | .changed m n => s.report 0xE8 false (b1 stage ++ b1 line ++ b1 rack.1 ++ b1 rack.2 ++ b1 m ++ b1 n)

/-- A line after a counted return, with the report it calls for (R139, R140). -/
def setRack (s : State) (l : Fin 6) (r : Line × RackNews) : State :=
  (s.setLine l r.1).rackReport 0 (l.val + 1) (r.1.rack.getD (0, 0)) r.2

/-- The interval of a line closes. -/
def closeInterval (s : State) (l : Fin 6) : State := s.setLine l { s.line l with interval := false }

/-- A return counted on its line's monitor; in LOCKED its statuses are taken (R139, R141). -/
def countReturn (s : State) (l : Fin 6) : Return → State
  | .bad => s.setRack l (s.line l).badReturn
  | .good model count statuses =>
    let s := s.setRack l ((s.line l).goodReturn model count)
    if (s.line l).monitor = .locked then s.takeStatuses l statuses else s

/-- A return frame: the first of an open interval is taken, any other discarded (R138). -/
def takeReturn (s : State) (l : Fin 6) (cleanLine : Bool) (bytes : List Byte) : State :=
  if (s.line l).interval then
    ((s.closeInterval l).countReturn l (classReturn (s.line l).seq cleanLine bytes)).pump
  else s

/-! ### Level frames -/

/-- The output level of a slot (counted from 0) of a line: on the leader from the Patch Unit, on a follower from its next
frame; blended unless the circuit is a house circuit (R133 to R135). -/
def outputLevel (s : State) (l : Fin 6) (i : Nat) : Nat :=
  let n := l.val * 96 + i + 1
  let level := if s.isFollower then (s.line l).next.getD i 0 else s.circuitLevel n
  let house := if s.isFollower then s.cas.house.contains n else (s.houseGroupOf n).isSome
  if house then level else blended s.outp.blend level ((Assoc.find s.outp.safeLook n).getD 0)

/-- The live frame as an expiry with the hold clear builds it (R133 step 2). -/
def liveFrame (s : State) (l : Fin 6) : List Nat := (List.range 96).map (fun i => s.outputLevel l i)

/-- An open interval at the expiry counts as a missing return, and closes (R133 step 1). -/
def missReturn (s : State) (l : Fin 6) : State :=
  if (s.line l).interval then (s.closeInterval l).countReturn l .bad else s

/-- Steps 2 to 5 of R133. -/
def sendLevels (s : State) (l : Fin 6) : State :=
  let x := s.line l
  let live := if x.hold then x.live else s.liveFrame l
  let seq := (x.seq + 1) % 256
  let wide := match x.settings with
    | some n => n.wide
    | none => false
  (s.setLine l { x with live := live, seq := seq, interval := true }).emit
    (.level l { seq := seq, held := x.hold, wide := wide, levels := live })

/-- An expiry of a line's clock, when it runs (R133). -/
def lineExpiry (s : State) (l : Fin 6) : State :=
  if (s.line l).clock.isNone then s else ((s.missReturn l).sendLevels l).pump

/-! ### The work of the requests -/

/-- The six hold flags, line 1 in the least significant bit (R137); bits 6 and 7, which R137 leaves open, are 0 (the model's
choice, log 55). -/
def holdFlags (s : State) : Nat := s.outp.lines.toList.foldr (fun x n => 2 * n + (if x.hold then 1 else 0)) 0

/-- LINE_HOLD (R137). -/
def lineHoldWork (s : State) (q : Requester) (a : Nat × Bool) : State :=
  let t := match line? a.1 with
    | some l => s.setLine l { s.line l with hold := a.2 }
    | none => { s with outp := { s.outp with lines := s.outp.lines.map (fun x : Line => { x with hold := a.2 }) } }
  t.answer q .ok (b1 a.1 ++ b1 s.holdFlags ++ b1 t.holdFlags)

/-- FAULT_CLEAR (R145). -/
def faultClearWork (s : State) (q : Requester) (a : Option (Nat × FaultKind)) : State :=
  let reply := fun (rest : List CircuitFault) =>
    ({ s with outp := { s.outp with faults := rest } }).answer q .ok
      (b1 (s.outp.faults.length - rest.length) ++ b1 rest.length)
  match a with
  | none => reply (s.outp.faults.filter (fun x => x.present))
  | some (circuit, kind) =>
    match s.circuitEntry circuit kind with
    | none => s.answer q .notFound []
    | some x =>
      if x.present then s.answer q .stillPresent []
      else reply (s.outp.faults.filter (fun x => !(x.circuit = circuit && x.kind = kind)))

/-- FAULTS_READ (R146); the code of the present byte is the model's choice (log 52). -/
def faultsReadWork (s : State) (q : Requester) (_ : Unit) : State :=
  s.answer q .ok (b1 s.outp.faults.length ++ b1 (s.outp.faults.filter (fun x => x.present)).length
    ++ b2 s.outp.notTabled
    ++ s.outp.faults.flatMap (fun x =>
      b2 x.circuit ++ b1 (faultKindCode x.kind) ++ b1 x.stage ++ bBool x.present ++ b4 x.firstSeen))

/-- RACK_READ (R147); the hold is coded as in LINE_HOLD (log 52). -/
def rackReadWork (s : State) (q : Requester) (l : Fin 6) : State :=
  let x := s.line l
  s.answer q .ok (b1 (l.val + 1) ++ settingsBytes (x.settings.getD defaultLine) ++ bBool x.hold
    ++ b1 (monitorCode x.monitor) ++ b1 x.goodRun ++ b1 x.badRun ++ b1 (x.rack.getD (0, 0)).1
    ++ b1 (x.rack.getD (0, 0)).2 ++ b1 x.seq ++ b2 s.outp.blend ++ b2 s.outp.target
    ++ (x.live.zip x.debounce).flatMap (fun e => b2 e.1 ++ b1 (conditionCode e.2.condition)))

end State

/-! ### The meanings -/

/-- RACK_READ (R147). -/
def execRackRead (port : PortId) (s : State) : Host.Outcome State Fault Refusal :=
  .next (s.takeRequest port 0x06 parseRackRead State.rackReadWork)

/-- FAULTS_READ (R146). -/
def execFaultsRead (port : PortId) (s : State) : Host.Outcome State Fault Refusal :=
  .next (s.takeRequest port 0x0C parseNone State.faultsReadWork)

/-- FAULT_CLEAR (R145). -/
def execFaultClear (port : PortId) (s : State) : Host.Outcome State Fault Refusal :=
  .next (s.takeRequest port 0x48 parseFaultClear State.faultClearWork)

/-- LINE_HOLD (R137). -/
def execLineHold (port : PortId) (s : State) : Host.Outcome State Fault Refusal :=
  .next (s.takeRequest port 0x5B parseLineHold State.lineHoldWork)

/-- LINE_CLOCK_EXPIRY (R133); a line the part does not have expires nothing (log 33). -/
def execLineClockExpiry (line : Nat) (s : State) : Host.Outcome State Fault Refusal :=
  match line? line with
  | none => .next s
  | some l => .next (s.lineExpiry l)

/-- RETURN_FRAME (R138); there is none on a line the part does not have (log 33). -/
def execReturnFrame (line : Nat) (cleanLine : Bool) (bytes : List Byte) (s : State) :
    Host.Outcome State Fault Refusal :=
  match line? line with
  | none => .next s
  | some l => .next (s.takeReturn l cleanLine bytes)

end Sys2Proof.Machine
end

