-- ==== Sys2Proof/Machine/Reads.lean ====
section
/-! DEFINITION. The read requests that are answered at once, and the host reads through the store port (R24 to R26, R36, R37,
R83, R103, R114, R161, R163, R177, R178). -/

namespace Sys2Proof.Machine

/-! ### Cue and patch replies -/

/-- The header of a cue in the order and form of CUE_OPEN, the bank and the list first (R19, R24; log 53). -/
def cueHeader (b : Bank) (l : PbId) (c : Cue) : List Byte :=
  b1 b.val ++ b1 (num l) ++ b2 c.number ++ b2 c.up ++ bOpt c.down ++ b2 c.upDelay ++ b2 c.downDelay ++ bOpt c.follow
    ++ bOpt c.link ++ bBool c.block ++ bText c.label

/-- The fields of a CUE_READ reply (R24). -/
def cueFields (b : Bank) (l : PbId) (first : Nat) (c : Cue) : List Byte :=
  let run := (c.levels.drop first).take 300
  cueHeader b l c ++ b2 c.levels.length ++ b2 first ++ b2 run.length ++ run.flatMap entryBytes

/-- One cue of a LIST_READ reply (R25). -/
def listed (e : Nat × DirCue) : List Byte := b2 e.1 ++ bText e.2.label

/-- The cues of a LIST_READ reply: in order, while the next fits in the room left of a body of 1024 bytes, and at most as
many as the first number (R25). -/
def fitting : Nat → Nat → List (Nat × DirCue) → List (Nat × DirCue)
  | 0, _, _ => []
  | _, _, [] => []
  | n + 1, room, e :: rest =>
    if (listed e).length ≤ room then e :: fitting n (room - (listed e).length) rest else []

/-- A patch and windows with one queued write of a bank applied (R36). -/
def WriteEntry.ontoPatch (w : WriteEntry) (b : Bank) (t : Assoc PatchEntry × Windows) : Assoc PatchEntry × Windows :=
  if w.bank ≠ some b then t
  else match w.kind with
    | .patchWrite pairs => (writePairs pairs t.1, t.2)
    | .windowWrite x => (t.1, x)
    | _ => t

/-- The writes of a queue after the newest erase of a bank; none when it holds no such erase (R36). -/
def afterErase (b : Bank) : List WriteEntry → Option (List WriteEntry)
  | [] => none
  | w :: rest =>
    match afterErase b rest with
    | some l => some l
    | none => if w.bank = some b ∧ w.kind = .bankErase then some rest else none

/-- A present window of a PATCH_READ reply, with its number (R36). -/
def windowFields (e : Option Window × Nat) : List Byte :=
  match e.1 with
  | some x => b1 (e.2 + 1) ++ b2 x.first ++ b2 x.last ++ b2 x.channel
  | none => []

/-- An entry of a PATCH_READ reply; the proportion and curve of an absent one are free values (R36; log 12). -/
def patchFields (free : Nat) : Option PatchEntry → List Byte
  | some e => b2 e.channel ++ b1 e.proportion ++ b1 e.curve
  | none => b2 Config.absent ++ [Config.freeByte free, Config.freeByte (free + 1)]

/-- A source of CIRCUIT_READ with its reference (R37). -/
def CircuitSource.fields : CircuitSource → List Byte
  | .none => b1 0 ++ b2 0
  | .entry c => b1 1 ++ b2 c
  | .window c => b1 2 ++ b2 c
  | .house g => b1 3 ++ b2 (num g)

/-- The action byte and result bytes of a cue input in STATUS; 255, 255 and 0 when none (R177; log 37). -/
def CueInput.lastFields (x : CueInput) : List Byte :=
  match x.last with
  | none => b1 255 ++ b1 255 ++ b1 0
  | some (a, r) => b1 a.code ++ b1 r.code ++ b1 r.status

/-- A move of SLOT_READ with its present level (R103). -/
def Slot.moveFields (sl : Slot) (m : Move) : List Byte :=
  b2 m.channel ++ b2 m.start ++ b2 m.target ++ b2 (sl.level m sl.elapsed)

/-- The pending GO as PLAYBACK_READ codes it: its source and, where that is an input, the input number; R83 gives no number
for another source or for no GO, and 0 is sent there (log 43). -/
def pendingGoFields : Option PendingGo → List Byte
  | none => b1 0 ++ b1 0
  | some g => b1 g.source.code ++ b1 g.source.inputNo

/-- A line of an up frame and of the follower form of STATUS: monitor, model and count (R157, R161). -/
def Line.toReport (x : Line) : LineReport :=
  { monitor := x.monitor, model := (x.rack.getD (0, 0)).1, count := (x.rack.getD (0, 0)).2 }

namespace State

/-! ### CUE_READ, LIST_READ, BANK_INFO, PATCH_READ -/

/-- A host read joins the reads waiting for the port (R9). -/
def queueRead (s : State) (r : HostRead) : State := { s with ctl := { s.ctl with hostReads := s.ctl.hostReads ++ [r] } }

/-- CUE_READ (R24). -/
def cueReadWork (s : State) (q : Requester) (a : (Bank × PbId) × Nat × Nat) : State :=
  let b := a.1.1
  let l := a.1.2
  if (s.proj b).valid = false then s.answer q .blank []
  else match s.cueAnswer b l a.2.1 with
    | .notFound => s.answer q .notFound []
    | .ready c => s.answer q .ok (cueFields b l a.2.2 c)
    | .readPort => s.queueRead (.cue q b l a.2.1 a.2.2)

/-- LIST_READ (R25). -/
def listReadWork (s : State) (q : Requester) (a : (Bank × PbId) × Nat) : State :=
  let b := a.1.1
  if (s.proj b).valid = false then s.answer q .blank []
  else
    let cues := ((s.proj b).dir.get a.1.2).filter (fun e => a.2 < e.1)
    let run := fitting 200 1020 cues
    s.answer q .ok (b2 run.length ++ bBool (decide (run.length < cues.length)) ++ run.flatMap listed)

/-- BANK_INFO (R26); a BLANK bank has an empty title, and a flag is 1 when set (the model's choices, logs 51 and 52). -/
def bankInfoWork (s : State) (q : Requester) (b : Bank) : State :=
  let h := s.proj b
  let target := match s.bank.change with
    | some c => decide (c.target = b)
    | none => false
  s.answer q .ok (b2 (Config.bankStateCode h.valid) ++ b2 h.title.length ++ h.title ++ h.dir.toList.flatMap (fun l => b2 l.length)
    ++ b2 h.cues ++ b2 h.entries ++ b2 (s.ctl.queue.filter (fun w => w.bank = some b)).length
    ++ bBool (s.bank.active = some b) ++ bBool target ++ bBool (s.eraseQueued b))

/-- The reply OK of PATCH_READ; the free values it takes are counted (R36; log 12). -/
def answerPatch (s : State) (q : Requester) (first count : Nat) (m : Assoc PatchEntry) (w : Windows) : State :=
  let run := (List.range count).flatMap (fun i => patchFields (s.free + 2 * i) (Assoc.find m (first + i)))
  let windows := w.toList.zipIdx
  ({ s with free := s.free + 2 * count }).answer q .ok
    (b2 first ++ b1 count ++ run ++ b1 (windows.filter (fun e : Option Window × Nat => e.1.isSome)).length ++ windows.flatMap windowFields)

/-- PATCH_READ: at once from the queue when it holds an erase of the bank, else a host read (R36). -/
def patchReadWork (s : State) (q : Requester) (a : Bank × Nat × Nat) : State :=
  let b := a.1
  if (s.proj b).valid = false then s.answer q .blank []
  else match afterErase b s.ctl.queue with
    | some writes =>
      let t := writes.foldl (fun t w => w.ontoPatch b t) (([], .empty) : Assoc PatchEntry × Windows)
      s.answerPatch q a.2.1 a.2.2 t.1 t.2
    | none => s.queueRead (.patch q b a.2.1 a.2.2)

/-- The segments that hold a run of circuits, joined; none when one fails its check (R36). -/
def storedRun (s : State) (b : Bank) (first count : Nat) : Option (Assoc PatchEntry) :=
  let n1 := segmentOf first
  let n2 := segmentOf (first + count - 1)
  match s.storedSegment b n1, s.storedSegment b n2 with
  | some m1, some m2 => some (if n1 = n2 then m1 else m1 ++ m2)
  | _, _ => none

/-- The end of a host read (R24, R36); passes is clear when the read fails its check or the store does not answer. -/
def endHostRead (s : State) (r : HostRead) (passes : Bool) : State :=
  match r with
  | .cue q b l n first =>
    match s.storedCue b l n, passes with
    | some c, true => s.answer q .ok (cueFields b l first c)
    | _, _ => s.answer q .checkFailed []
  | .patch q b first count =>
    match s.storedRun b first count, s.storedWindows b, passes with
    | some m, some w, true =>
      let t := s.ctl.queue.foldl (fun t w => w.ontoPatch b t) (m, w)
      s.answerPatch q first count t.1 t.2
    | _, _, _ => s.answer q .checkFailed []

/-- A host read ends (R24). -/
def hostReadDone (s : State) (answer : StoreAnswer) : State :=
  match s.ctl.op, answer with
  | some (.hostRead _), .busy => s
  | some (.hostRead r), a => (s.freePort.endHostRead r (a = .done true)).settle
  | _, _ => s

/-! ### Other reads -/

/-- CIRCUIT_READ (R37). -/
def circuitReadWork (s : State) (q : Requester) (a : Nat × Nat) : State :=
  s.answer q .ok (b2 a.1 ++ b1 a.2 ++
    (List.range a.2).flatMap (fun i => b2 (s.circuitLevel (a.1 + i)) ++ (s.circuitSource (a.1 + i)).fields))

/-- LEVELS_READ (R114); the blackout state is coded as in the request BLACKOUT (log 52). -/
def levelsReadWork (s : State) (q : Requester) (a : Nat × Nat × Nat) : State :=
  let first := a.2.1
  let run := (List.range a.2.2).map (fun i => first + i)
  let header := b1 a.1 ++ b2 s.merge.grand ++ bBool s.merge.blackout ++ b1 s.merge.parks.length
  match idx4 a.1 with
  | some p =>
    s.answer q .ok (header ++ b2 (s.pb p).master ++ b2 first ++ b2 a.2.2
      ++ run.flatMap (fun c => b2 ((s.pb p).look.level c)))
  | none =>
    if a.1 = 0 then
      s.answer q .ok (header ++ b2 first ++ b2 a.2.2 ++ run.flatMap (fun c => b2 (s.output c))
        ++ packBits (run.map (fun c => (s.parkOf c).isSome)))
    else s.answer q .ok (header ++ s.merge.parks.flatMap Park.fields)

/-- PLAYBACK_READ (R83). The paused byte of the follow timer, which R83 gives no code, is 1 for paused and 0 for not (the
model's choice, log 52); of an idle timer, where R83 leaves it open, it is sent as 0 (log 43). -/
def playbackReadWork (s : State) (q : Requester) (p : PbId) : State :=
  let x := s.pb p
  let slots := s.slotsOf p
  s.answer q .ok (b1 (num p) ++ b1 x.state.code ++ b2 x.master
    ++ b2 ((x.lastRun.map (·.number)).getD 0) ++ bOpt (x.lastRun.bind (·.link)) ++ b2 (x.explicit.getD 0)
    ++ b1 x.standby.code ++ b2 x.standby.number ++ b1 x.standby.source ++ pendingGoFields x.pendingGo
    ++ bOpt (x.follow.map (·.steps)) ++ bBool ((x.follow.map (·.paused)).getD false)
    ++ b1 x.back.length ++ x.back.flatMap (fun e => b2 e.cue ++ b2 e.levels.length)
    ++ b1 slots.length ++ slots.flatMap (fun sl => b1 sl.number)
    ++ b2 x.look.length ++ b2 s.backUse)

/-- SLOT_READ (R103); the code of the paused byte is the model's choice (log 52). -/
def slotReadWork (s : State) (q : Requester) (a : Nat × Nat) : State :=
  match s.slots.find? (fun sl => sl.number = a.1) with
  | none => s.answer q .notFound []
  | some sl =>
    let run := (sl.moves.drop a.2).take 100
    s.answer q .ok (b1 sl.number ++ b1 (num sl.playback) ++ b1 sl.kind.code ++ b2 (sl.cue.getD 0) ++ b2 sl.up
      ++ b2 sl.down ++ b2 sl.upDelay ++ b2 sl.downDelay ++ b4 sl.elapsed ++ b4 sl.finish ++ bBool sl.paused
      ++ b2 sl.moves.length ++ b1 s.slots.length ++ b2 (poolUse s.slots) ++ b2 a.2 ++ b2 run.length
      ++ run.flatMap sl.moveFields)

/-- STAGE_READ (R163); the codes of present and leader-lost are the model's choice (log 52). -/
def stageReadWork (s : State) (q : Requester) (n : Fin 3) : State :=
  let e := s.cas.stages.get n
  s.answer q .ok (b1 (n.val + 1) ++ bBool e.present ++ b1 (s.cas.gens.get n) ++ b1 e.gen ++ bBool e.leaderLost
    ++ b4 e.lastUp ++ e.lines.flatMap lineReportBytes ++ bBool s.cas.orphanSeen ++ b2 s.cas.uinErrors)

/-- Part 0 of HOUSE_READ (R178). -/
def houseSettings (s : State) : List Byte :=
  b1 (bankCode s.bank.resident) ++ b2 s.link.limit ++ b1 (policyCode s.sup.policy) ++ b2 s.outp.safeFade
    ++ b2 s.eng.backTime ++ b2 s.outp.lamp
    ++ s.outp.lines.toList.flatMap (fun x => settingsBytes (x.settings.getD defaultLine))
    ++ s.cas.lineItems.toList.flatMap (fun l => l.toList.flatMap settingsBytes)
    ++ four.flatMap (fun i => inputFields i (s.inputs.get i).settings)
    ++ b1 s.ctl.failed.length

/-- HOUSE_READ (R178). -/
def houseReadWork (s : State) (q : Requester) (part : Nat) : State :=
  let fields := match part with
    | 0 => s.houseSettings
    | 1 => s.patch.curves.flatMap (fun c => c.flatMap b2)
    | 2 => s.patch.groups.toList.flatMap (fun g =>
        b1 g.curve ++ b2 g.level ++ b2 g.target ++ b2 g.steps ++ b1 g.members.length ++ g.members.flatMap b2)
    | _ => b1 s.outp.safeLook.length ++ s.outp.safeLook.flatMap (fun e => b2 e.1 ++ b2 e.2)
  s.answer q .ok (b1 part ++ fields)

/-! ### STATUS -/

/-- The changeover fields of STATUS (R177). -/
def changeFields : Option Change → List Byte
  | none => b1 0 ++ b1 4 ++ b1 255 ++ b1 0
  | some c => b1 c.stateCode ++ b1 c.target.val ++ bBool c.dark ++ b1 c.position

/-- The fault record as STATUS codes it (R177). -/
def recordCode : Option EngineFault → Nat
  | none => 0
  | some f => if f.critical then 2 else 1

/-- STATUS after its role byte, on a leader (R177); its flags are 1 when set, where R177 gives no code (log 52). -/
def leaderStatus (s : State) (p : PortId) : List Byte :=
  bBool s.sup.halted ++ b1 (recordCode s.sup.record) ++ b1 (lossCode s.sup.loss) ++ b1 (policyCode s.sup.policy)
    ++ bBool s.link.silent ++ b1 s.link.limit ++ b1 (bankCode s.bank.active) ++ changeFields s.bank.change
    ++ s.eng.pb.toList.flatMap (fun x => b1 x.state.code)
    ++ b1 s.slots.length ++ b2 (poolUse s.slots) ++ b2 s.backUse
    ++ b2 s.merge.grand ++ bBool s.merge.blackout ++ b1 s.merge.parks.length
    ++ b1 s.ctl.queue.length ++ b1 s.ctl.hostReads.length ++ b2 s.outp.blend ++ b2 s.outp.target
    ++ s.outp.lines.toList.flatMap (fun x => b1 (monitorCode x.monitor))
    ++ s.cas.stages.toList.flatMap (fun e => bBool e.present)
    ++ b1 s.outp.faults.length ++ b1 (s.outp.faults.filter (fun x => x.present)).length
    ++ s.inputs.toList.flatMap (fun x => bBool x.closed ++ bBool x.settings.enabled ++ x.lastFields)
    ++ b1 s.link.mask.toNat ++ b2 s.con.errors ++ b2 s.aux.errors
    ++ b1 (s.port p).requests.length ++ b1 (s.port p).owed
    ++ b1 s.link.reports.length ++ bBool s.link.lost ++ b4 s.sup.showTime

/-- STATUS on a follower (R161); its flags are 1 when set (the model's choice, log 52). -/
def followerStatus (s : State) : List Byte :=
  b1 (if s.cas.role = .orphan then 2 else 1) ++ b1 (min (s.cas.stage.getD 0) 255) ++ bBool s.cas.stage.isSome
    ++ b1 s.cas.genHeld ++ b1 s.cas.genSeen ++ bBool (decide (s.cas.genSeen = s.cas.genHeld)) ++ bBool s.cas.leaderLost
    ++ b1 (policyCode s.cas.policyHeld) ++ b2 s.outp.blend ++ b2 s.outp.target
    ++ s.outp.lines.toList.flatMap (fun x => lineReportBytes x.toReport)
    ++ b1 s.cas.events.length ++ b2 s.cas.dinErrors ++ b2 s.cas.uinErrors ++ b2 s.cas.missed

/-- STATUS; before the role is decided its role byte is a free value (R161, R177; log 10). -/
def statusWork (s : State) (q : Requester) (_ : Unit) : State :=
  if s.isFollower then s.answer q .ok s.followerStatus
  else if s.isLeader then s.answer q .ok (b1 0 ++ s.leaderStatus q.port)
  else ({ s with free := s.free + 1 }).answer q .ok ([Config.freeByte s.free] ++ s.leaderStatus q.port)

end State

/-! ### The meanings -/

/-- STATUS (R177). -/
def execStatus (port : PortId) (s : State) : Host.Outcome State Fault Refusal :=
  .next (s.takeRequest port 0x02 parseNone State.statusWork)

/-- LEVELS_READ (R114). -/
def execLevelsRead (port : PortId) (s : State) : Host.Outcome State Fault Refusal :=
  .next (s.takeRequest port 0x03 parseLevelsRead State.levelsReadWork)

/-- CIRCUIT_READ (R37). -/
def execCircuitRead (port : PortId) (s : State) : Host.Outcome State Fault Refusal :=
  .next (s.takeRequest port 0x04 parseCircuitRead State.circuitReadWork)

/-- PLAYBACK_READ (R83). -/
def execPlaybackRead (port : PortId) (s : State) : Host.Outcome State Fault Refusal :=
  .next (s.takeRequest port 0x05 parsePlayback State.playbackReadWork)

/-- STAGE_READ (R163). -/
def execStageRead (port : PortId) (s : State) : Host.Outcome State Fault Refusal :=
  .next (s.takeRequest port 0x07 parseStageRead State.stageReadWork)

/-- CUE_READ (R24). -/
def execCueRead (port : PortId) (s : State) : Host.Outcome State Fault Refusal :=
  .next (s.takeStoreRequest port 0x08 parseCueRead State.cueReadWork)

/-- LIST_READ (R25). -/
def execListRead (port : PortId) (s : State) : Host.Outcome State Fault Refusal :=
  .next (s.takeRequest port 0x09 parseListRead State.listReadWork)

/-- BANK_INFO (R26). -/
def execBankInfo (port : PortId) (s : State) : Host.Outcome State Fault Refusal :=
  .next (s.takeRequest port 0x0A parseBank State.bankInfoWork)

/-- PATCH_READ (R36). -/
def execPatchRead (port : PortId) (s : State) : Host.Outcome State Fault Refusal :=
  .next (s.takeStoreRequest port 0x0B parsePatchRead State.patchReadWork)

/-- HOUSE_READ (R178). -/
def execHouseRead (port : PortId) (s : State) : Host.Outcome State Fault Refusal :=
  .next (s.takeRequest port 0x0E parseHouseRead State.houseReadWork)

/-- SLOT_READ (R103). -/
def execSlotRead (port : PortId) (s : State) : Host.Outcome State Fault Refusal :=
  .next (s.takeRequest port 0x0F parseSlotRead State.slotReadWork)

/-- HOST_READ_DONE (R24, R36). -/
def execHostReadDone (answer : StoreAnswer) (s : State) : Host.Outcome State Fault Refusal := .next (s.hostReadDone answer)

end Sys2Proof.Machine
end

