-- ==== Sys2Proof/Machine/Completion.lean ====
section
/-! DEFINITION. House items and their delivery, start-up reads, completed and failed writes, fetch outcomes, the store timeout
and the completion notices (R2, R3, R8, R12 to R18, R30, R35, R39, R43, R55, R59, R152, R174). -/

namespace Sys2Proof.Machine

/-! ### House items -/

/-- The default of a house item by its number (Table 1-1). -/
def defaultItem (i : Nat) : HouseItem :=
  match i with
  | 0 => .resident none
  | 1 => .silence 20
  | 2 => .policy .freeze
  | 3 => .safeFade 30
  | 4 => .backTime 20
  | 5 => .lamp 100
  | 13 => .groups ⟨⟨[], 0⟩, ⟨[], 0⟩, ⟨[], 0⟩, ⟨[], 0⟩⟩
  | 14 => .safeLook []
  | n =>
    if n ≤ 12 then .curve (n - 5) linearPoints
    else if n ≤ 38 then .line ((n - 15) / 6) ((n - 15) % 6 + 1) defaultLine
    else .input (Fin.ofNat 4 (n - 39)) .default

/-- The fields of the reply to a completed write, by the request it came from (R21, R34, R77, R17). -/
def WriteEntry.fields (w : WriteEntry) : List Byte :=
  match w.kind with
  | .cueWrite l c =>
    b2 (bankCode w.bank) ++ b2 (num l) ++ b2 c.number ++ (if w.req.kind = 0x28 then b2 c.levels.length else [])
  | .patchWrite pairs => b1 pairs.length
  | .houseWrite item => item.fields
  | _ => []

/-- The house groups take new members and curves and keep their faders (R43). -/
def HouseGroup.reserve (g : HouseGroup) (x : GroupSettings) : HouseGroup :=
  { g with members := x.members, curve := x.curve }

/-- A setup generation goes up by one, from 255 to 1 (R152). -/
def nextGen (g : Nat) : Nat := if g = 255 then 1 else g + 1

/-! ### The store after a write -/

/-- The pairs of a patch write that lie in a segment. -/
def pairsIn (n : Nat) (pairs : List (Nat × Option PatchEntry)) : List (Nat × Option PatchEntry) :=
  pairs.filter (fun e => segmentOf e.1 = n)

/-- What the read of segment n hands to a patch write: nothing when the store device hands over a segment that fails its
check, or the store holds none that passes (R6, R35; log 21). -/
def readSegment (damaged : List Nat) (n : Nat) (x : Option (Checked (Assoc PatchEntry))) : Option (Assoc PatchEntry) :=
  if damaged.contains n then none else Checked.read segmentBytes x

/-- The segments with the pairs of a write: a touched segment is read and rewritten whole with a new check value, and one
that fails its check on that read is rebuilt from nothing (R35). -/
def writeSegments (pairs : List (Nat × Option PatchEntry)) (damaged : List Nat)
    (segments : List (Option (Checked (Assoc PatchEntry)))) : List (Option (Checked (Assoc PatchEntry))) :=
  segments.zipIdx.map (fun e =>
    let mine := pairsIn (e.2 + 1) pairs
    if mine.isEmpty then e.1
    else some (.seal segmentBytes (writePairs mine ((readSegment damaged (e.2 + 1) e.1).getD []))))

/-- The pairs of the notice of a patch write: all 96 entries of a rebuilt segment (R35). -/
def noticePairs (pairs : List (Nat × Option PatchEntry)) (damaged : List Nat)
    (segments : List (Option (Checked (Assoc PatchEntry)))) : List (Nat × Option PatchEntry) :=
  segments.zipIdx.flatMap (fun e =>
    let mine := pairsIn (e.2 + 1) pairs
    if mine.isEmpty then []
    else if (readSegment damaged (e.2 + 1) e.1).isNone then segmentPairs (e.2 + 1) (writePairs mine [])
    else mine)

/-- A bank area after a write other than an erase has made its final step, with its updated header (R6, R12, R13). -/
def StoredBank.after (x : StoredBank) (h : Header) (k : WriteKind) (damaged : List Nat) : StoredBank :=
  let x := { x with header := some (.seal Header.bytes h) }
  match k with
  | .cueWrite l c => { x with cues := x.cues.set l (Assoc.insert c.number (.seal Cue.bytes c) (x.cues.get l)) }
  | .cueDelete l n => { x with cues := x.cues.set l (Assoc.erase n (x.cues.get l)) }
  | .patchWrite pairs => { x with segments := writeSegments pairs damaged x.segments }
  | .windowWrite w => { x with windows := some (.seal Windows.bytes w) }
  | .bankTitle _ => x
  | .bankErase => x
  | .houseWrite _ => x

/-- A bank area after step k of an erase, 0 to 27: the BLANK header, 24 segments, the windows item, the cue records, the new
header (R6, R15). -/
def StoredBank.eraseStep (x : StoredBank) (k : Nat) : StoredBank :=
  if k = 0 then { x with header := some (.seal Header.bytes .blank) }
  else if k ≤ 24 then { x with segments := x.segments.set (k - 1) (some (.seal segmentBytes [])) }
  else if k = 25 then { x with windows := some (.seal Windows.bytes .empty) }
  else if k = 26 then { x with cues := ⟨[], [], [], []⟩ }
  else { x with header := some (.seal Header.bytes .fresh) }

namespace State

/-- The store after the write step being performed for the head write has been made; damaged names the segments that failed
their check on the read of a patch write (R6, R13, R15, R35). -/
def storeAfter (s : State) (w : WriteEntry) (damaged : List Nat) : ShowStore :=
  match w.kind, w.bank with
  | .houseWrite item, _ => { s.store with house := Assoc.insert item.id (.seal HouseItem.bytes item) s.store.house }
  | .bankErase, some b => { s.store with banks := s.store.banks.set b ((s.store.banks.get b).eraseStep s.ctl.eraseStep) }
  | k, some b => { s.store with banks := s.store.banks.set b ((s.store.banks.get b).after ((s.ram b).apply k) k damaged) }
  | _, none => s.store

/-! ### Delivery of house items -/

/-- The leader's lines are started once the six stage-0 items have been handed over (R130). -/
def startLines (s : State) : State :=
  if s.isLeader ∧ s.outp.started = false ∧ s.outp.lines.toList.all (fun x => x.settings.isSome) then
    { s with outp := { s.outp with started := true, lines := s.outp.lines.map Line.start } }
  else s

/-- The line settings of a stage: stage 0 to the line itself, stages 1 to 3 to the Cascade Unit (R131). -/
def deliverLine (s : State) (st l : Nat) (x : LineSettings) (completed : Bool) : State :=
  match line? l with
  | none => s
  | some i =>
    match stage? st with
    | some n => { s with cas := { s.cas with lineItems := s.cas.lineItems.set n ((s.cas.lineItems.get n).set i x) } }
    | none =>
      if completed then s.setLine i ((s.line i).take x)
      else (s.setLine i { s.line i with settings := some x }).startLines

/-- A house item reaches the block that applies it (Table 1-1). -/
def deliver (s : State) (item : HouseItem) (completed : Bool) : State :=
  match item with
  | .resident b => { s with bank := { s.bank with resident := b } }
  | .silence n => { s with link := { s.link with limit := n, timer := !s.link.silent && decide (0 < n) } }
  | .policy p => { s with sup := { s.sup with policy := p } }
  | .safeFade n => { s with outp := { s.outp with safeFade := n } }
  | .backTime n => { s with eng := { s.eng with backTime := n } }
  | .lamp n => { s with outp := { s.outp with lamp := n } }
  | .curve n points => { s with patch := { s.patch with curves := s.patch.curves.set (n - 1) points } }
  | .groups g =>
    { s with patch := { s.patch with groups :=
      ⟨HouseGroup.reserve s.patch.groups.x0 g.x0, HouseGroup.reserve s.patch.groups.x1 g.x1,
       HouseGroup.reserve s.patch.groups.x2 g.x2, HouseGroup.reserve s.patch.groups.x3 g.x3⟩ } }
  | .safeLook e => { s with outp := { s.outp with safeLook := e } }
  | .line st l x => s.deliverLine st l x completed
  | .input i x => { s with inputs := s.inputs.set i { s.inputs.get i with settings := x } }

/-- The stages whose setup generation a completed house write raises (R152). -/
def raiseGens (s : State) (item : HouseItem) : State :=
  let all := { s with cas := { s.cas with gens := s.cas.gens.map nextGen } }
  match item with
  | .line st _ _ =>
    match stage? st with
    | some n => { s with cas := { s.cas with gens := s.cas.gens.set n (nextGen (s.cas.gens.get n)) } }
    | none => s
  | .safeFade _ => all
  | .policy _ => all
  | .lamp _ => all
  | .groups _ => all
  | .safeLook _ => all
  | _ => s

/-- What the Store Controller hands over is delivered on the leader (R2). -/
def deliverHeld (s : State) (h : Held) : State :=
  match h with
  | .fault f => s.raise f
  | .item i completed =>
    let s := s.deliver i completed
    if completed then s.raiseGens i else s

/-- It is held back until the role is decided, delivered on the leader, and dropped on any other part (R2). -/
def handOver (s : State) (h : Held) : State :=
  match s.cas.role with
  | .undecided => { s with ctl := { s.ctl with held := s.ctl.held ++ [h] } }
  | .leader => s.deliverHeld h
  | _ => s

/-! ### Start-up reads -/

/-- A start-up read of a house item ends (R2). -/
def houseRead (s : State) (i : Nat) (passes : Bool) : State :=
  match s.storedItem i, passes with
  | some item, true => s.handOver (.item item false)
  | _, _ => ({ s with ctl := { s.ctl with failed := s.ctl.failed ++ [i] } }).handOver (.item (defaultItem i) false)

/-- A start-up read of a bank header ends: the RAM copy is made, or marked BLANK (R3). -/
def headerRead (s : State) (b : Bank) (passes : Bool) : State :=
  let h := match s.storedHeader b, passes with
    | some h, true => h
    | _, _ => .blank
  (s.setRam b h).setProj b h

/-- A start-up read ends, and the next is due; after the last the Bank Controller is told of failed items (R2, R3). The
order among the house items, and of the headers A, B, C, D after them (43 to 46), is the model's choice (log 26). -/
def endStartUpRead (s : State) (i : Nat) (passes : Bool) : State :=
  let s := s.freePort
  let s := if i ≤ 42 then s.houseRead i passes else s.headerRead (Fin.ofNat 4 (i - 43)) passes
  let s :=
    if i < 46 then { s with ctl := { s.ctl with startUp := some (i + 1) } }
    else { s with ctl := { s.ctl with startUp := none, houseFailed := !s.ctl.failed.isEmpty } }
  s.settle

/-- START_UP_READ_DONE (R2, R3). -/
def startUpDone (s : State) (answer : StoreAnswer) : State :=
  match s.ctl.op, answer with
  | some (.startUp _), .busy => s
  | some (.startUp i), a => s.endStartUpRead i (a = .done true)
  | _, _ => s

/-! ### Writes -/

/-- A cue write or delete in list p of the active bank leaves a notice for playback p, which goes before the next grant
(R13, R14; log 50). -/
def listNotice (s : State) (w : WriteEntry) : State :=
  let note := fun (p : PbId) =>
    if w.bank.isSome ∧ w.bank = s.bank.active then { s with eng := { s.eng with notices := s.eng.notices ++ [p] } } else s
  match w.kind with
  | .cueWrite l _ => note l
  | .cueDelete l _ => note l
  | _ => s

/-- A patch or window write to the active bank or the changeover target leaves a notice for the Patch Unit (R13, R30). -/
def patchNoticeFor (s : State) (w : WriteEntry) (pairs : List (Nat × Option PatchEntry)) : State :=
  let note := fun (n : PatchNotice) => { s with patch := { s.patch with notices := s.patch.notices ++ [n] } }
  match w.bank with
  | none => s
  | some b =>
    if s.bank.active = some b ∨ s.isTarget b then
      match w.kind with
      | .patchWrite _ => note (.entries b pairs)
      | .windowWrite x => note (.windows b x)
      | _ => s
    else s

/-- The notices of a completed write (R13). -/
def notify (s : State) (w : WriteEntry) (pairs : List (Nat × Option PatchEntry)) : State :=
  match w.kind with
  | .houseWrite item => s.handOver (.item item true)
  | _ => (s.listNotice w).patchNoticeFor w pairs

/-- The RAM copy of a bank header, and the list of failed items, after a completed write (R13, R178). -/
def headerAfter (s : State) (w : WriteEntry) : State :=
  match w.kind, w.bank with
  | .houseWrite item, _ => { s with ctl := { s.ctl with failed := s.ctl.failed.filter (fun i => i ≠ item.id) } }
  | k, some b => s.setRam b ((s.ram b).apply k)
  | _, none => s

/-- The head write completes (R13, R35). -/
def completeWrite (s : State) (w : WriteEntry) (damaged : List Nat) : State :=
  let pairs := match w.kind, w.bank with
    | .patchWrite pairs, some b => noticePairs pairs damaged (s.store.banks.get b).segments
    | _, _ => []
  let s := ({ s with store := s.storeAfter w damaged }).headerAfter w
  (s.endHeadWrite w.status w.fields).notify w pairs

/-- The head write fails (R14, R15). -/
def failWrite (s : State) (w : WriteEntry) : State :=
  let s := match w.kind, w.bank with
    | .bankErase, some b => s.setRam b .blank
    | _, _ => s
  let s := s.endHeadWrite .writeFailed []
  let s := s.raise { s.fault .storeFault false 4 with bank := w.bank }
  let s := match w.bank with
    | some b => s.projectAnew b
    | none => s
  s.listNotice w

/-- A confirmed step of an erase that is not its last: the store has it, and after the first the bank is BLANK (R15). -/
def eraseOn (s : State) (w : WriteEntry) : State :=
  let t := { s with store := s.storeAfter w [], ctl := { s.ctl with eraseStep := s.ctl.eraseStep + 1 } }
  match w.bank with
  | some b => if s.ctl.eraseStep = 0 then t.setRam b .blank else t
  | none => t

/-- A write step is confirmed (R13, R15). -/
def confirmWrite (s : State) (w : WriteEntry) (damaged : List Nat) : State :=
  if w.kind = .bankErase ∧ s.ctl.eraseStep < 27 then s.eraseOn w else s.completeWrite w damaged

/-- WRITE_STEP_DONE (R13, R35). -/
def writeDone (s : State) (answer : WriteAnswer) : State :=
  match s.ctl.op, s.ctl.queue, answer with
  | some .write, w :: _, .done true damaged => (s.freePort.confirmWrite w damaged).settle
  | some .write, w :: _, .done false _ => (s.freePort.failWrite w).settle
  | some .write, w :: _, .notDone => (s.freePort.failWrite w).settle
  | _, _, _ => s

/-! ### Fetches and the store timeout -/

/-- FETCH_DONE (R55, R56). -/
def fetchDone (s : State) (answer : StoreAnswer) : State :=
  match s.ctl.op, answer with
  | some (.fetch _ _ _), .busy => s
  | some (.fetch p f wanted), a =>
    let t := s.freePort
    let record := if a = .done true then s.storedCue f.bank f.list f.number else none
    (if wanted then t.takeOutcome p f record else t).settle
  | _, _ => s

/-- The bank a start-up read or a host read concerns (R8). -/
def startUpBank (i : Nat) : Option Bank := if i ≤ 42 then none else some (Fin.ofNat 4 (i - 43))

def readBank : HostRead → Bank
  | .cue _ b _ _ _ => b
  | .patch _ b _ _ => b

/-- STORE_TIMEOUT (R8): STORE_FAULT, and the end of the operation for its owner. -/
def timeout (s : State) : State :=
  match s.ctl.op, s.ctl.queue with
  | some (.startUp i), _ =>
    let f : EngineFault := { s.fault .storeFault false 5 with bank := startUpBank i }
    (s.handOver (.fault f)).endStartUpRead i false
  | some (.fetch p f wanted), _ =>
    let t := s.freePort.raise { s.fault .storeFault true 1 with playback := some p, bank := some f.bank }
    (if wanted then t.takeOutcome p f none else t).settle
  | some (.load b n wanted), _ =>
    let t := s.freePort.raise { s.fault .storeFault true 2 with bank := some b }
    (if wanted then t.takeLoad b n false else t).settle
  | some (.hostRead r), _ =>
    let t := s.freePort.raise { s.fault .storeFault false 3 with bank := some (readBank r) }
    (t.endHostRead r false).settle
  | some .write, w :: _ => (s.freePort.failWrite w).settle
  | some .write, [] => s
  | none, _ => s

/-! ### Notices -/

/-- A patch notice is applied to the active patch, to the pending patch, or to both, by its bank (R30, R31). -/
def applyPatchNotice (s : State) (n : PatchNotice) : State :=
  let onActive := fun (b : Bank) => decide (s.bank.active = some b)
  let u := s.patch
  match n with
  | .entries b pairs =>
    { s with patch := { u with
      active := if onActive b then writePairs pairs u.active else u.active,
      pending := if s.isTarget b then writePairs pairs u.pending else u.pending } }
  | .windows b w =>
    { s with patch := { u with
      windows := if onActive b then w else u.windows,
      pendingWindows := if s.isTarget b then w else u.pendingWindows } }

/-- PATCH_NOTICE (R30): the oldest waiting notice. -/
def takePatchNotice (s : State) : State :=
  match s.patch.notices with
  | [] => s
  | n :: rest => ({ s with patch := { s.patch with notices := rest } }).applyPatchNotice n

/-- LIST_NOTICE (R59): the oldest waiting notice starts a fetch of its playback, from the bank that is active then; so also
for a notice left before a commit (log 46). The port, which waits for the notice, then grants (log 50). -/
def takeListNotice (s : State) : State :=
  match s.eng.notices with
  | [] => s
  | p :: rest => (({ s with eng := { s.eng with notices := rest } }).startFetch p).settle

end State

/-! ### The meanings -/

/-- START_UP_READ_DONE (R2, R3). -/
def execStartUpReadDone (answer : StoreAnswer) (s : State) : Host.Outcome State Fault Refusal := .next (s.startUpDone answer)

/-- FETCH_DONE (R55). -/
def execFetchDone (answer : StoreAnswer) (s : State) : Host.Outcome State Fault Refusal := .next (s.fetchDone answer)

/-- WRITE_STEP_DONE (R13), with the segments that failed their check on the read of a patch write (R35). -/
def execWriteStepDone (answer : WriteAnswer) (s : State) : Host.Outcome State Fault Refusal :=
  .next (s.writeDone answer)

/-- STORE_TIMEOUT (R8). -/
def execStoreTimeout (s : State) : Host.Outcome State Fault Refusal := .next s.timeout

/-- PATCH_NOTICE (R30). -/
def execPatchNotice (s : State) : Host.Outcome State Fault Refusal := .next s.takePatchNotice

/-- LIST_NOTICE (R59). -/
def execListNotice (s : State) : Host.Outcome State Fault Refusal := .next s.takeListNotice

end Sys2Proof.Machine
end

