-- ==== Sys2Proof/Machine/Cascade.lean ====
section
/-! DEFINITION. The role of the part and the cascade: stage numbers, stage, setup and up frames, loss of the leader, the stage
table and the orphan watch (R148 to R163), and the device reset (R18, R179). -/

namespace Sys2Proof.Machine

/-- A hop count as it is passed on (R149). -/
def nextHop (hop : Nat) : Nat := min (hop + 1) 255

/-- The 96 levels of a line from a stage's 576 (R153). -/
def levelsOfLine (levels : List Nat) (l : Fin 6) : List Nat := (levels.drop (l.val * 96)).take 96

/-- A line disabled as R132 gives, its settings otherwise kept (R150). -/
def Line.shut (x : Line) : Line :=
  match x.settings with
  | some n => if n.enabled then x.disable { n with enabled := false } else x
  | none => x

/-- The lines of a report that are LOCKED (R158). -/
def lockedCount (lines : List LineReport) : Nat := (lines.filter (fun r => r.monitor = .locked)).length

/-- The report a line of a stage calls for, with the model and count it carries (R159). -/
def stageNews (held now : LineReport) : RackNews × (Nat × Nat) :=
  if now.monitor = .locked then
    if held.monitor = .locked then
      if held.model = now.model ∧ held.count = now.count then (.none, (0, 0))
      else (.changed held.model held.count, (now.model, now.count))
    else (.found, (now.model, now.count))
  else if held.monitor = .locked ∧ now.monitor = .lost then (.lost, (held.model, held.count))
  else (.none, (0, 0))

/-! ### Values of a frame outside their ranges -/

/-- A number of a frame: within its range itself, else a free value of that range (log 33). -/
def rangeValue (lo hi n k : Nat) : Nat := if lo ≤ n ∧ n ≤ hi then n else lo + Config.freeNumber k % (hi - lo + 1)

/-- A stage frame as it is taken: the blend factor in its range (R153; log 33). -/
def stageSettled (f : StageFrame) (k : Nat) : StageFrame := { f with blend := rangeValue 0 1000 f.blend k }

/-- The free values a stage frame takes. -/
def stageOpens (f : StageFrame) : Nat := if f.blend ≤ 1000 then 0 else 1

/-- A free rising list of at most n circuits of a stage (log 33). -/
def freeCircuits (k n : Nat) : List Nat := (((List.range 576).map (· + 1)).filter (Config.freeMember k)).take n

/-- A free list of house circuits of a stage (R152; log 33). -/
def freeHouse (k : Nat) : List Nat := freeCircuits k 48

/-- A free list of safe-look entries of a stage (R152; log 33). -/
def freeSafe (k : Nat) : List (Nat × Nat) := (freeCircuits k 128).map (fun n => (n, Config.freeNumber (k + n) % 1001))

/-- A setup frame as it is applied: every value in its range (R154; log 33). -/
def setupSettled (f : SetupFrame) (k : Nat) : SetupFrame :=
  { f with
    safeFade := rangeValue 0 600 f.safeFade k
    lamp := rangeValue 50 500 f.lamp (k + 1)
    house := if isHouseList f.house then f.house else freeHouse (k + 2)
    safe := if isSafeList f.safe then f.safe else freeSafe (k + 3) }

/-- The free values a setup frame takes. -/
def setupOpens (f : SetupFrame) : Nat := if f.inRange then 0 else 580

/-- An up frame as the leader takes it: circuit counts and event circuits in their ranges (R158; log 33). -/
def upSettled (f : UpFrame) (k : Nat) : UpFrame :=
  { f with
    lines := f.lines.zipIdx.map (fun e => { e.1 with count := rangeValue 0 96 e.1.count (k + e.2) })
    events := f.events.zipIdx.map (fun e => { e.1 with circuit := rangeValue 1 2304 e.1.circuit (k + 6 + e.2) }) }

/-- The free values an up frame takes. -/
def upOpens (f : UpFrame) : Nat := if f.inRange then 0 else 14

namespace State

/-! ### Device reset and role -/

/-- The show store after a device reset: a write step being performed lands when it had already been made, with the
segments that failed its read (R18, R35; log 20). -/
def storeAtReset (s : State) (stepMade : Option (List Nat)) : ShowStore :=
  match s.ctl.op, s.ctl.queue, stepMade with
  | some .write, w :: _, some damaged => s.storeAfter w damaged
  | _, _, _ => s.store

/-- The part right after a device reset: everything at its reset value but the store, the contacts, and the model's own
fields (R18, R22, R41, R63, R80, R102, R104, R116, R130, R148, R174, R179, R184, R185). -/
def deviceReset (s : State) (stepMade : Option (List Nat)) : State :=
  { State.reset with
    store := s.storeAtReset stepMade, inputs := s.inputs.map (fun x => CueInput.reset x.raw), free := s.free,
    wire := s.wire, pending := s.pending }

/-- The part is not the leader: a FOLLOWER. It drops what was held back for a leader and the reports it will not send, its
silence timer stops, its Patch Unit, Merge Unit, Playback Engine and Fade Slot Table hold their device-reset values, no
fetch is made, and its hold flags are clear (R2, R148, R161, R162, R174; log 44). With no list notice left, the port no
longer waits for one (log 50). -/
def becomeFollower (s : State) : State :=
  ({ s with
    cas := { s.cas with role := .follower }
    ctl := { s.ctl with held := [], fetches := ⟨none, none, none, none⟩ }
    sup := { s.sup with raised := [] }
    link := { s.link with timer := false, reports := [], lost := false }
    patch := .reset, merge := .reset, eng := .reset, slots := []
    outp := { s.outp with lines := s.outp.lines.map (fun x : Line => { x with hold := false }) } } : State).settle

/-- The part is the leader: what was held back is delivered, the lines are started (R2, R130, R148). -/
def becomeLeader (s : State) : State :=
  let t := { s with cas := { s.cas with role := .leader }, ctl := { s.ctl with held := [] } }
  (s.ctl.held.foldl deliverHeld t).startLines

/-- The role is decided once (R148). -/
def decideRole (s : State) (dinSeen : Bool) : State :=
  if s.cas.role = .undecided then (if dinSeen then s.becomeFollower else s.becomeLeader) else s

/-- A frame byte on CAS_DIN before the role is decided makes the part not the leader (R148). -/
def dinByte (s : State) : State := s.decideRole true

/-! ### Frames from the leader -/

/-- The levels of a stage as a stage frame carries them (R151). -/
def stageLevels (s : State) (n : Fin 3) : List Nat := (List.range 576).map (fun i => s.circuitLevel ((n.val + 1) * 576 + i + 1))

/-- A stage frame is built and sent (R151). -/
def sendStage (s : State) (n : Fin 3) : State :=
  let seq := (s.cas.seqs.get n + 1) % 256
  ({ s with cas := { s.cas with seqs := s.cas.seqs.set n seq } }).emit (.stageFrame
    { target := n.val + 1, hop := 0, seq := seq, blend := s.outp.blend, policy := s.sup.policy, gen := s.cas.gens.get n,
      levels := s.stageLevels n })

/-- The house circuits of a stage by their number within the stage, ascending (R152). -/
def stageHouse (s : State) (n : Fin 3) : List Nat :=
  ((List.range 576).map (· + 1)).filter (fun i => (s.houseGroupOf ((n.val + 1) * 576 + i)).isSome)

/-- The safe-look entries of a stage by their number within the stage, ascending (R152). -/
def stageSafe (s : State) (n : Fin 3) : List (Nat × Nat) :=
  (s.outp.safeLook.filter (fun e => (e.1 - 1) / 576 = n.val + 1)).map (fun e => (e.1 - (n.val + 1) * 576, e.2))

/-- A setup frame is built and sent (R152). -/
def sendSetup (s : State) (n : Fin 3) : State :=
  s.emit (.setupFrame
    { target := n.val + 1, hop := 0, gen := s.cas.gens.get n, lines := (s.cas.lineItems.get n).toList,
      safeFade := s.outp.safeFade, policy := s.sup.policy, lamp := s.outp.lamp, house := s.stageHouse n,
      safe := s.stageSafe n })

/-- An expiry of the cascade frame timer: a stage frame for each stage, and at every tenth a setup frame for each (R151). -/
def cascadeExpiry (s : State) : State :=
  if s.isLeader ∧ s.ctl.startUp.isNone then
    let s := three.foldl sendStage s
    if s.cas.frameTimer = 9 then
      three.foldl sendSetup { s with cas := { s.cas with frameTimer := 0 } }
    else { s with cas := { s.cas with frameTimer := s.cas.frameTimer + 1 } }
  else s

/-! ### Stage numbers -/

/-- Entry to ORPHAN: enabled lines are disabled, the event queue is emptied, the setup generation held becomes 0 (R150). -/
def enterOrphan (s : State) : State :=
  { s with outp := { s.outp with lines := s.outp.lines.map Line.shut },
           cas := { s.cas with role := .orphan, events := [], genHeld := 0 } }

/-- The role a follower's stage gives it (R148, R150). -/
def roleOfStage (s : State) (stage : Nat) : State :=
  if 4 ≤ stage then (if s.cas.role = .orphan then s else s.enterOrphan)
  else { s with cas := { s.cas with role := .follower } }

/-- An ID change to a stage (R150). -/
def changeId (s : State) (stage : Nat) : State :=
  ({ s with cas := { s.cas with
    stage := some stage, cand := none, candRun := 0, genHeld := 0, lastSeq := none } }).roleOfStage stage

/-- The watch of the hop count of a downstream frame (R150). -/
def watchHop (s : State) (hop : Nat) : State :=
  match s.cas.stage with
  | none => ({ s with cas := { s.cas with stage := some (hop + 1) } }).roleOfStage (hop + 1)
  | some stage =>
    if hop + 1 = stage then { s with cas := { s.cas with cand := none, candRun := 0 } }
    else
      let run := if s.cas.cand = some hop then s.cas.candRun + 1 else 1
      if 3 ≤ run then s.changeId (hop + 1)
      else { s with cas := { s.cas with cand := some hop, candRun := run } }

/-! ### The follower's frames -/

/-- Frames missed between the last sequence and this one (R153). -/
def missedNow (s : State) (seq : Nat) : Nat :=
  match s.cas.lastSeq with
  | none => 0
  | some last => (seq + 255 - last) % 256

/-- A stage frame for the follower's own stage (R153). -/
def takeStage (s : State) (raw : StageFrame) : State :=
  let f := stageSettled raw s.free
  let s := { s with outp := { s.outp with target := f.blend }, free := s.free + stageOpens raw }
  let s := six.foldl (fun t l => t.setLine l { t.line l with next := levelsOfLine f.levels l }) s
  { s with cas := { s.cas with
    policyHeld := f.policy, genSeen := f.gen, missed := raiseCount (s.missedNow f.seq) s.cas.missed,
    lastSeq := some f.seq } }

/-- The leader-lost state ends at a stage frame (R155). -/
def endLeaderLost (s : State) : State :=
  if s.cas.leaderLost then { s with cas := { s.cas with leaderLost := false, genHeld := 0 } } else s

/-- A stage frame on CAS_DIN that passes its checks, on a part that is not the leader; an ORPHAN part takes none, and no
frame for a stage past 3 is taken (R149, R150, R153, R155). -/
def stageFrameIn (s : State) (f : StageFrame) : State :=
  if s.isLeader then s
  else
    let s := (s.dinByte.watchHop f.hop).endLeaderLost
    let s := if isFollowerStage f.target ∧ s.cas.stage = some f.target then s.takeStage f else s
    s.emit (.stageFrame { f with hop := nextHop f.hop })

/-- A setup frame is applied (R154). -/
def applySetup (s : State) (raw : SetupFrame) : State :=
  let f := setupSettled raw s.free
  let s := { s with free := s.free + setupOpens raw }
  let s := six.foldl (fun t l => t.setLine l ((t.line l).take (f.lines.getD l.val defaultLine))) s
  { s with
    outp := { s.outp with safeFade := f.safeFade, lamp := f.lamp, safeLook := f.safe },
    cas := { s.cas with policyHeld := f.policy, house := f.house, genHeld := f.gen } }

/-- A setup frame on CAS_DIN that passes its checks, on a part that is not the leader (R149, R150, R154). -/
def setupFrameIn (s : State) (f : SetupFrame) : State :=
  if s.isLeader then s
  else
    let s := s.dinByte.watchHop f.hop
    let s :=
      if isFollowerStage f.target ∧ s.cas.stage = some f.target ∧ f.gen ≠ s.cas.genHeld then s.applySetup f else s
    s.emit (.setupFrame { f with hop := nextHop f.hop })

/-- The leader timer of a follower expires (R155). -/
def loseLeader (s : State) : State :=
  if s.isFollower ∧ s.cas.leaderLost = false then
    { s with cas := { s.cas with leaderLost := true },
             outp := { s.outp with target := if s.cas.policyHeld = .safe then 1000 else s.outp.target } }
  else s

/-- A frame error on a cascade input, counted on the parts that hold the count (R149). -/
def countError (s : State) (i : CasInput) : State :=
  match i with
  | .uin => { s with cas := { s.cas with uinErrors := raiseCount 1 s.cas.uinErrors } }
  | .din =>
    let s := s.dinByte
    if s.isLeader then s else { s with cas := { s.cas with dinErrors := raiseCount 1 s.cas.dinErrors } }

/-! ### Up frames -/

/-- The up frame a follower sends of its own (R157). -/
def ownUpFrame (s : State) (stage : Nat) : UpFrame :=
  let orphan := decide (s.cas.role = .orphan)
  { stage := min stage 255, orphan := orphan, leaderLost := s.cas.leaderLost, gen := s.cas.genHeld,
    lines := if orphan then List.replicate 6 lineOff else s.outp.lines.toList.map Line.toReport,
    events := if orphan then [] else s.cas.events.take 8 }

/-- UP_FRAME_SEND (R157): the events placed in the frame leave the queue. -/
def sendUp (s : State) : State :=
  match s.isFollower, s.cas.stage with
  | true, some stage =>
    let f := s.ownUpFrame stage
    ({ s with cas := { s.cas with events := s.cas.events.drop f.events.length } }).emit (.upFrame f)
  | _, _ => s

/-- A stage's entry becomes present at its first up frame (R158 step 1). -/
def joinStage (s : State) (n : Fin 3) (f : UpFrame) : State :=
  let e := s.cas.stages.get n
  if e.present then s
  else
    let e := { e with present := true, lines := List.replicate 6 lineOff }
    ({ s with cas := { s.cas with stages := s.cas.stages.set n e } }).report 0xE9 false
      (b1 (n.val + 1) ++ b1 f.gen ++ b1 (s.cas.gens.get n) ++ b1 (lockedCount f.lines))

/-- The reports of the lines of a stage, in order 1 to 6 (R159). -/
def reportStageLines (s : State) (n : Fin 3) (lines : List LineReport) : State :=
  (((s.cas.stages.get n).lines.zip lines).zipIdx).foldl
    (fun t e => t.rackReport (n.val + 1) (e.2 + 1) (stageNews e.1.1 e.1.2).2 (stageNews e.1.1 e.1.2).1) s

/-- An up frame of a stage is taken by the leader (R158). -/
def takeUp (s : State) (n : Fin 3) (raw : UpFrame) : State :=
  let f := upSettled raw s.free
  let s := { s with free := s.free + upOpens raw }
  let s := (s.joinStage n f).reportStageLines n f.lines
  let e : StageEntry :=
    { present := true, gen := f.gen, leaderLost := f.leaderLost, lines := f.lines, lastUp := s.sup.showTime }
  let s := { s with cas := { s.cas with stages := s.cas.stages.set n e } }
  f.events.foldl (fun t ev => t.tableEvent (n.val + 1) ev) s

/-- The orphan watch sees an ORPHAN up frame (R160). -/
def seeOrphan (s : State) : State :=
  if s.cas.orphanSeen then s
  else
    let t := { s with cas := { s.cas with orphanSeen := true } }
    t.raise (t.fault .chainTooLong false 0)

/-- An up frame on CAS_UIN that passes its checks: one without the ORPHAN flag that names stage 0 or a stage above 3 is a
frame error; any other is passed on by a follower, and taken by the leader (R149, R158, R160; logs 41 and 42). -/
def upFrameIn (s : State) (f : UpFrame) : State :=
  if f.orphan = false ∧ (stage? f.stage).isNone then s.countError .uin
  else if s.isFollower then s.emit (.upFrame f)
  else if s.isLeader then
    if f.orphan then s.seeOrphan
    else match stage? f.stage with
      | some n => (s.takeUp n f).pump
      | none => s
  else s

/-- A present entry becomes absent (R158). -/
def loseStage (s : State) (n : Fin 3) : State :=
  let e := s.cas.stages.get n
  if s.isLeader ∧ e.present then
    let s := { s with cas := { s.cas with stages := s.cas.stages.set n { e with present := false } } }
    let s := s.report 0xEA true (b1 (n.val + 1) ++ b4 e.lastUp ++ b1 (lockedCount e.lines))
    (s.raise { s.fault .stageLost false (n.val + 1) with stage := some (n.val + 1) }).pump
  else s

end State

/-! ### The meanings -/

/-- DEVICE_RESET (R179). -/
def execDeviceReset (stepMade : Option (List Nat)) (s : State) : Host.Outcome State Fault Refusal := .next (s.deviceReset stepMade)

/-- ROLE_DECIDED (R148). -/
def execRoleDecided (dinSeen : Bool) (s : State) : Host.Outcome State Fault Refusal := .next (s.decideRole dinSeen)

/-- CASCADE_FRAME_EXPIRY (R151). -/
def execCascadeFrameExpiry (s : State) : Host.Outcome State Fault Refusal := .next s.cascadeExpiry

/-- STAGE_FRAME (R153); a frame of a wrong length for its kind is a frame error (R149; log 33). -/
def execStageFrame (f : StageFrame) (s : State) : Host.Outcome State Fault Refusal :=
  .next (if f.fits then s.stageFrameIn f else s.countError .din)

/-- SETUP_FRAME (R154); a frame of a wrong length for its kind is a frame error (R149; log 33). -/
def execSetupFrame (f : SetupFrame) (s : State) : Host.Outcome State Fault Refusal :=
  .next (if f.fits then s.setupFrameIn f else s.countError .din)

/-- CASCADE_FRAME_ERROR (R149). -/
def execCascadeFrameError (i : CasInput) (s : State) : Host.Outcome State Fault Refusal := .next (s.countError i)

/-- CASCADE_BYTE_GAP (R149): two bytes of one frame more than 50 µs apart, a frame error of its own. -/
def execCascadeByteGap (i : CasInput) (s : State) : Host.Outcome State Fault Refusal := .next (s.countError i)

/-- LEADER_LOST (R155). -/
def execLeaderLost (s : State) : Host.Outcome State Fault Refusal := .next s.loseLeader

/-- UP_FRAME_SEND (R157). -/
def execUpFrameSend (s : State) : Host.Outcome State Fault Refusal := .next s.sendUp

/-- UP_FRAME (R158); a frame of a wrong length for its kind is a frame error (R149; log 33). -/
def execUpFrame (f : UpFrame) (s : State) : Host.Outcome State Fault Refusal :=
  .next (if f.fits then s.upFrameIn f else s.countError .uin)

/-- STAGE_LOST (R158) of stage 1 to 3; there is no entry of another stage (log 33). -/
def execStageLost (stage : Nat) (s : State) : Host.Outcome State Fault Refusal :=
  match stage? stage with
  | none => .next s
  | some n => .next (s.loseStage n)

/-- ORPHAN_WATCH_EXPIRY (R160). -/
def execOrphanWatchExpiry (s : State) : Host.Outcome State Fault Refusal :=
  .next { s with cas := { s.cas with orphanSeen := false } }

end Sys2Proof.Machine
end

