-- ==== Sys2Proof/Machine/House.lean ====
section
/-! DEFINITION. The house faders: HOUSE_FADE and the house fade step (R44, R45). -/

namespace Sys2Proof.Machine

/-- A house fader after one house fade step: the quotient of the difference is truncated toward zero (R45). -/
def HouseGroup.step (g : HouseGroup) : HouseGroup :=
  if g.steps = 0 then g
  else if g.level ≤ g.target then { g with level := g.level + (g.target - g.level) / g.steps, steps := g.steps - 1 }
  else { g with level := g.level - (g.level - g.target) / g.steps, steps := g.steps - 1 }

/-- A fade of a house fader starts; a time of 0 sets the level at once (R44). -/
def HouseGroup.fade (g : HouseGroup) (level time : Nat) : HouseGroup :=
  { g with target := level, steps := time * 10, level := if time = 0 then level else g.level }

namespace State

/-- HOUSE_FADE (R44). -/
def houseFadeWork (s : State) (q : Requester) (a : Fin 4 × Nat × Nat × Bool) : State :=
  let g := a.1
  let level := a.2.1
  let time := a.2.2.1
  ({ s with patch := { s.patch with groups := s.patch.groups.set g ((s.patch.groups.get g).fade level time) } }).answer
    q (okOr a.2.2.2) (b1 (num g) ++ b2 level ++ b2 time)

/-- One house fade step of the four faders (R45). -/
def stepHouse (s : State) : State :=
  { s with patch := { s.patch with groups := s.patch.groups.map HouseGroup.step } }

end State

/-! ### The meanings -/

/-- HOUSE_FADE (R44). -/
def execHouseFade (port : PortId) (s : State) : Host.Outcome State Fault Refusal :=
  .next (s.takeRequest port 0x59 parseHouseFade State.houseFadeWork)

/-- HOUSE_FADE_STEP (R45). -/
def execHouseFadeStep (s : State) : Host.Outcome State Fault Refusal := .next s.stepHouse

end Sys2Proof.Machine
end

