-- ==== Sys2Proof/Machine/Inputs.lean ====
section
/-! DEFINITION. The Cue Input Unit: raw contacts, debounce and actions (R79 to R82). -/

namespace Sys2Proof.Machine

/-- The action a debounced change makes under a setting (R81). -/
def InputSetting.action (a : InputSetting) (closed : Bool) : Option InputCommand :=
  match a, closed with
  | .go, true => some .go
  | .back, true => some .back
  | .hold, true => some .hold
  | .hold, false => some .resume
  | .go, false => none
  | .back, false => none

namespace State

/-- An action is ignored while HALTED, and while SILENT under FREEZE or SAFE (R81). -/
def ignoresInputs (s : State) : Bool :=
  s.sup.halted || (s.link.silent && (s.sup.loss = some .freeze || s.sup.loss = some .safe))

/-- An action that is not ignored, made on the bound playback (R81, R82). -/
def inputCommand (s : State) (i : Fin 4) (p : PbId) (a : InputCommand) : State :=
  match a with
  | .go => s.goCommand p (.input i) none false
  | .back =>
    match s.backCommand p with
    | .error st => s.inputResult i p .back (.refused st) 0
    | .ok (t, r) => t.inputResult i p .back .taken r.cue
  | .hold =>
    match s.holdCommand p with
    | .error st => s.inputResult i p .hold (.refused st) 0
    | .ok t => t.inputResult i p .hold .taken 0
  | .resume =>
    match s.resumeCommand p with
    | .error st => s.inputResult i p .resume (.refused st) 0
    | .ok t => t.inputResult i p .resume .taken 0

/-- A debounced change of an input becomes an action, or nothing (R81); a follower takes none (R162). -/
def actOnInput (s : State) (i : Fin 4) : State :=
  let x := s.inputs.get i
  if x.settings.enabled ∧ s.isFollower = false then
    match x.settings.action.action x.closed with
    | none => s
    | some a =>
      if s.ignoresInputs then s.inputResult i x.settings.playback a .ignored 0
      else s.inputCommand i x.settings.playback a
  else s

/-- A change of the raw contact restarts the stability timer (R80). -/
def changeContact (s : State) (i : Fin 4) (closed : Bool) : State :=
  let x := s.inputs.get i
  if x.raw = closed then s
  else { s with inputs := s.inputs.set i { x with raw := closed, timer := true } }

/-- The stability timer expires (R80). -/
def debounce (s : State) (i : Fin 4) : State :=
  let x := s.inputs.get i
  if x.timer = false then s
  else
    let s := { s with inputs := s.inputs.set i { x with timer := false, closed := x.raw } }
    if x.raw = x.closed then s else (s.actOnInput i).settle

end State

/-! ### The meanings -/

/-- CONTACT_CHANGE (R80); an input the part does not have changes nothing (log 33). -/
def execContactChange (input : Nat) (closed : Bool) (s : State) : Host.Outcome State Fault Refusal :=
  match idx4 input with
  | none => .next s
  | some i => .next (s.changeContact i closed)

/-- DEBOUNCE_EXPIRY (R80, R81); an input the part does not have has no timer (log 33). -/
def execDebounceExpiry (input : Nat) (s : State) : Host.Outcome State Fault Refusal :=
  match idx4 input with
  | none => .next s
  | some i => .next (s.debounce i)

end Sys2Proof.Machine
end

