-- ==== Sys2Proof/Machine/Parks.lean ====
section
/-! DEFINITION. PARK, UNPARK and BLACKOUT (R108 to R112). -/

namespace Sys2Proof.Machine.State

/-- The parks table with a channel's entry removed, if it has one. -/
def parksWithout (s : State) (c : Nat) : List Park := s.merge.parks.filter (fun p => p.channel ≠ c)

/-- PARK (R110): the channel's entry is removed and the new one joins the end (R109). -/
def parkWork (s : State) (q : Requester) (a : Nat × Nat × Bool) : State :=
  let old := s.parkOf a.1
  if old.isNone ∧ Config.parks ≤ s.merge.parks.length then s.answer q .parksFull []
  else
    let parks := s.parksWithout a.1 ++ [{ channel := a.1, level := a.2.1, owner := q.port }]
    ({ s with merge := { s.merge with parks := parks } }).answer q (okOr a.2.2)
      (b2 a.1 ++ b2 a.2.1 ++ b1 ((old.map (fun p : Park => ownerCode p.owner)).getD 0) ++ bOpt (old.map Park.level)
        ++ b1 parks.length)

/-- The parks that remain, and the reply (R111). -/
def keepParks (s : State) (q : Requester) (rest : List Park) : State :=
  ({ s with merge := { s.merge with parks := rest } }).answer q .ok
    (b1 (s.merge.parks.length - rest.length) ++ b1 rest.length)

/-- UNPARK (R111). -/
def unparkWork (s : State) (q : Requester) (c : Nat) : State :=
  if c = 0 then
    match q.port with
    | .console => s.keepParks q []
    | .aux => s.keepParks q (s.merge.parks.filter (fun p => p.owner ≠ .aux))
  else if (s.parkOf c).isNone then s.answer q .notFound []
  else s.keepParks q (s.parksWithout c)

/-- BLACKOUT (R108). -/
def blackoutWork (s : State) (q : Requester) (on : Bool) : State :=
  ({ s with merge := { s.merge with blackout := on } }).answer q .ok (bBool on ++ bBool s.merge.blackout)

end Sys2Proof.Machine.State

namespace Sys2Proof.Machine

/-! ### The meanings -/

/-- PARK (R110). -/
def execPark (port : PortId) (s : State) : Host.Outcome State Fault Refusal :=
  .next (s.takeRequest port 0x40 parsePark State.parkWork)

/-- UNPARK (R111). -/
def execUnpark (port : PortId) (s : State) : Host.Outcome State Fault Refusal :=
  .next (s.takeRequest port 0x41 parseUnpark State.unparkWork)

/-- BLACKOUT (R108). -/
def execBlackout (port : PortId) (s : State) : Host.Outcome State Fault Refusal :=
  .next (s.takeRequest port 0x5A parseBlackout State.blackoutWork)

end Sys2Proof.Machine
end

