-- ==== Sys2Proof/Machine/Ports.lean ====
section
/-! DEFINITION. The two ports: frame receivers, request queues, transmitters, the end of a silence, PING, ACCESS_SET and
requests of an unknown kind (R164 to R169, R171, R174 to R176). -/

namespace Sys2Proof.Machine

/-- A port whose receiver discards a frame: counted, and the hunt goes on as given (R165). -/
def Port.discard (x : Port) (r : Receiver) : Port := { x with errors := raiseCount 1 x.errors, receiver := r }

/-- BUSY replies in a reply queue that have not been started (R166). -/
def Port.busyWaiting (x : Port) : Nat := (x.replies.filter (fun r => r.status = .busy)).length

/-- Whether a frame is an overrun (R166). -/
def Port.overruns (x : Port) : Bool :=
  Config.requestQueue ≤ x.requests.length && Config.busyReplies ≤ x.busyWaiting

/-- Bytes passed over are ended by a sync byte: counted unless they follow a discarded frame (R165). -/
def Port.syncFound (x : Port) : Port :=
  match x.receiver with
  | .hunting false => { x with errors := raiseCount 1 x.errors, receiver := .gathering }
  | .hunting true => { x with receiver := .gathering }
  | .gathering => x

/-- A port whose frame has been sent; a reply other than BUSY is no longer owed (R167). -/
def Port.sent (x : Port) (f : Sending) : Port :=
  match f with
  | .reply r => { x with sending := none, owed := if r.status = .busy then x.owed else x.owed - 1 }
  | .report _ _ => { x with sending := none }

namespace State

/-- A valid frame on the Console Port: the timer restarts, or a silence ends with CONSOLE_RESTORED (R174, R175). -/
def consoleHeard (s : State) (kind : Byte) : State :=
  let link := { s.link with lastFrame := s.sup.showTime, timer := decide (0 < s.link.limit) && !s.isFollower }
  if s.link.silent then
    ({ s with link := { link with silent := false } }).report 0xEC false (b4 s.link.silence ++ [kind])
  else { s with link := link }

/-- The frame is heard by the silence timer, when the port is the Console Port. -/
def heard (s : State) (p : PortId) (kind : Byte) : State :=
  match p with
  | .console => s.consoleHeard kind
  | .aux => s

/-- A valid frame that is not an overrun is queued, or answered BUSY (R166). -/
def queueFrame (s : State) (p : PortId) (kind tag : Byte) (body : List Byte) : State :=
  let x := s.port p
  if x.requests.length < Config.requestQueue then
    s.setPort p { x with requests := x.requests ++ [{ kind := kind, tag := tag, body := body }] }
  else s.answer { port := p, tag := tag, kind := kind } .busy []

/-- A frame that passed the tests of R165, at the instant its last byte arrives (R166; log 6). -/
def receive (s : State) (p : PortId) (kind tag : Byte) (body : List Byte) : State :=
  if (s.port p).overruns then s.setPort p ((s.port p).discard (.hunting true))
  else
    let s := s.setPort p { s.port p with receiver := .hunting false }
    ((s.heard p kind).queueFrame p kind tag body).startReplies

/-- The transmitter of a port finishes its frame and, being free, starts the next (R168, R172). -/
def finishSending (s : State) (p : PortId) : State :=
  match (s.port p).sending with
  | none => s
  | some f => ((s.setPort p ((s.port p).sent f)).emit (.port p f)).pump

/-- The taking of a request whose kind is not in Table 10-2 (R169). -/
def takeUnknown (s : State) (p : PortId) : State :=
  match s.headRequest p with
  | none => s
  | some (r, rest) =>
    if (kindInfo r.kind.toNat).isSome then s
    else
      ((s.takeOff p rest).answer { port := p, tag := r.tag, kind := r.kind } ((s.gate p r.kind.toNat).getD .badValue)
        []).pump

/-- PING (R176). -/
def pingWork (s : State) (q : Requester) (echo : List Byte) : State :=
  s.answer q .ok (b2 2412 ++ bBool s.sup.halted ++ b4 s.sup.showTime ++ echo)

/-- ACCESS_SET (R171). -/
def accessSetWork (s : State) (q : Requester) (m : Mask) : State :=
  ({ s with link := { s.link with mask := m } }).answer q .ok (b1 s.link.mask.toNat ++ b1 m.toNat)

end State

/-! ### The meanings -/

/-- FRAME_RECEIVED (R166); a body above 1024 bytes is a frame that the receiver discards (R165). -/
def execFrameReceived (port : PortId) (kind tag : Byte) (body : List Byte) (s : State) :
    Host.Outcome State Fault Refusal :=
  .next (if isBody body then s.receive port kind tag body else s.setPort port ((s.port port).discard (.hunting true)))

/-- PORT_FRAME_ERROR (R165). -/
def execPortFrameError (port : PortId) (s : State) : Host.Outcome State Fault Refusal :=
  .next (s.setPort port ((s.port port).discard (.hunting true)))

/-- PORT_FRAME_GAP (R165): the hunt goes on from the late byte, which may be a sync byte. -/
def execPortFrameGap (port : PortId) (lateSync : Bool) (s : State) : Host.Outcome State Fault Refusal :=
  .next (s.setPort port ((s.port port).discard (if lateSync then .gathering else .hunting true)))

/-- SYNC_AFTER_BYTES_PASSED_OVER (R165). -/
def execSyncAfterBytesPassedOver (port : PortId) (s : State) : Host.Outcome State Fault Refusal :=
  .next (s.setPort port (s.port port).syncFound)

/-- FRAME_SENT (R168). -/
def execFrameSent (port : PortId) (s : State) : Host.Outcome State Fault Refusal := .next (s.finishSending port)

/-- PING (R176). -/
def execPing (port : PortId) (s : State) : Host.Outcome State Fault Refusal :=
  .next (s.takeRequest port 0x01 parsePing State.pingWork)

/-- ACCESS_SET (R171). -/
def execAccessSet (port : PortId) (s : State) : Host.Outcome State Fault Refusal :=
  .next (s.takeRequest port 0x5C parseAccessSet State.accessSetWork)

/-- UNKNOWN_KIND_REQUEST (R169). -/
def execUnknownKindRequest (port : PortId) (s : State) : Host.Outcome State Fault Refusal :=
  .next (s.takeUnknown port)

end Sys2Proof.Machine
end

