-- ==== Sys2Proof/Machine/Dispatch.lean ====
section
/-! DEFINITION. exec: one arm per command, each one call of its meaning. -/

namespace Sys2Proof.Machine

def exec (i : Instr) (s : State) : Host.Outcome State Fault Refusal :=
  match i with
  | .deviceReset stepMade => Sys2Proof.Machine.execDeviceReset stepMade s
  | .roleDecided dinSeen => Sys2Proof.Machine.execRoleDecided dinSeen s
  | .startUpReadDone answer => Sys2Proof.Machine.execStartUpReadDone answer s
  | .startUpDecision => Sys2Proof.Machine.execStartUpDecision s
  | .showTimeTick => Sys2Proof.Machine.execShowTimeTick s
  | .frameReceived port kind tag body => Sys2Proof.Machine.execFrameReceived port kind tag body s
  | .portFrameError port => Sys2Proof.Machine.execPortFrameError port s
  | .portFrameGap port lateSync => Sys2Proof.Machine.execPortFrameGap port lateSync s
  | .frameSent port => Sys2Proof.Machine.execFrameSent port s
  | .consoleSilent => Sys2Proof.Machine.execConsoleSilent s
  | .ping port => Sys2Proof.Machine.execPing port s
  | .status port => Sys2Proof.Machine.execStatus port s
  | .levelsRead port => Sys2Proof.Machine.execLevelsRead port s
  | .circuitRead port => Sys2Proof.Machine.execCircuitRead port s
  | .playbackRead port => Sys2Proof.Machine.execPlaybackRead port s
  | .rackRead port => Sys2Proof.Machine.execRackRead port s
  | .stageRead port => Sys2Proof.Machine.execStageRead port s
  | .cueRead port => Sys2Proof.Machine.execCueRead port s
  | .listRead port => Sys2Proof.Machine.execListRead port s
  | .bankInfo port => Sys2Proof.Machine.execBankInfo port s
  | .patchRead port => Sys2Proof.Machine.execPatchRead port s
  | .faultsRead port => Sys2Proof.Machine.execFaultsRead port s
  | .faultRecordRead port => Sys2Proof.Machine.execFaultRecordRead port s
  | .houseRead port => Sys2Proof.Machine.execHouseRead port s
  | .slotRead port => Sys2Proof.Machine.execSlotRead port s
  | .cueOpen port => Sys2Proof.Machine.execCueOpen port s
  | .cueAdd port => Sys2Proof.Machine.execCueAdd port s
  | .cueClose port => Sys2Proof.Machine.execCueClose port s
  | .cueAbandon port => Sys2Proof.Machine.execCueAbandon port s
  | .cueDelete port => Sys2Proof.Machine.execCueDelete port s
  | .patchSet port => Sys2Proof.Machine.execPatchSet port s
  | .windowSet port => Sys2Proof.Machine.execWindowSet port s
  | .bankTitle port => Sys2Proof.Machine.execBankTitle port s
  | .record port => Sys2Proof.Machine.execRecord port s
  | .go port => Sys2Proof.Machine.execGo port s
  | .back port => Sys2Proof.Machine.execBack port s
  | .hold port => Sys2Proof.Machine.execHold port s
  | .resume port => Sys2Proof.Machine.execResume port s
  | .jump port => Sys2Proof.Machine.execJump port s
  | .release port => Sys2Proof.Machine.execRelease port s
  | .master port => Sys2Proof.Machine.execMaster port s
  | .park port => Sys2Proof.Machine.execPark port s
  | .unpark port => Sys2Proof.Machine.execUnpark port s
  | .faultClear port => Sys2Proof.Machine.execFaultClear port s
  | .faultAck port => Sys2Proof.Machine.execFaultAck port s
  | .changeover port => Sys2Proof.Machine.execChangeover port s
  | .changeoverCancel port => Sys2Proof.Machine.execChangeoverCancel port s
  | .bankErase port => Sys2Proof.Machine.execBankErase port s
  | .houseSet port => Sys2Proof.Machine.execHouseSet port s
  | .curveSet port => Sys2Proof.Machine.execCurveSet port s
  | .houseCircuitsSet port => Sys2Proof.Machine.execHouseCircuitsSet port s
  | .safeLookSet port => Sys2Proof.Machine.execSafeLookSet port s
  | .lineSet port => Sys2Proof.Machine.execLineSet port s
  | .inputSet port => Sys2Proof.Machine.execInputSet port s
  | .houseFade port => Sys2Proof.Machine.execHouseFade port s
  | .blackout port => Sys2Proof.Machine.execBlackout port s
  | .lineHold port => Sys2Proof.Machine.execLineHold port s
  | .accessSet port => Sys2Proof.Machine.execAccessSet port s
  | .lossClear port => Sys2Proof.Machine.execLossClear port s
  | .restart port => Sys2Proof.Machine.execRestart port s
  | .unknownKindRequest port => Sys2Proof.Machine.execUnknownKindRequest port s
  | .fetchDone answer => Sys2Proof.Machine.execFetchDone answer s
  | .loadStepDone answer => Sys2Proof.Machine.execLoadStepDone answer s
  | .hostReadDone answer => Sys2Proof.Machine.execHostReadDone answer s
  | .writeStepDone answer => Sys2Proof.Machine.execWriteStepDone answer s
  | .storeTimeout => Sys2Proof.Machine.execStoreTimeout s
  | .patchNotice => Sys2Proof.Machine.execPatchNotice s
  | .listNotice => Sys2Proof.Machine.execListNotice s
  | .fadeStep => Sys2Proof.Machine.execFadeStep s
  | .followTimerCount => Sys2Proof.Machine.execFollowTimerCount s
  | .followExpiry playback => Sys2Proof.Machine.execFollowExpiry playback s
  | .houseFadeStep => Sys2Proof.Machine.execHouseFadeStep s
  | .darkCheck => Sys2Proof.Machine.execDarkCheck s
  | .blendStep => Sys2Proof.Machine.execBlendStep s
  | .followerBlendStep => Sys2Proof.Machine.execFollowerBlendStep s
  | .lineClockExpiry line => Sys2Proof.Machine.execLineClockExpiry line s
  | .returnFrame line cleanLine bytes => Sys2Proof.Machine.execReturnFrame line cleanLine bytes s
  | .contactChange input closed => Sys2Proof.Machine.execContactChange input closed s
  | .debounceExpiry input => Sys2Proof.Machine.execDebounceExpiry input s
  | .cascadeFrameExpiry => Sys2Proof.Machine.execCascadeFrameExpiry s
  | .stageFrame frame => Sys2Proof.Machine.execStageFrame frame s
  | .setupFrame frame => Sys2Proof.Machine.execSetupFrame frame s
  | .cascadeFrameError input => Sys2Proof.Machine.execCascadeFrameError input s
  | .cascadeByteGap input => Sys2Proof.Machine.execCascadeByteGap input s
  | .leaderLost => Sys2Proof.Machine.execLeaderLost s
  | .upFrameSend => Sys2Proof.Machine.execUpFrameSend s
  | .upFrame frame => Sys2Proof.Machine.execUpFrame frame s
  | .stageLost stage => Sys2Proof.Machine.execStageLost stage s
  | .orphanWatchExpiry => Sys2Proof.Machine.execOrphanWatchExpiry s
  | .engineFault place => Sys2Proof.Machine.execEngineFault place s
  | .syncAfterBytesPassedOver port => Sys2Proof.Machine.execSyncAfterBytesPassedOver port s

end Sys2Proof.Machine
end

