-- ==== Sys2Proof/Safety.lean ====
section
/-! DEFINITION. What the claims speak of: what stands inside the ports and the report queue, what a request's answer leaves on
its port, the bounds of queues and tables, and what counts as a safe run. -/

namespace Sys2Proof.Machine

/-- The replies a port still has to send, the one being sent first (R168). -/
def Port.outgoing (x : Port) : List Reply :=
  match x.sending with
  | some (.reply r) => r :: x.replies
  | _ => x.replies

/-- The reply to a request (R164). -/
def replyTo (r : Request) (st : Status) (fields : List Byte) : Reply :=
  { kind := if (kindInfo r.kind.toNat).isSome then r.kind + 0x80 else 0xFF, tag := r.tag, status := st, fields := fields }

/-- The requester of a request on a port. -/
def requesterOf (p : PortId) (r : Request) : Requester := { port := p, tag := r.tag, kind := r.kind }

/-- The other port. -/
def otherPort : PortId → PortId
  | .console => .aux
  | .aux => .console

/-- The request rows of the table: the port and the kind code (Table 10-2). -/
def requestOf : Instr → Option (PortId × Nat)
  | .ping p => some (p, 0x01) | .status p => some (p, 0x02) | .levelsRead p => some (p, 0x03)
  | .circuitRead p => some (p, 0x04) | .playbackRead p => some (p, 0x05) | .rackRead p => some (p, 0x06)
  | .stageRead p => some (p, 0x07) | .cueRead p => some (p, 0x08) | .listRead p => some (p, 0x09)
  | .bankInfo p => some (p, 0x0A) | .patchRead p => some (p, 0x0B) | .faultsRead p => some (p, 0x0C)
  | .faultRecordRead p => some (p, 0x0D) | .houseRead p => some (p, 0x0E) | .slotRead p => some (p, 0x0F)
  | .cueOpen p => some (p, 0x20) | .cueAdd p => some (p, 0x21) | .cueClose p => some (p, 0x22)
  | .cueAbandon p => some (p, 0x23) | .cueDelete p => some (p, 0x24) | .patchSet p => some (p, 0x25)
  | .windowSet p => some (p, 0x26) | .bankTitle p => some (p, 0x27) | .record p => some (p, 0x28)
  | .go p => some (p, 0x30) | .back p => some (p, 0x31) | .hold p => some (p, 0x32) | .resume p => some (p, 0x33)
  | .jump p => some (p, 0x34) | .release p => some (p, 0x35) | .master p => some (p, 0x36)
  | .park p => some (p, 0x40) | .unpark p => some (p, 0x41) | .faultClear p => some (p, 0x48)
  | .faultAck p => some (p, 0x49) | .changeover p => some (p, 0x50) | .changeoverCancel p => some (p, 0x51)
  | .bankErase p => some (p, 0x52) | .houseSet p => some (p, 0x53) | .curveSet p => some (p, 0x54)
  | .houseCircuitsSet p => some (p, 0x55) | .safeLookSet p => some (p, 0x56) | .lineSet p => some (p, 0x57)
  | .inputSet p => some (p, 0x58) | .houseFade p => some (p, 0x59) | .blackout p => some (p, 0x5A)
  | .lineHold p => some (p, 0x5B) | .accessSet p => some (p, 0x5C) | .lossClear p => some (p, 0x5D)
  | .restart p => some (p, 0x5E)
  | .deviceReset _ | .roleDecided _ | .startUpReadDone _ | .startUpDecision | .showTimeTick | .frameReceived _ _ _ _
  | .portFrameError _ | .portFrameGap _ _ | .frameSent _ | .consoleSilent | .unknownKindRequest _ | .fetchDone _
  | .loadStepDone _ | .hostReadDone _ | .writeStepDone _ | .storeTimeout | .patchNotice | .listNotice | .fadeStep
  | .followTimerCount | .followExpiry _ | .houseFadeStep | .darkCheck | .blendStep | .followerBlendStep
  | .lineClockExpiry _ | .returnFrame _ _ _ | .contactChange _ _ | .debounceExpiry _ | .cascadeFrameExpiry
  | .stageFrame _ | .setupFrame _ | .cascadeFrameError _ | .cascadeByteGap _ | .leaderLost | .upFrameSend | .upFrame _
  | .stageLost _ | .orphanWatchExpiry | .engineFault _ | .syncAfterBytesPassedOver _ => none

namespace State

/-- Everything but the two ports and the report queue with its flag. -/
def inside (s : State) : State :=
  { s with con := .reset, aux := .reset, link := { s.link with reports := [], lost := false } }

/-- Everything a playback command leaves alone: neither the ports and reports, nor the Store Controller, the playback
contexts, the slots, the input results or the raised faults. -/
def shell (s : State) : State :=
  { s.inside with
    ctl := .reset, eng := { s.eng with pb := Engine.reset.pb }, slots := [],
    inputs := s.inputs.map (fun x => { x with last := none }), sup := { s.sup with raised := [] } }

/-- A request stands at the head of a port's queue, and the port owes fewer than 13 replies (R167). -/
def Head (s : State) (p : PortId) (code : Nat) (r : Request) (rest : List Request) : Prop :=
  (s.port p).requests = r :: rest ∧ r.kind = byte code ∧ (s.port p).owed < 13

/-- The port may make the kinds of a group, and the part is no follower (checks 1 and 2 of R169). -/
def MayUse (s : State) (p : PortId) (g : Group) : Prop :=
  (p = .console ∨ s.link.mask.holds g = true) ∧ s.isFollower = false

/-- A request stands at the head of a port's queue, is owed no wait, and passes the first three general checks (R167,
R169). -/
def Takes (s : State) (p : PortId) (code : Nat) (r : Request) (rest : List Request) : Prop :=
  (s.port p).requests = r :: rest ∧ r.kind = byte code ∧ (s.port p).owed < 13 ∧ s.gate p code = none
    ∧ s.mustWait code = false

/-- A request has been taken off its port's queue, replies have been produced on that port, and everything else of the two
ports is as it was (R167, R168). -/
def Answered (s t : State) (p : PortId) (rest : List Request) (xs : List Reply) : Prop :=
  (t.port p).requests = rest ∧ (t.port p).owed = (s.port p).owed + 1
    ∧ (t.port p).outgoing = (s.port p).outgoing ++ xs
    ∧ (t.port p).builder = (s.port p).builder ∧ (t.port p).errors = (s.port p).errors
    ∧ (t.port p).receiver = (s.port p).receiver
    ∧ (t.port (otherPort p)).requests = (s.port (otherPort p)).requests
    ∧ (t.port (otherPort p)).owed = (s.port (otherPort p)).owed
    ∧ (t.port (otherPort p)).outgoing = (s.port (otherPort p)).outgoing
    ∧ (t.port (otherPort p)).builder = (s.port (otherPort p)).builder
    ∧ (t.port (otherPort p)).errors = (s.port (otherPort p)).errors
    ∧ (t.port (otherPort p)).receiver = (s.port (otherPort p)).receiver

/-- No report has been produced: the report queue and its flag are as they were, or its head has been started with the flag
as it stood, which then is clear (R172, R173). -/
def KeepsReports (s t : State) : Prop :=
  (t.link.reports = s.link.reports ∧ t.link.lost = s.link.lost)
    ∨ ∃ r, headReport s.link.reports = some r ∧ t.con.sending = some (.report r s.link.lost)
        ∧ t.link.reports = dropReport s.link.reports ∧ t.link.lost = false

/-- A request has been answered, no report has been produced, and everything inside stands as in u. -/
def Replies (s t : State) (p : PortId) (r : Request) (rest : List Request) (st : Status) (fields : List Byte)
    (u : State) : Prop :=
  s.Answered t p rest [replyTo r st fields] ∧ s.KeepsReports t ∧ t.inside = u.inside

/-- The slots when a playback that is HELD leaves it, unpaused; else as they are (R65). -/
def unpausedSlots (s : State) (q : PbId) : List Slot :=
  if (s.pb q).state = .held then s.slots.map (fun x : Slot => if x.playback = q then { x with paused := false } else x)
  else s.slots

/-- The store port performs an operation, or waits for a list notice to be taken, or nothing waits for it (R9; log 50). -/
def Calm (s : State) : Prop :=
  s.ctl.op.isSome = true
    ∨ (s.ctl.startUp = none ∧ s.eng.notices ≠ [])
    ∨ (s.ctl.startUp = none ∧ (∀ p, s.ctl.fetches.get p = none) ∧ s.loadWaiting = none ∧ s.ctl.hostReads = []
        ∧ s.ctl.queue = [])

/-- No write is at the port while a list notice waits, so the fetch a notice starts goes ahead of the next write, and no two
notices wait together (R9, R59). -/
def NoticeGoesFirst (s : State) : Prop :=
  (s.ctl.op = some .write → s.eng.notices = []) ∧ s.eng.notices.length ≤ 1

/-- The source of a pending GO of a playback is told that the GO ends CANCELLED or HALTED: a port by its reply, an input by
its result; a follow is told nothing (R67, R72, R82). -/
def tellPending (t : State) (p : PbId) (g : Option PendingGo) (st : Status) : State :=
  match g.map PendingGo.source with
  | some (.port q) => t.answer q st []
  | some (.input i) =>
    ({ t with inputs := t.inputs.set i { t.inputs.get i with last := some (.go, .refused st) } }).report 0xED false
      (b1 (num i) ++ b1 0 ++ b1 (num p) ++ b1 3 ++ b1 st.code ++ b2 0)
  | _ => t

/-- A house item has been handed over at a start-up read: it stands in the block that applies it and nothing else inside the
part has changed but the Store Controller. The last of the six items of the leader's lines starts them, an enabled line as
SEEKING with its clock running (Table 1-1, R2, R130). -/
def HasHanded (s : State) (item : HouseItem) (t : State) : Prop :=
  let becomes := fun (u : State) => t.inside = ({ u with ctl := t.ctl }).inside
  match item with
  | .resident b => becomes { s with bank := { s.bank with resident := b } }
  | .silence n => becomes { s with link := { s.link with limit := n, timer := !s.link.silent && decide (0 < n) } }
  | .policy p => becomes { s with sup := { s.sup with policy := p } }
  | .safeFade n => becomes { s with outp := { s.outp with safeFade := n } }
  | .backTime n => becomes { s with eng := { s.eng with backTime := n } }
  | .lamp n => becomes { s with outp := { s.outp with lamp := n } }
  | .curve n points => becomes { s with patch := { s.patch with curves := s.patch.curves.set (n - 1) points } }
  | .groups g =>
    becomes { s with patch := { s.patch with groups := t.patch.groups } }
      ∧ ∀ k, t.patch.groups.get k =
          { s.patch.groups.get k with members := (g.get k).members, curve := (g.get k).curve }
  | .safeLook e => becomes { s with outp := { s.outp with safeLook := e } }
  | .input i x => becomes { s with inputs := s.inputs.set i { s.inputs.get i with settings := x } }
  | .line stage l x =>
    match line? l, stage? stage with
    | none, _ => becomes s
    | some i, some n =>
      becomes { s with cas := { s.cas with lineItems := s.cas.lineItems.set n ((s.cas.lineItems.get n).set i x) } }
    | some i, none =>
      let lines := s.outp.lines.set i { s.line i with settings := some x }
      let all := s.isLeader = true ∧ s.outp.started = false ∧ ∀ k, (lines.get k).settings ≠ none
      (¬ all → becomes { s with outp := { s.outp with lines := lines } })
      ∧ (all → becomes { s with outp := { s.outp with lines := t.outp.lines, started := true } }
          ∧ ∀ k y, (lines.get k).settings = some y → t.line k = if y.enabled then
              { lines.get k with monitor := .seeking, goodRun := 0, badRun := 0, rack := none,
                                 clock := some (if y.slow then 40 else 20) }
            else lines.get k)

/-- The report a line of a stage calls for, from what the stage's entry holds and what its up frame reports (R159). -/
def tellStageLine (t : State) (stage line : Nat) (was now : LineReport) : State :=
  if now.monitor = .locked ∧ was.monitor ≠ .locked then
    t.report 0xE6 false (b1 stage ++ b1 line ++ b1 now.model ++ b1 now.count)
  else if now.monitor = .locked ∧ (was.model ≠ now.model ∨ was.count ≠ now.count) then
    t.report 0xE8 false (b1 stage ++ b1 line ++ b1 now.model ++ b1 now.count ++ b1 was.model ++ b1 was.count)
  else if was.monitor = .locked ∧ now.monitor = .lost then
    t.report 0xE7 true (b1 stage ++ b1 line ++ b1 was.model ++ b1 was.count)
  else t

/-- The sizes of the queues and tables (R11, R69, R88, R109, R143, R144, R166, R172, R184). -/
def Bounded (s : State) : Prop :=
  s.con.requests.length ≤ 8 ∧ s.aux.requests.length ≤ 8 ∧ s.link.reports.length ≤ 16 ∧ s.ctl.queue.length ≤ 8
    ∧ s.merge.parks.length ≤ 64 ∧ (s.merge.parks.map (fun x => x.channel)).Nodup
    ∧ s.outp.faults.length ≤ 64 ∧ s.cas.events.length ≤ 16
    ∧ s.slots.length ≤ 48 ∧ (s.slots.map (fun x => x.number)).Nodup ∧ (∀ x ∈ s.slots, 1 ≤ x.number ∧ x.number ≤ 48)
    ∧ poolUse s.slots ≤ 16384 ∧ (∀ p, (s.pb p).back.length ≤ 4) ∧ s.backUse ≤ 8192
    ∧ (∀ l, (s.line l).seq ≤ 255) ∧ s.sup.showTime < 4294967296

/-- A playback whose only slot is a RELEASE slot that takes every channel of its look to 0, with nothing to go back to and
no follow (R64, R76). -/
def FadingOut (s : State) (p : PbId) (x : Slot) : Prop :=
  s.slots.filter (fun y => y.playback = p) = [x] ∧ x.kind = .release ∧ (∀ m ∈ x.moves, m.target = 0)
    ∧ (∀ e ∈ (s.pb p).look, ∃ m ∈ x.moves, m.channel = e.1) ∧ (s.pb p).back = [] ∧ (s.pb p).follow = none

/-- With no active bank no playback is lit, moving or waiting, and nothing is patched (R29, R46, R115). -/
def StandsWithoutShow (s : State) : Prop :=
  s.bank.active = none → s.slots = [] ∧ s.patch.active = [] ∧ s.patch.windows = .empty
    ∧ ∀ p, (s.pb p).state = .empty ∧ (s.pb p).look = [] ∧ (s.pb p).back = [] ∧ (s.pb p).pendingGo = none

end State

/-- A new slot over the slots that a takeover leaves: the lowest free number, times in steps (R89, R90). -/
def madeSlot (slots : List Slot) (q : PbId) (kind : SlotKind) (cue : Option Nat) (up down upDelay downDelay : Nat)
    (moves : List Move) : Slot :=
  { number := freeSlot (takeover q moves slots), playback := q, kind := kind, cue := cue, up := up * 10,
    down := down * 10, upDelay := upDelay * 10, downDelay := downDelay * 10, elapsed := 0, paused := false,
    moves := moves }

/-- A line after a bad or missing return (R139). -/
def Line.missed (x : Line) : Line :=
  if x.monitor ≠ .locked then { x with goodRun := 0 }
  else if x.badRun + 1 < 5 then { x with goodRun := 0, badRun := x.badRun + 1 }
  else { x with
    goodRun := 0, badRun := x.badRun + 1, monitor := .lost,
    debounce := x.debounce.map (fun d : Debounce => { d with candidate := none, run := 0 }) }

/-- The bytes of a return frame (Table 8-2): status 0 OK, 1 to 4 a fault kind. -/
def returnBytes (seq : Nat) (model : Byte) (statuses : List CircuitStatus) : List Byte :=
  framed 0xA5 (b1 seq ++ [model] ++ b1 statuses.length ++ statuses.flatMap (fun st => b1 (conditionCode st)))

/-- A command answers a next state of which something holds. -/
def Runs (c : Instr) (s : State) (post : State → Prop) : Prop := ∃ t, exec c s = .next t ∧ post t

/-- A request is refused: the status alone is its reply, and nothing else changes (R168, R169). -/
def Refuses (c : Instr) (s : State) (p : PortId) (r : Request) (rest : List Request) (st : Status) : Prop :=
  Runs c s (fun t => s.Replies t p r rest st [] s)

/-- A request is done at once: its reply, and everything inside as in u. -/
def Does (c : Instr) (s : State) (p : PortId) (r : Request) (rest : List Request) (st : Status) (fields : List Byte)
    (u : State) : Prop :=
  Runs c s (fun t => s.Replies t p r rest st fields u)

/-- A command answers the state that the arbiter and the transmitters make of a state of which something holds (R9, R168;
logs 6 and 7). -/
def Settles (c : Instr) (s : State) (post : State → Prop) : Prop := ∃ u, exec c s = .next u.settle ∧ post u

/-- A request is answered at once, with everything inside as in u, before the arbiter and the transmitters act. -/
def Answers (c : Instr) (s : State) (p : PortId) (r : Request) (rest : List Request) (st : Status) (fields : List Byte)
    (u : State) : Prop :=
  Settles c s (fun t => s.Answered t p rest [replyTo r st fields] ∧ t.link = s.link ∧ t.inside = u.inside)

/-- A request is taken and its reply owed, with everything inside as in u, before the arbiter and the transmitters act. -/
def Owes (c : Instr) (s : State) (p : PortId) (rest : List Request) (u : State) : Prop :=
  Settles c s (fun t => s.Answered t p rest [] ∧ t.link = s.link ∧ t.inside = u.inside)

/-- The body size of the request kinds with fields of one size, as each rule gives it. -/
def bodySize (code : Nat) : Option Nat :=
  if code ∈ [0x02, 0x0C, 0x0D, 0x22, 0x23, 0x49, 0x51, 0x5D, 0x5E] then some 0
  else if code ∈ [0x05, 0x06, 0x07, 0x0A, 0x0E, 0x31, 0x32, 0x33, 0x52, 0x5A, 0x5C] then some 1
  else if code ∈ [0x41, 0x50, 0x5B] then some 2
  else if code ∈ [0x04, 0x0F, 0x30, 0x34, 0x35, 0x36, 0x48, 0x53] then some 3
  else if code ∈ [0x09, 0x0B, 0x24, 0x40, 0x58] then some 4
  else if code ∈ [0x03, 0x57, 0x59] then some 5
  else if code = 0x08 then some 6
  else if code = 0x26 then some 29
  else if code = 0x54 then some 43
  else none

/-- The size of a body whose own counts give it, as each rule does (R16, R19, R20, R34, R42, R77, R183). -/
def countedSize (code : Nat) (b : List Byte) : Option Nat :=
  let groupEnd := fun (i : Nat) => i + 2 + 2 * byteAt b (i + 1)
  if code = 0x20 then some (18 + byteAt b 17)
  else if code = 0x21 then some (1 + 3 * byteAt b 0)
  else if code = 0x25 then some (2 + 6 * byteAt b 1)
  else if code = 0x27 then some (2 + byteAt b 1)
  else if code = 0x28 then some (8 + byteAt b 7)
  else if code = 0x55 then some (groupEnd (groupEnd (groupEnd (groupEnd 0))))
  else if code = 0x56 then some (1 + 4 * byteAt b 0)
  else none

/-- Whether a body is of the size of its fields, fixed or given by its own counts. -/
def bodyFits (code : Nat) (b : List Byte) : Bool := bodySize code = some b.length || countedSize code b = some b.length

/-- A number that stands outside a range. -/
def outside (low high n : Nat) : Bool := n < low || high < n

/-- A text that holds a character outside 32 to 126 (R3). -/
def unprintable (t : List Byte) : Bool := t.any (fun x => outside 32 126 x.toNat)

/-- Whether a body of the size of its fields holds a field outside the range that its rule gives it and does not legalize:
the BAD_VALUE check of R169, for every kind (R15, R16, R19, R20, R23 to R26, R33, R34, R36, R37, R40, R42, R44, R61, R66,
R73 to R79, R83, R103, R108, R110, R111, R114, R117, R131, R137, R145, R147, R163, R170, R171, R178, R183). -/
def fieldOutOfRange (code : Nat) (b : List Byte) : Bool :=
  let bank := outside 0 3 (byteAt b 0)
  let list := outside 1 4 (byteAt b 1)
  let cue := fun (i : Nat) => outside 1 9999 (wordAt b i)
  let time := fun (i : Nat) => outside 0 6000 (wordAt b i)
  let present := fun (i : Nat) => wordAt b i != 65535
  let run := fun (i count last most : Nat) =>
    outside 1 last (wordAt b i) || outside 1 most count || last + 1 < wordAt b i + count
  let anyOf := fun (count : Nat) (wrong : Nat → Bool) => (List.range count).any wrong
  if code ∈ [0x05, 0x30, 0x31, 0x32, 0x33, 0x35, 0x59] then outside 1 4 (byteAt b 0)
  else if code = 0x03 then 5 < byteAt b 0 || (byteAt b 0 != 5 && run 1 (wordAt b 3) 1536 400)
  else if code = 0x04 then run 0 (byteAt b 2) 2304 96
  else if code = 0x06 then outside 1 6 (byteAt b 0)
  else if code = 0x07 then outside 1 3 (byteAt b 0)
  else if code = 0x08 then bank || list || cue 2 || 1535 < wordAt b 4
  else if code = 0x09 then bank || list || 9999 < wordAt b 2
  else if code = 0x0A ∨ code = 0x52 then bank
  else if code = 0x0B then bank || run 1 (byteAt b 3) 2304 96
  else if code = 0x0E then 3 < byteAt b 0
  else if code = 0x0F then outside 1 48 (byteAt b 0) || 1535 < wordAt b 1
  else if code = 0x20 then
    bank || list || cue 2 || time 4 || (present 6 && time 6) || time 8 || time 10 || (present 12 && time 12)
      || (present 14 && cue 14) || 1 < byteAt b 16 || 16 < byteAt b 17 || unprintable (b.drop 18)
  else if code = 0x21 then
    byteAt b 0 = 0 || anyOf (byteAt b 0) (fun i =>
      let n := byteAt b (1 + 3 * i) + 256 * byteAt b (2 + 3 * i) + 65536 * byteAt b (3 + 3 * i)
      outside 1 1536 (n % 2048) || 1000 < n / 2048)
  else if code = 0x24 then bank || list || cue 2
  else if code = 0x25 then
    bank || outside 1 64 (byteAt b 1)
      || anyOf (byteAt b 1) (fun i => outside 1 2304 (wordAt b (2 + 6 * i))
          || (present (4 + 6 * i) && (outside 1 1536 (wordAt b (4 + 6 * i)) || 100 < byteAt b (6 + 6 * i)
              || 7 < byteAt b (7 + 6 * i))))
      || anyOf (byteAt b 1 - 1) (fun i => wordAt b (8 + 6 * i) ≤ wordAt b (2 + 6 * i))
  else if code = 0x26 then
    bank || anyOf 4 (fun i => 1 < byteAt b (1 + 7 * i)
      || (byteAt b (1 + 7 * i) = 1 && (outside 1 2304 (wordAt b (2 + 7 * i)) || outside 1 2304 (wordAt b (4 + 7 * i))
          || wordAt b (4 + 7 * i) < wordAt b (2 + 7 * i) || outside 1 1536 (wordAt b (6 + 7 * i)))))
  else if code = 0x27 then bank || 24 < byteAt b 1 || unprintable (b.drop 2)
  else if code = 0x28 then
    outside 1 4 (byteAt b 0) || cue 1 || time 3 || (present 5 && time 5) || 16 < byteAt b 7 || unprintable (b.drop 8)
  else if code = 0x34 then outside 1 4 (byteAt b 0) || cue 1
  else if code = 0x36 then 4 < byteAt b 0
  else if code = 0x40 then outside 1 1536 (wordAt b 0)
  else if code = 0x41 then 1536 < wordAt b 0
  else if code = 0x48 then 2304 < wordAt b 0 || (wordAt b 0 != 0 && outside 1 4 (byteAt b 2))
  else if code = 0x50 then bank || 1 < byteAt b 1
  else if code = 0x53 then
    outside 1 6 (byteAt b 0) || (byteAt b 0 = 1 && 4 < wordAt b 1) || (byteAt b 0 = 3 && 2 < wordAt b 1)
  else if code = 0x54 then outside 1 7 (byteAt b 0)
  else if code = 0x55 then
    let next := fun (i : Nat) => i + 2 + 2 * byteAt b (i + 1)
    let groups := [0, next 0, next (next 0), next (next (next 0))]
    let members := fun (i : Nat) => (List.range (byteAt b (i + 1))).map (fun j => wordAt b (i + 2 + 2 * j))
    groups.any (fun i => 7 < byteAt b i || (members i).any (outside 1 2304) || !risesStrictly (members i))
      || !decide (groups.flatMap members).Nodup || 48 < (groups.flatMap members).length
  else if code = 0x56 then
    128 < byteAt b 0
      || anyOf (byteAt b 0) (fun i => outside 1 2304 (wordAt b (1 + 4 * i)) || 1000 < wordAt b (3 + 4 * i))
      || anyOf (byteAt b 0 - 1) (fun i => wordAt b (5 + 4 * i) ≤ wordAt b (1 + 4 * i))
  else if code = 0x57 then
    3 < byteAt b 0 || outside 1 6 (byteAt b 1) || 1 < byteAt b 2 || 1 < byteAt b 3 || 1 < byteAt b 4
  else if code = 0x58 then outside 1 4 (byteAt b 0) || 1 < byteAt b 1 || outside 1 4 (byteAt b 2) || 2 < byteAt b 3
  else if code = 0x5A then 1 < byteAt b 0
  else if code = 0x5B then 6 < byteAt b 0 || 1 < byteAt b 1
  else if code = 0x5C then 31 < byteAt b 0
  else false

/-- Whether a body passes the BAD_LENGTH and BAD_VALUE checks of its kind (R167, R169). -/
def bodyPasses (code : Nat) (b : List Byte) : Bool := bodyFits code b && !fieldOutOfRange code b

/-- The fields of a PATCH_READ reply for a run of circuits, a patch and a windows item; the bytes R36 leaves open are free. -/
def PatchReply (first count : Nat) (m : Assoc PatchEntry) (w : Windows) (fields : List Byte) : Prop :=
  fields.take 3 = b2 first ++ b1 count
  ∧ (∀ i, i < count →
      (Assoc.find m (first + i) = none → (fields.drop (3 + 4 * i)).take 2 = b2 65535)
      ∧ ∀ e, Assoc.find m (first + i) = some e →
          (fields.drop (3 + 4 * i)).take 4 = b2 e.channel ++ b1 e.proportion ++ b1 e.curve)
  ∧ fields.drop (3 + 4 * count) = b1 (four.filter (fun i => (w.get i).isSome)).length
      ++ four.flatMap (fun i => match w.get i with
        | some x => b1 (num i) ++ b2 x.first ++ b2 x.last ++ b2 x.channel
        | none => [])

/-- A safe run of a number of steps: it ends in neither a fault nor a refusal. -/
def SafeRun (n : Nat) (s : State) : Prop := ∃ t, core.run n s = .next t

end Sys2Proof.Machine
end

