-- ==== Sys2Proof/Certificates/Slice0/Obligations.lean ====
section
/-! DEFINITION. The statements for the provers. -/

open Sys2Proof Sys2Proof.Machine

/-! ### The queue, reset and start-up -/

/-- For every command and state, a step takes the command at the front of the queue and answers what exec answers with
the queue's rest. On an empty queue the block idles (the model's choice, log 2). -/
def Obligations.StepRunsTheFrontCommand : Prop :=
  (∀ (c : Instr) (s : State) (rest : List Instr),
     step { s with pending := c :: rest } = exec c { s with pending := rest })
  ∧ (∀ s : State, s.pending = [] → step s = .next s)

/-- The values a device reset leaves in the ports, the Store Controller, the playbacks, the merge, the lines, the
cascade with its stage table and a follower's own fields, and the Supervisor, with the contacts as found and the store
as R18 keeps it (R18, R63, R102, R104, R130, R148, R153, R154, R158, R171, R179, R185; in part also R150 to R152,
R174, R184). On the leader the safe look, safe-fade time and lamp threshold stand at their defaults until they are
handed over (the model's choice, log 25). Which store an abandoned write leaves, and which segments of it fail their
read, is told by the command's operand (the model's choice, logs 20 and 21). -/
def Obligations.DeviceResetValues : Prop :=
  ∀ (s : State) (stepMade : Option (List Nat)), Runs (.deviceReset stepMade) s (fun t =>
    (∀ p, (t.port p).requests = [] ∧ (t.port p).replies = [] ∧ (t.port p).sending = none ∧ (t.port p).owed = 0
      ∧ (t.port p).builder = none ∧ (t.port p).errors = 0 ∧ (t.port p).receiver = .hunting false)
    ∧ t.link.reports = [] ∧ t.link.lost = false ∧ t.link.silent = false ∧ t.link.timer = true ∧ t.link.limit = 20
    ∧ t.link.mask = { read := true, edit := false, playback := false, park := true, faults := false }
    ∧ t.ctl.queue = [] ∧ t.ctl.hostReads = [] ∧ t.ctl.op = some (.startUp 0)
    ∧ t.bank.active = none ∧ t.bank.change = none ∧ t.patch.active = [] ∧ t.patch.windows = .empty
    ∧ (∀ g, (t.patch.groups.get g).level = 0 ∧ (t.patch.groups.get g).target = 0 ∧ (t.patch.groups.get g).steps = 0)
    ∧ (∀ p, t.pb p = { state := .empty, look := [], lastRun := none, explicit := none, standby := .none, fetch := none,
                       pendingGo := none, follow := none, back := [], master := 1000 })
    ∧ t.slots = [] ∧ t.merge = { grand := 1000, blackout := false, parks := [] }
    ∧ (∀ l, (t.line l).hold = false ∧ (t.line l).clock = none ∧ (t.line l).seq = 255
        ∧ (t.line l).live = List.replicate 96 0 ∧ (t.line l).next = List.replicate 96 0 ∧ (t.line l).monitor = .off ∧ (t.line l).goodRun = 0
        ∧ (t.line l).badRun = 0 ∧ (t.line l).rack = none ∧ (t.line l).interval = false)
    ∧ t.outp.blend = 0 ∧ t.outp.target = 0 ∧ t.outp.faults = [] ∧ t.outp.notTabled = 0
    ∧ t.cas.role = .undecided ∧ t.cas.stage = none ∧ t.cas.gens = ⟨1, 1, 1⟩ ∧ t.cas.events = []
    ∧ t.cas.dinErrors = 0 ∧ t.cas.uinErrors = 0 ∧ t.cas.orphanSeen = false
    ∧ (∀ n, t.cas.stages.get n =
        { present := false, gen := 0, leaderLost := false, lastUp := 0,
          lines := List.replicate 6 { monitor := .off, model := 0, count := 0 } })
    ∧ t.cas.seqs = ⟨255, 255, 255⟩ ∧ t.cas.cand = none ∧ t.cas.candRun = 0 ∧ t.cas.genHeld = 0 ∧ t.cas.genSeen = 0
    ∧ t.cas.policyHeld = .freeze ∧ t.cas.lastSeq = none ∧ t.cas.missed = 0 ∧ t.cas.leaderLost = false ∧ t.cas.house = []
    ∧ t.outp.safeLook = [] ∧ t.outp.safeFade = 30 ∧ t.outp.lamp = 100
    ∧ t.sup.halted = false ∧ t.sup.record = none ∧ t.sup.loss = none ∧ t.sup.showTime = 0
    ∧ (∀ i, (t.inputs.get i).raw = (s.inputs.get i).raw ∧ (t.inputs.get i).closed = (s.inputs.get i).raw
        ∧ (t.inputs.get i).timer = false ∧ (t.inputs.get i).last = none)
    ∧ (s.ctl.op ≠ some .write → t.store = s.store) ∧ (stepMade = none → t.store = s.store)
    ∧ (∀ w ws damaged, s.ctl.op = some .write → s.ctl.queue = w :: ws → stepMade = some damaged →
        t.store = s.storeAfter w damaged)
    ∧ t.wire = s.wire ∧ t.pending = s.pending)

/-- The role is decided once: seen on CAS_DIN the idle level or a frame byte, the part is not the leader, drops what
was held back for one, and its Patch, Playback, Merge and hold flags stand at their device-reset values; otherwise it
is LEADER, and what was held back is delivered before its lines start (R2, R130, R148, R161, R162). That it puts back
what requests of the undecided time have set is the model's choice (log 44), and so is the grant at its end, which no
list notice then holds up (log 50). -/
def Obligations.RoleIsDecidedOnce : Prop :=
  ∀ s : State,
    (s.cas.role = .undecided → exec (.roleDecided true) s = .next
      ({ s with
        cas := { s.cas with role := .follower }
        ctl := { s.ctl with held := [], fetches := ⟨none, none, none, none⟩ }
        sup := { s.sup with raised := [] }
        link := { s.link with timer := false, reports := [], lost := false }
        patch := State.reset.patch, merge := State.reset.merge, eng := State.reset.eng, slots := []
        outp := { s.outp with lines := s.outp.lines.map (fun x : Line => { x with hold := false }) } } : State).settle)
    ∧ (s.cas.role = .undecided → exec (.roleDecided false) s = .next
        (s.ctl.held.foldl State.deliverHeld
          { s with cas := { s.cas with role := .leader }, ctl := { s.ctl with held := [] } }).startLines)
    ∧ (s.cas.role = .undecided → s.ctl.held = [] → s.outp.started = false → (∀ l, (s.line l).settings.isSome = true) →
        Runs (.roleDecided false) s (fun t => t.cas.role = .leader ∧ ∀ l x, (s.line l).settings = some x →
          t.line l = if x.enabled then
              { s.line l with monitor := .seeking, goodRun := 0, badRun := 0, rack := none,
                              clock := some (if x.slow then 40 else 20) }
            else s.line l))
    ∧ (s.cas.role ≠ .undecided → ∀ d, exec (.roleDecided d) s = .next s)

/-- The start-up reads follow one another, the 43 house items and then the four bank headers; an item that passes its
check is handed over, one that does not is listed as failed and its default of Table 1-1 handed over: held back while
the role is undecided, in its block at once on a part that is LEADER, where the last of the six items of the leader's
lines starts them, and dropped on a part that is not the leader. A header that does not pass leaves its bank BLANK. An
item or header passes where it is stored and its check value is the CRC-32 of its bytes (R2, R3, R6, R130). The order
within the house area and the layout of the bytes are the model's choices (logs 26 and 19). -/
def Obligations.StartUpReads : Prop :=
  ∀ (s : State) (i : Nat), s.ctl.op = some (.startUp i) →
    exec (.startUpReadDone .busy) s = .next s
    ∧ (∀ a : StoreAnswer, a ≠ .busy → i < 46 → Runs (.startUpReadDone a) s (fun t =>
        t.ctl.op = some (.startUp (i + 1)) ∧ t.ctl.startUp = some (i + 1)))
    ∧ (i ≤ 42 → s.cas.role = .undecided →
        (∀ item, s.storedItem i = some item → Runs (.startUpReadDone (.done true)) s (fun t =>
          t.ctl.held = s.ctl.held ++ [.item item false] ∧ t.ctl.failed = s.ctl.failed
            ∧ t.inside = ({ s with ctl := t.ctl }).inside))
        ∧ (∀ a : StoreAnswer, (a = .done false ∨ a = .notDone ∨ (a = .done true ∧ s.storedItem i = none)) →
            Runs (.startUpReadDone a) s (fun t => t.ctl.held = s.ctl.held ++ [.item (defaultItem i) false] ∧ t.ctl.failed = s.ctl.failed ++ [i]
              ∧ t.inside = ({ s with ctl := t.ctl }).inside)))
    ∧ (i ≤ 42 → s.cas.role = .leader →
        (∀ item, s.storedItem i = some item → Runs (.startUpReadDone (.done true)) s (fun t =>
          t.ctl.held = s.ctl.held ∧ t.ctl.failed = s.ctl.failed ∧ s.HasHanded item t))
        ∧ (∀ a : StoreAnswer, (a = .done false ∨ a = .notDone ∨ (a = .done true ∧ s.storedItem i = none)) →
            Runs (.startUpReadDone a) s (fun t => t.ctl.held = s.ctl.held ∧ t.ctl.failed = s.ctl.failed ++ [i]
              ∧ s.HasHanded (defaultItem i) t)))
    ∧ (i ≤ 42 → s.isFollower = true →
        (∀ item, s.storedItem i = some item → Runs (.startUpReadDone (.done true)) s (fun t =>
          t.ctl.held = s.ctl.held ∧ t.ctl.failed = s.ctl.failed ∧ t.inside = ({ s with ctl := t.ctl }).inside))
        ∧ (∀ a : StoreAnswer, (a = .done false ∨ a = .notDone ∨ (a = .done true ∧ s.storedItem i = none)) →
            Runs (.startUpReadDone a) s (fun t => t.ctl.held = s.ctl.held ∧ t.ctl.failed = s.ctl.failed ++ [i]
              ∧ t.inside = ({ s with ctl := t.ctl }).inside)))
    ∧ (∀ b : Bank, i = 43 + b.val →
        (∀ h, s.storedHeader b = some h → Runs (.startUpReadDone (.done true)) s (fun t =>
          t.ram b = h ∧ t.proj b = h ∧ t.ctl.held = s.ctl.held ∧ t.ctl.failed = s.ctl.failed
            ∧ t.inside = ({ s with ctl := t.ctl }).inside))
        ∧ (∀ a : StoreAnswer, (a = .done false ∨ a = .notDone ∨ (a = .done true ∧ s.storedHeader b = none)) →
            Runs (.startUpReadDone a) s (fun t => t.ram b = .blank ∧ t.proj b = .blank ∧ t.ctl.held = s.ctl.held
              ∧ t.ctl.failed = s.ctl.failed ∧ t.inside = ({ s with ctl := t.ctl }).inside)))
    ∧ (i = 46 → Runs (.startUpReadDone (.done true)) s (fun t =>
        t.ctl.startUp = none ∧ t.ctl.houseFailed = !s.ctl.failed.isEmpty))
    ∧ ([0, 1, 2, 3, 4, 5, 13, 14].map defaultItem = [.resident none, .silence 20, .policy .freeze, .safeFade 30, .backTime 20,
          .lamp 100, .groups ⟨⟨[], 0⟩, ⟨[], 0⟩, ⟨[], 0⟩, ⟨[], 0⟩⟩, .safeLook []]
        ∧ (∀ n, 1 ≤ n → n ≤ 7 → defaultItem (5 + n) = .curve n ((List.range 21).map (fun k => k * 65535 / 20)))
        ∧ (∀ stage l, stage ≤ 3 → 1 ≤ l → l ≤ 6 → defaultItem (15 + 6 * stage + (l - 1)) =
            .line stage l { enabled := true, slow := false, wide := false })
        ∧ ∀ k : Fin 4, defaultItem (39 + k.val) = .input k { enabled := false, playback := 0, action := .go })
    ∧ (∀ item, s.storedItem i = some item ↔ ∃ c, Assoc.find s.store.house i = some c ∧ c.value = item
        ∧ c.check = crc32 item.bytes)
    ∧ ∀ b h, s.storedHeader b = some h ↔ ∃ c, (s.store.banks.get b).header = some c ∧ c.value = h
        ∧ c.check = crc32 h.bytes

/-- The start-up decision of the leader: HOUSE_CHECK for failed house items, whether a changeover begins or not, then
a CUT changeover to the resident bank with no owed reply, unless there is none or it is reported BLANK (R127). That a
load step asked for while a list notice waits is not granted at once is the model's choice (log 50). -/
def Obligations.StartUpDecision : Prop :=
  ∀ s : State, s.isLeader = true → s.ctl.startUp = none → s.bank.decided = false → s.Calm →
    ((s.bank.resident = none ∨ ∃ b, s.bank.resident = some b ∧ s.reportedBlank b = true) →
      Runs .startUpDecision s (fun t =>
        t.inside = ({ s with
          bank := { s.bank with decided := true },
          sup := { s.sup with raised := s.sup.raised ++
            (if s.ctl.houseFailed then
              [({ kind := .houseCheck, critical := false, value := 0, playback := none, cue := none, bank := none,
                  stage := none, time := s.sup.showTime } : EngineFault)] else []) } }).inside))
    ∧ (∀ b, s.bank.resident = some b → s.reportedBlank b = false →
        Runs .startUpDecision s (fun t =>
          t.bank = { s.bank with
            decided := true,
            change := some
              { target := b, dark := false, position := 1, owed := none, waiting := false, darkSteps := 0 } }
          ∧ t.patch.pending = [] ∧ t.patch.pendingWindows = .empty ∧ t.patch.follows = some b
          ∧ t.patch.active = s.patch.active ∧ t.patch.windows = s.patch.windows
          ∧ (s.ctl.op = none → s.eng.notices = [] → t.ctl.op = some (.load b 1 true))
          ∧ ((s.ctl.op ≠ none ∨ s.eng.notices ≠ []) → t.ctl.op = s.ctl.op ∧ t.ctl.loadClaim = some 1)
          ∧ t.sup = { s.sup with raised := s.sup.raised ++
              (if s.ctl.houseFailed then
                [({ kind := .houseCheck, critical := false, value := 0, playback := none, cue := none, bank := none,
                    stage := none, time := s.sup.showTime } : EngineFault)] else []) }
          ∧ t.eng = s.eng ∧ t.slots = s.slots ∧ t.merge = s.merge ∧ t.outp = s.outp ∧ t.cas = s.cas))

/-- The show time rises by one at every tick and wraps after 4,294,967,295; nothing else changes but the length of a
silence. One blend step moves the factor toward its target by 1000 over the safe-fade steps, rounded up, on the
leader's timer or on a follower's own; one house fade step moves each fader that has steps remaining by its share of
the difference, truncated toward zero (R45, R156, R175, R182, R184; log 36). -/
def Obligations.TimersStep : Prop :=
  (∀ s : State, exec .showTimeTick s = .next
     { s with
       sup := { s.sup with showTime := (s.sup.showTime + 1) % 4294967296 },
       link := if s.link.silent then { s.link with silence := min (s.link.silence + 1) 4294967295 } else s.link })
  ∧ (∀ s : State,
       (∀ c : Instr, (c = .blendStep ∧ s.isFollower = false ∨ c = .followerBlendStep ∧ s.isFollower = true) →
         Runs c s (fun t => t = { s with outp := { s.outp with blend := t.outp.blend } }
           ∧ (s.outp.safeFade = 0 → t.outp.blend = s.outp.target)
           ∧ (0 < s.outp.safeFade →
               let step := (1000 + (s.outp.safeFade * 10 - 1)) / (s.outp.safeFade * 10)
               (s.outp.blend ≤ s.outp.target → t.outp.blend = min s.outp.target (s.outp.blend + step))
               ∧ (s.outp.target ≤ s.outp.blend → t.outp.blend = max s.outp.target (s.outp.blend - step)))))
       ∧ (s.isFollower = true → exec .blendStep s = .next s)
       ∧ (s.isFollower = false → exec .followerBlendStep s = .next s)
       ∧ Runs .houseFadeStep s (fun t => t = { s with patch := { s.patch with groups := t.patch.groups } }
           ∧ ∀ g, let x := s.patch.groups.get g
             (x.steps = 0 → t.patch.groups.get g = x)
             ∧ (0 < x.steps → t.patch.groups.get g = { x with
                 level := (t.patch.groups.get g).level, steps := x.steps - 1 })
             ∧ (0 < x.steps → ((t.patch.groups.get g).level : Int)
                 = x.level + ((x.target : Int) - x.level).tdiv x.steps)
             ∧ (x.steps = 1 → (t.patch.groups.get g).level = x.target)))

/-! ### The two ports -/

/-- A valid frame joins the request queue while it holds fewer than 8 requests; else it is answered BUSY while fewer
than 3 BUSY replies wait, and else it is an overrun, discarded and counted. On the Console Port a frame that is no
overrun restarts the silence timer and ends a silence. A discarded frame is counted up to 65535 and the hunt goes on
from the byte after it, or after a gap from the late byte; bytes passed over count once when a sync byte ends them,
unless they follow a discarded frame (R165, R166, R174, R175). A body above 1024 bytes, which no frame can carry, is a
frame discarded and counted, and CONSOLE_RESTORED stays queued and is not started by the frame received (the model's
choices, logs 33 and 6). -/
def Obligations.FramesAreReceivedOrDiscarded : Prop :=
  (∀ (s : State) (p : PortId) (kind tag : Byte) (body : List Byte),
     (1024 < body.length → exec (.frameReceived p kind tag body) s = .next (s.setPort p
         { s.port p with errors := min ((s.port p).errors + 1) 65535, receiver := .hunting true }))
     ∧ (body.length ≤ 1024 → 8 ≤ (s.port p).requests.length →
         3 ≤ ((s.port p).replies.filter (fun r => r.status = .busy)).length →
         exec (.frameReceived p kind tag body) s = .next (s.setPort p
           { s.port p with errors := min ((s.port p).errors + 1) 65535, receiver := .hunting true }))
     ∧ (body.length ≤ 1024 → (s.port p).requests.length < 8 → Runs (.frameReceived p kind tag body) s (fun t =>
         (t.port p).requests = (s.port p).requests ++ [{ kind := kind, tag := tag, body := body }]
         ∧ (t.port p).outgoing = (s.port p).outgoing))
     ∧ (body.length ≤ 1024 → 8 ≤ (s.port p).requests.length →
         ((s.port p).replies.filter (fun r => r.status = .busy)).length < 3 →
         Runs (.frameReceived p kind tag body) s (fun t =>
           (t.port p).requests = (s.port p).requests
           ∧ (t.port p).outgoing = (s.port p).outgoing
               ++ [{ kind := if (kindInfo kind.toNat).isSome then kind + 0x80 else 0xFF, tag := tag, status := .busy,
                     fields := [] }]))
     ∧ (body.length ≤ 1024 → ((s.port p).requests.length < 8 ∨
           ((s.port p).replies.filter (fun r => r.status = .busy)).length < 3) →
         Runs (.frameReceived p kind tag body) s (fun t =>
           (t.port p).owed = (s.port p).owed ∧ (t.port p).errors = (s.port p).errors
           ∧ (t.port p).builder = (s.port p).builder
           ∧ (t.port (otherPort p)).requests = (s.port (otherPort p)).requests
           ∧ (t.port (otherPort p)).outgoing = (s.port (otherPort p)).outgoing
           ∧ (p = .aux → t.inside = s.inside ∧ t.link.reports = s.link.reports)
           ∧ (p = .console → t.link.silent = false ∧ t.link.lastFrame = s.sup.showTime
               ∧ t.link.timer = (decide (0 < s.link.limit) && !s.isFollower)
               ∧ t.inside = ({ s with link :=
                   { s.link with
                     silent := false, lastFrame := s.sup.showTime,
                     timer := decide (0 < s.link.limit) && !s.isFollower } }).inside)
           ∧ (p = .console → s.link.silent = false → t.link.reports = s.link.reports)
           ∧ (p = .console → s.link.silent = true → s.isFollower = false → s.link.reports.length < 16 →
               t.link.reports = s.link.reports ++ [{ kind := 0xEC, urgent := false, time := s.sup.showTime,
                                                     fields := b4 s.link.silence ++ [kind] }]))))
  ∧ (∀ (s : State) (p : PortId),
       exec (.portFrameError p) s = .next (s.setPort p
         { s.port p with errors := min ((s.port p).errors + 1) 65535, receiver := .hunting true })
       ∧ exec (.portFrameGap p true) s = .next (s.setPort p
           { s.port p with errors := min ((s.port p).errors + 1) 65535, receiver := .gathering })
       ∧ exec (.portFrameGap p false) s = .next (s.setPort p
           { s.port p with errors := min ((s.port p).errors + 1) 65535, receiver := .hunting true })
       ∧ ((s.port p).receiver = .hunting false → exec (.syncAfterBytesPassedOver p) s = .next (s.setPort p
           { s.port p with errors := min ((s.port p).errors + 1) 65535, receiver := .gathering }))
       ∧ ((s.port p).receiver = .hunting true → exec (.syncAfterBytesPassedOver p) s = .next (s.setPort p
           { s.port p with receiver := .gathering }))
       ∧ ((s.port p).receiver = .gathering → exec (.syncAfterBytesPassedOver p) s = .next s))

/-- A transmitter that has sent its frame is free: it starts the oldest reply, and on the Console Port, when no reply
waits, the oldest urgent report, or else the oldest routine one, with the reports-lost flag, cleared at that instant.
A reply sent, other than BUSY, is no longer owed. A report produced joins the queue below 16; at 16 an urgent one
takes the place of the oldest routine one, any other is discarded, and the flag is set (R167, R168, R172, R173; log
8). -/
def Obligations.FramesAreSentAndReportsQueued : Prop :=
  (∀ (s : State) (p : PortId),
     ((s.port p).sending = none → exec (.frameSent p) s = .next s)
     ∧ (∀ f, (s.port p).sending = some f → Runs (.frameSent p) s (fun t =>
         t.wire = s.wire ++ [Output.port p f]
         ∧ (t.port p).requests = (s.port p).requests ∧ (t.port p).builder = (s.port p).builder
         ∧ (t.port p).errors = (s.port p).errors
         ∧ (∀ r rs, (s.port p).replies = r :: rs → (t.port p).sending = some (.reply r) ∧ (t.port p).replies = rs)
         ∧ ((s.port p).replies = [] → (t.port p).replies = [])
         ∧ ((s.port p).replies = [] → p = .aux → (t.port p).sending = none)
         ∧ ((s.port p).replies = [] → p = .console → State.headReport s.link.reports = none → (t.port p).sending = none)
         ∧ (∀ r, (s.port p).replies = [] → p = .console → State.headReport s.link.reports = some r →
             (t.port p).sending = some (.report r s.link.lost) ∧ t.link.reports = State.dropReport s.link.reports
               ∧ t.link.lost = false)
         ∧ (∀ r, f = .reply r → (t.port p).owed = if r.status = .busy then (s.port p).owed else (s.port p).owed - 1)
         ∧ (∀ r b, f = .report r b → (t.port p).owed = (s.port p).owed)
         ∧ (t.port (otherPort p)).outgoing = (s.port (otherPort p)).outgoing
         ∧ t.inside = ({ s with wire := s.wire ++ [Output.port p f] }).inside)))
  ∧ ((∀ (q : List Report) (r : Report), State.headReport q = some r ↔
         (q.find? (fun x => x.urgent) = some r ∨ (q.find? (fun x => x.urgent) = none ∧ q.head? = some r)))
     ∧ ∀ (s : State) (kind : Nat) (urgent : Bool) (fields : List Byte), s.isFollower = false →
         let r : Report := { kind := byte kind, urgent := urgent, time := s.sup.showTime, fields := fields }
         (s.link.reports.length < 16 →
           s.report kind urgent fields = { s with link := { s.link with reports := s.link.reports ++ [r] } })
         ∧ (∀ (front back : List Report) (x : Report), 16 ≤ s.link.reports.length → urgent = true → s.link.reports = front ++ x :: back →
             front.all (fun y => y.urgent) = true → x.urgent = false →
             s.report kind urgent fields
               = { s with link := { s.link with reports := front ++ back ++ [r], lost := true } })
         ∧ (16 ≤ s.link.reports.length → (urgent = false ∨ s.link.reports.all (fun y => y.urgent) = true) →
             s.report kind urgent fields = { s with link := { s.link with lost := true } }))

/-- When the silence timer expires, the link becomes SILENT, CONSOLE_SILENT is produced, and the loss policy is
applied once: CONTINUE leaves everything, FREEZE holds every RUNNING playback and every SETTLED one whose follow timer
runs, and SAFE also sends the blend target to 1000. The timer runs on the leader alone while the link is LINKED (R174,
R175, R180). The due mark of a follow timer is cleared on entering HELD, and while the role is undecided no silence
acts (the model's choices, logs 23 and 30). -/
def Obligations.SilenceAppliesThePolicy : Prop :=
  ∀ s : State,
    (s.isLeader = true → s.link.timer = true → s.link.silent = false → Runs .consoleSilent s (fun t =>
      t.link.silent = true ∧ t.link.timer = false ∧ t.link.silence = 0 ∧ t.link.limit = s.link.limit
      ∧ t.link.mask = s.link.mask ∧ t.sup = { s.sup with loss := some s.sup.policy }
      ∧ (s.report 0xEB true (b1 s.link.limit ++ b4 s.link.lastFrame ++ b1 (policyCode s.sup.policy))).KeepsReports t
      ∧ t.outp = (if s.sup.policy = .safe then { s.outp with target := 1000 } else s.outp)
      ∧ (∀ p, t.pb p =
          if s.sup.policy ≠ .continue_ ∧ ((s.pb p).state = .running
              ∨ ((s.pb p).state = .settled ∧ (s.pb p).follow.isSome = true)) then
            { s.pb p with state := .held, follow := (s.pb p).follow.map (fun f => { f with paused := true, due := false }) }
          else s.pb p)
      ∧ t.slots = s.slots.map (fun sl =>
          if s.sup.policy ≠ .continue_ ∧ ((s.pb sl.playback).state = .running
              ∨ ((s.pb sl.playback).state = .settled ∧ (s.pb sl.playback).follow.isSome = true)) then
            { sl with paused := true }
          else sl)
      ∧ t.merge = s.merge ∧ t.bank = s.bank ∧ t.patch = s.patch ∧ t.ctl = s.ctl ∧ t.cas = s.cas ∧ t.inputs = s.inputs))
    ∧ ((s.isLeader = false ∨ s.link.timer = false ∨ s.link.silent = true) → exec .consoleSilent s = .next s)

/-! ### The general checks -/

/-- A request that fails one of the general checks is answered with its status alone and changes nothing else:
NOT_PERMITTED by rank and mask, FOLLOWER but for STATUS, HALTED by the kind's column, BAD_LENGTH for a body that is
not of the size of its fields, where the size is fixed or its own counts give it (CUE_OPEN, CUE_ADD, PATCH_SET,
BANK_TITLE, RECORD, HOUSE_CIRCUITS_SET, SAFE_LOOK_SET), and BAD_VALUE for a body of that size with a field outside the
range that its kind's own rule gives it and does not legalize, for every kind that has fields (fieldOutOfRange); a
request of a kind not in Table 10-2 is answered under the kind 0xFF (R161, R169, R170, R171). The size of PING's body is
stated with PING. While the role is undecided a request meets the checks of a leader (the model's choice, log 44). -/
def Obligations.GeneralChecksRefuse : Prop :=
  (∀ (c : Instr) (p : PortId) (code : Nat) (s : State) (r : Request) (rest : List Request) (st : Status),
     requestOf c = some (p, code) → s.Head p code r rest → s.gate p code = some st → Refuses c s p r rest st)
  ∧ (∀ (s : State) (p : PortId) (code : Nat),
       (p = .aux → kindInfo code = none → s.gate p code = some .notPermitted)
       ∧ (∀ g h, p = .aux → kindInfo code = some (g, h) → s.link.mask.holds g = false → s.gate p code = some .notPermitted)
       ∧ (∀ g h, (p = .console ∨ s.link.mask.holds g = true) → kindInfo code = some (g, h) →
           (s.isFollower = true → code ≠ 0x02 → s.gate p code = some .follower)
           ∧ (s.isFollower = false → s.sup.halted = true → h = false → s.gate p code = some .halted)
           ∧ (s.isFollower = false → (s.sup.halted = false ∨ h = true) → s.gate p code = none)
           ∧ (code = 0x02 → s.gate p code = none))
       ∧ s.link.mask.holds .consoleOnly = false ∧ s.link.mask.holds .always = true)
  ∧ (∀ (c : Instr) (p : PortId) (code n : Nat) (s : State) (r : Request) (rest : List Request),
       requestOf c = some (p, code) → s.Head p code r rest → s.gate p code = none → bodySize code = some n →
       r.body.length ≠ n → Refuses c s p r rest .badLength)
  ∧ (∀ (c : Instr) (p : PortId) (code n : Nat) (s : State) (r : Request) (rest : List Request),
       requestOf c = some (p, code) → s.Head p code r rest → s.gate p code = none → countedSize code r.body = some n →
       r.body.length ≠ n → Refuses c s p r rest .badLength)
  ∧ (∀ (c : Instr) (p : PortId) (code : Nat) (s : State) (r : Request) (rest : List Request),
       requestOf c = some (p, code) → s.Head p code r rest → s.gate p code = none → bodyFits code r.body = true →
       fieldOutOfRange code r.body = true → Refuses c s p r rest .badValue)
  ∧ (∀ (s : State) (p : PortId) (r : Request) (rest : List Request),
       (s.port p).requests = r :: rest → (s.port p).owed < 13 → kindInfo r.kind.toNat = none →
       replyTo r .badValue [] = { kind := 0xFF, tag := r.tag, status := .badValue, fields := [] }
       ∧ (p = .aux → Refuses (.unknownKindRequest p) s p r rest .notPermitted)
       ∧ (p = .console → s.isFollower = true → Refuses (.unknownKindRequest p) s p r rest .follower)
       ∧ (p = .console → s.isFollower = false → s.sup.halted = true → Refuses (.unknownKindRequest p) s p r rest .halted)
       ∧ (p = .console → s.isFollower = false → s.sup.halted = false → Refuses (.unknownKindRequest p) s p r rest .badValue))

/-- Nothing is taken from a port that owes 13 replies, from an empty queue, or while another request stands at the
head. While the start-up reads run, a request of any kind that needs the Store Controller and passes the general
checks, its body's among them, waits at the head of its queue; a CHANGEOVER and a CHANGEOVER_CANCEL wait for the
start-up decision (R9, R127, R167; log 1). -/
def Obligations.RequestsAreTakenInTurn : Prop :=
  (∀ (c : Instr) (p : PortId) (code : Nat) (s : State), requestOf c = some (p, code) →
     (13 ≤ (s.port p).owed → exec c s = .next s)
     ∧ ((s.port p).requests = [] → exec c s = .next s)
     ∧ (∀ r rest, (s.port p).requests = r :: rest → r.kind.toNat ≠ code → exec c s = .next s))
  ∧ (∀ (c : Instr) (p : PortId) (code : Nat) (s : State) (r : Request) (rest : List Request),
       requestOf c = some (p, code) → needsStore code = true → s.ctl.startUp.isSome = true → s.Head p code r rest →
       s.gate p code = none →
       (bodyPasses code r.body = true → exec c s = .next s)
       ∧ (bodyPasses code r.body = false → Refuses c s p r rest .badLength ∨ Refuses c s p r rest .badValue))
  ∧ (∀ code : Nat, needsStore code = true ↔ code ∈ [0x20, 0x21, 0x22, 0x23, 0x24, 0x25, 0x26, 0x27, 0x28, 0x52, 0x53, 0x54,
       0x55, 0x56, 0x57, 0x58, 0x08, 0x09, 0x0A, 0x0B])
  ∧ (∀ (s : State) (p : PortId) (r : Request) (rest : List Request),
       (∀ b, s.ctl.startUp.isSome = true → s.Head p 0x0A r rest → s.gate p 0x0A = none → r.body = b1 b → b < 4 →
         exec (.bankInfo p) s = .next s)
       ∧ (s.ctl.startUp.isSome = true → s.Head p 0x22 r rest → s.gate p 0x22 = none → r.body = [] →
           exec (.cueClose p) s = .next s)
       ∧ (s.bank.decided = false → s.Head p 0x51 r rest → s.gate p 0x51 = none → r.body = [] →
           exec (.changeoverCancel p) s = .next s)
       ∧ (∀ b m, s.bank.decided = false → s.Head p 0x50 r rest → s.gate p 0x50 = none → r.body = b1 b ++ b1 m → b < 4 →
           m < 2 → exec (.changeover p) s = .next s))

/-! ### Reads -/

/-- PING tests the link from either port under any mask and in either engine state: it echoes up to 16 bytes after the
part code, the engine state and the show time, and does nothing else; more is BAD_LENGTH, and a follower answers
FOLLOWER. Like every valid frame on the Console Port it restarts the silence timer (R176). -/
def Obligations.PingEchoes : Prop :=
  ∀ (s : State) (p : PortId) (r : Request) (rest : List Request), s.Head p 0x01 r rest →
    (s.isFollower = true → Refuses (.ping p) s p r rest .follower)
    ∧ (s.isFollower = false → 16 < r.body.length → Refuses (.ping p) s p r rest .badLength)
    ∧ (s.isFollower = false → r.body.length ≤ 16 →
        Does (.ping p) s p r rest .ok (b2 2412 ++ bBool s.sup.halted ++ b4 s.sup.showTime ++ r.body) s)
    ∧ (∀ tag body, s.isFollower = false → body.length ≤ 16 → s.con.requests.length < 8 → 0 < s.link.limit →
        Runs (.frameReceived .console 0x01 tag body) s (fun t => t.link.timer = true ∧ t.link.silent = false))

/-- STATUS is answered at once in every role and engine state, and changes nothing but the reply owed; a follower has
its own form (R161, R177). The replies owed that it shows count the STATUS reply itself (the model's choice, log 8).
Before the role is decided its role byte is a free value, and a count is used up (log 10). Its last action result
before any action is 255, 255 and status 0, and a follower's stage is capped at 255 (the model's choices, logs 13 and
37). The flags it shows (a stage's presence, an input's enabled byte, reports lost, and on a follower stage valid,
setup current and leader-lost) are 1 when set and 0 when not, as is the blackout state when ON, since R161 and R177
give them no code (the model's choice, log 52). -/
def Obligations.StatusAnswers : Prop :=
  ∀ (s : State) (p : PortId) (r : Request) (rest : List Request), s.Head p 0x02 r rest →
    (p = .console ∨ s.link.mask.read = true) → r.body = [] →
    let afterRole := bBool s.sup.halted ++ b1 (State.recordCode s.sup.record) ++ b1 (lossCode s.sup.loss)
        ++ b1 (policyCode s.sup.policy) ++ bBool s.link.silent ++ b1 s.link.limit ++ b1 (bankCode s.bank.active)
        ++ (match s.bank.change with
            | none => b1 0 ++ b1 4 ++ b1 255 ++ b1 0
            | some c => b1 (if c.waiting then 2 else 1) ++ b1 c.target.val ++ bBool c.dark ++ b1 c.position)
        ++ s.eng.pb.toList.flatMap (fun x => b1 x.state.code)
        ++ b1 s.slots.length ++ b2 (poolUse s.slots) ++ b2 s.backUse
        ++ b2 s.merge.grand ++ bBool s.merge.blackout ++ b1 s.merge.parks.length
        ++ b1 s.ctl.queue.length ++ b1 s.ctl.hostReads.length ++ b2 s.outp.blend ++ b2 s.outp.target
        ++ s.outp.lines.toList.flatMap (fun x => b1 (monitorCode x.monitor))
        ++ s.cas.stages.toList.flatMap (fun e => bBool e.present)
        ++ b1 s.outp.faults.length ++ b1 (s.outp.faults.filter (fun x => x.present)).length
        ++ s.inputs.toList.flatMap (fun x => bBool x.closed ++ bBool x.settings.enabled ++ x.lastFields)
        ++ b1 s.link.mask.toNat ++ b2 s.con.errors ++ b2 s.aux.errors
        ++ b1 rest.length ++ b1 ((s.port p).owed + 1)
        ++ b1 s.link.reports.length ++ bBool s.link.lost ++ b4 s.sup.showTime
    (s.cas.role = .leader → Does (.status p) s p r rest .ok (b1 0 ++ afterRole) s)
    ∧ (s.isFollower = true → Does (.status p) s p r rest .ok
        (b1 (if s.cas.role = .orphan then 2 else 1) ++ b1 (min (s.cas.stage.getD 0) 255) ++ bBool s.cas.stage.isSome
          ++ b1 s.cas.genHeld ++ b1 s.cas.genSeen ++ bBool (decide (s.cas.genSeen = s.cas.genHeld))
          ++ bBool s.cas.leaderLost ++ b1 (policyCode s.cas.policyHeld) ++ b2 s.outp.blend ++ b2 s.outp.target
          ++ s.outp.lines.toList.flatMap (fun x =>
              b1 (monitorCode x.monitor) ++ b1 (x.rack.getD (0, 0)).1 ++ b1 (x.rack.getD (0, 0)).2)
          ++ b1 s.cas.events.length ++ b2 s.cas.dinErrors ++ b2 s.cas.uinErrors ++ b2 s.cas.missed) s)
    ∧ (s.cas.role = .undecided → ∃ role : Byte, Does (.status p) s p r rest .ok ([role] ++ afterRole) { s with free := s.free + 1 })

/-- LEVELS_READ answers the channel outputs with the parked flags, the look of a playback, or the parks table;
CIRCUIT_READ answers the levels and sources of a run of circuits as the active patch gives them at that instant. Both
are taken from either port with READ, in either engine state, with or without an active bank (R37, R114). The count in
the reply of CIRCUIT_READ, which R37 marks with 1 byte in the request alone, takes 1 byte there too (the model's
choice, log 13). The blackout state in the reply of LEVELS_READ has the codes of the request BLACKOUT (the model's
choice, log 52), and the bits past the last channel of the run are free values (log 35). -/
def Obligations.LevelsAndCircuitsAreRead : Prop :=
  (∀ (s : State) (p : PortId) (r : Request) (rest : List Request), s.Head p 0x03 r rest → s.MayUse p .read →
     let source := byteAt r.body 0
     let first := wordAt r.body 1
     let count := wordAt r.body 3
     let header := b1 source ++ b2 s.merge.grand ++ bBool s.merge.blackout ++ b1 s.merge.parks.length
     let outputs := header ++ b2 first ++ b2 count ++ (List.range count).flatMap (fun i => b2 (s.output (first + i)))
         ++ packBits ((List.range count).map (fun i => (s.parkOf (first + i)).isSome))
     let table := header ++ s.merge.parks.flatMap (fun x => b2 x.channel ++ b2 x.level ++ b1 (ownerCode x.owner))
     (r.body.length ≠ 5 → Refuses (.levelsRead p) s p r rest .badLength)
     ∧ (r.body.length = 5 → 5 < source → Refuses (.levelsRead p) s p r rest .badValue)
     ∧ (r.body.length = 5 → source ≤ 4 → (first < 1 ∨ 1536 < first ∨ count < 1 ∨ 400 < count ∨ 1537 < first + count) →
         Refuses (.levelsRead p) s p r rest .badValue)
     ∧ (r.body.length = 5 → 1 ≤ first → 1 ≤ count → count ≤ 400 → first + count ≤ 1537 →
         (source = 0 → Does (.levelsRead p) s p r rest .ok outputs s)
         ∧ (∀ q : PbId, source = num q → Does (.levelsRead p) s p r rest .ok
             (header ++ b2 (s.pb q).master ++ b2 first ++ b2 count
               ++ (List.range count).flatMap (fun i => b2 ((s.pb q).look.level (first + i)))) s)
         ∧ (source = 0 → count = 400 → outputs.length = 859))
     ∧ (r.body.length = 5 → source = 5 → Does (.levelsRead p) s p r rest .ok table s)
     ∧ (s.merge.parks.length = 64 → table.length = 325)
     ∧ ∀ flags : List Bool, (packBits flags).length = (flags.length + 7) / 8
         ∧ ∀ i, i < flags.length → ((packBits flags).getD (i / 8) 0).getLsbD (i % 8) = flags.getD i false)
  ∧ (∀ (s : State) (p : PortId) (r : Request) (rest : List Request), s.Head p 0x04 r rest → s.MayUse p .read →
       let first := wordAt r.body 0
       let count := byteAt r.body 2
       (r.body.length ≠ 3 → Refuses (.circuitRead p) s p r rest .badLength)
       ∧ (r.body.length = 3 → (first < 1 ∨ 2304 < first ∨ count < 1 ∨ 96 < count ∨ 2305 < first + count) →
           Refuses (.circuitRead p) s p r rest .badValue)
       ∧ (r.body.length = 3 → 1 ≤ first → 1 ≤ count → count ≤ 96 → first + count ≤ 2305 →
           Does (.circuitRead p) s p r rest .ok
             (b2 first ++ b1 count ++ (List.range count).flatMap (fun i =>
               b2 (s.circuitLevel (first + i)) ++
                 (match s.circuitSource (first + i) with
                  | .none => b1 0 ++ b2 0
                  | .entry c => b1 1 ++ b2 c
                  | .window c => b1 2 ++ b2 c
                  | .house g => b1 3 ++ b2 (num g)))) s))

/-- PLAYBACK_READ answers a playback's context, and SLOT_READ one fade slot with up to 100 of its moves from the first
index and their present levels, both at once and in either engine state; a free slot is NOT_FOUND (R83, R103).
PLAYBACK_READ sends 0 for the paused byte of an idle follow timer and for the input number where no input's GO is
pending (the model's choice, log 43). The paused bytes of PLAYBACK_READ and SLOT_READ, which R83 and R103 give no
code, are 1 for paused and 0 for not (the model's choice, log 52). -/
def Obligations.PlaybacksAndSlotsAreRead : Prop :=
  (∀ (s : State) (p : PortId) (r : Request) (rest : List Request), s.Head p 0x05 r rest → s.MayUse p .read →
     (r.body.length ≠ 1 → Refuses (.playbackRead p) s p r rest .badLength)
     ∧ (r.body.length = 1 → (byteAt r.body 0 < 1 ∨ 4 < byteAt r.body 0) → Refuses (.playbackRead p) s p r rest .badValue)
     ∧ ∀ q : PbId, r.body = b1 (num q) → Does (.playbackRead p) s p r rest .ok
         (b1 (num q) ++ b1 (s.pb q).state.code ++ b2 (s.pb q).master
           ++ b2 (((s.pb q).lastRun.map (fun l => l.number)).getD 0) ++ bOpt ((s.pb q).lastRun.bind (fun l => l.link))
           ++ b2 ((s.pb q).explicit.getD 0)
           ++ b1 (s.pb q).standby.code ++ b2 (s.pb q).standby.number ++ b1 (s.pb q).standby.source
           ++ (match (s.pb q).pendingGo with
               | none => b1 0 ++ b1 0
               | some g => b1 g.source.code ++ b1 g.source.inputNo)
           ++ bOpt ((s.pb q).follow.map (fun f => f.steps)) ++ bBool (((s.pb q).follow.map (fun f => f.paused)).getD false)
           ++ b1 (s.pb q).back.length ++ (s.pb q).back.flatMap (fun e => b2 e.cue ++ b2 e.levels.length)
           ++ b1 (s.slots.filter (fun x => x.playback = q)).length
           ++ (s.slots.filter (fun x => x.playback = q)).flatMap (fun x => b1 x.number)
           ++ b2 (s.pb q).look.length ++ b2 s.backUse) s)
  ∧ (∀ (s : State) (p : PortId) (r : Request) (rest : List Request), s.Head p 0x0F r rest → s.MayUse p .read →
       let n := byteAt r.body 0
       let first := wordAt r.body 1
       (r.body.length ≠ 3 → Refuses (.slotRead p) s p r rest .badLength)
       ∧ (r.body.length = 3 → (n < 1 ∨ 48 < n ∨ 1535 < first) → Refuses (.slotRead p) s p r rest .badValue)
       ∧ (r.body.length = 3 → 1 ≤ n → n ≤ 48 → first ≤ 1535 →
           (s.slots.find? (fun x => x.number = n) = none → Refuses (.slotRead p) s p r rest .notFound)
           ∧ ∀ x, s.slots.find? (fun x => x.number = n) = some x → Does (.slotRead p) s p r rest .ok
               (b1 n ++ b1 (num x.playback) ++ b1 x.kind.code ++ b2 (x.cue.getD 0) ++ b2 x.up ++ b2 x.down ++ b2 x.upDelay
                 ++ b2 x.downDelay ++ b4 x.elapsed ++ b4 x.finish ++ bBool x.paused ++ b2 x.moves.length
                 ++ b1 s.slots.length ++ b2 (poolUse s.slots) ++ b2 first ++ b2 ((x.moves.drop first).take 100).length
                 ++ ((x.moves.drop first).take 100).flatMap (fun m =>
                     b2 m.channel ++ b2 m.start ++ b2 m.target ++ b2 (x.level m x.elapsed))) s))

/-- RACK_READ answers one of the leader's lines as it stands, in 303 bytes, STAGE_READ a stage table entry, and
FAULTS_READ the circuit fault table, oldest first, with its counts; all from either port with READ, in either engine
state (R146, R147, R163). Line settings that have not been handed over read as the defaults (the model's choice, log
25). The enabled byte and the hold of RACK_READ, present and leader-lost of STAGE_READ and present of FAULTS_READ,
which their rules give no code, are 1 for yes and 0 for no (the model's choice, log 52). -/
def Obligations.RacksStagesAndFaultsAreRead : Prop :=
  (∀ (s : State) (p : PortId) (r : Request) (rest : List Request), s.Head p 0x06 r rest → s.MayUse p .read →
     (r.body.length ≠ 1 → Refuses (.rackRead p) s p r rest .badLength)
     ∧ (r.body.length = 1 → (byteAt r.body 0 < 1 ∨ 6 < byteAt r.body 0) → Refuses (.rackRead p) s p r rest .badValue)
     ∧ ∀ l : Fin 6, r.body = b1 (l.val + 1) →
         let x := s.line l
         let n := x.settings.getD { enabled := true, slow := false, wide := false }
         let fields := b1 (l.val + 1) ++ bBool n.enabled ++ bBool n.slow ++ bBool n.wide ++ bBool x.hold
           ++ b1 (monitorCode x.monitor) ++ b1 x.goodRun ++ b1 x.badRun ++ b1 (x.rack.getD (0, 0)).1
           ++ b1 (x.rack.getD (0, 0)).2 ++ b1 x.seq ++ b2 s.outp.blend ++ b2 s.outp.target
           ++ (x.live.zip x.debounce).flatMap (fun e => b2 e.1 ++ b1 (conditionCode e.2.condition))
         Does (.rackRead p) s p r rest .ok fields s
         ∧ (x.live.length = 96 → x.debounce.length = 96 → fields.length = 303))
  ∧ (∀ (s : State) (p : PortId) (r : Request) (rest : List Request), s.Head p 0x07 r rest → s.MayUse p .read →
       (r.body.length ≠ 1 → Refuses (.stageRead p) s p r rest .badLength)
       ∧ (r.body.length = 1 → (byteAt r.body 0 < 1 ∨ 3 < byteAt r.body 0) → Refuses (.stageRead p) s p r rest .badValue)
       ∧ ∀ n : Fin 3, r.body = b1 (n.val + 1) → Does (.stageRead p) s p r rest .ok
           (b1 (n.val + 1) ++ bBool (s.cas.stages.get n).present ++ b1 (s.cas.gens.get n) ++ b1 (s.cas.stages.get n).gen
             ++ bBool (s.cas.stages.get n).leaderLost ++ b4 (s.cas.stages.get n).lastUp
             ++ (s.cas.stages.get n).lines.flatMap (fun x => b1 (monitorCode x.monitor) ++ b1 x.model ++ b1 x.count)
             ++ bBool s.cas.orphanSeen ++ b2 s.cas.uinErrors) s)
  ∧ (∀ (s : State) (p : PortId) (r : Request) (rest : List Request), s.Head p 0x0C r rest → s.MayUse p .read →
       let fields := b1 s.outp.faults.length ++ b1 (s.outp.faults.filter (fun x => x.present)).length
         ++ b2 s.outp.notTabled
         ++ s.outp.faults.flatMap (fun x =>
             b2 x.circuit ++ b1 (faultKindCode x.kind) ++ b1 x.stage ++ bBool x.present ++ b4 x.firstSeen)
       (r.body ≠ [] → Refuses (.faultsRead p) s p r rest .badLength)
       ∧ (r.body = [] → Does (.faultsRead p) s p r rest .ok fields s)
       ∧ (s.outp.faults.length = 64 → fields.length = 580))

/-- LIST_READ lists a projected list, BANK_INFO reports a projected bank, and HOUSE_READ answers the house settings in
effect, part by part, all at once and without a port operation (R16, R25, R26, R178). The state codes of BANK_INFO are
free values (log 11), and they and the title length, which R26 marks with no width, take the 2 bytes of R164 (the
model's choice, log 13). Settings that have not been handed over read as the defaults, and a cue input is shown in 4
bytes (the model's choices, logs 25 and 39). The fields of LIST_READ are held to 1023 bytes, the status byte counted
among the 1024 (the model's choice, log 15). The part in the reply of HOUSE_READ, which R178 marks with 1 byte in the
request alone, takes 1 byte there too (the model's choice, log 13). The flags of BANK_INFO and the enabled bytes of
HOUSE_READ are 1 when set and 0 when not (the model's choice, log 52). -/
def Obligations.ListsBanksAndHouseAreRead : Prop :=
  (∀ (s : State) (p : PortId) (r : Request) (rest : List Request), s.MayUse p .read → s.ctl.startUp = none →
     (∀ (b : Bank) (l : PbId) (after : Nat), s.Head p 0x09 r rest → r.body = b1 b.val ++ b1 (num l) ++ b2 after →
       after ≤ 9999 →
       ((s.proj b).valid = false → Refuses (.listRead p) s p r rest .blank)
       ∧ ((s.proj b).valid = true → ∃ n : Nat, n ≤ 200 ∧
           (let cues := ((s.proj b).dir.get l).filter (fun e => after < e.1)
            let run := cues.take n
            let fields := b2 run.length ++ bBool (decide (run.length < cues.length))
               ++ run.flatMap (fun e => b2 e.1 ++ b1 e.2.label.length ++ e.2.label)
            Does (.listRead p) s p r rest .ok fields s ∧ run.length = n ∧ fields.length ≤ 1023
            ∧ (n = 200 ∨ n = cues.length ∨ ∃ e, cues[n]? = some e ∧ 1023 < fields.length + 3 + e.2.label.length))))
     ∧ (∀ b : Bank, s.Head p 0x0A r rest → r.body = b1 b.val → ∃ code : Bool → Nat, Does (.bankInfo p) s p r rest .ok
         (b2 (code (s.proj b).valid) ++ b2 (s.proj b).title.length ++ (s.proj b).title
           ++ (s.proj b).dir.toList.flatMap (fun l => b2 l.length) ++ b2 (s.proj b).cues ++ b2 (s.proj b).entries
           ++ b2 (s.ctl.queue.filter (fun w => w.bank = some b)).length
           ++ bBool (s.bank.active = some b) ++ bBool (s.isTarget b) ++ bBool (s.eraseQueued b)) s))
  ∧ (∀ (s : State) (p : PortId) (r : Request) (rest : List Request), s.Head p 0x0E r rest → s.MayUse p .read →
       (r.body.length = 1 → 3 < byteAt r.body 0 → Refuses (.houseRead p) s p r rest .badValue)
       ∧ (r.body = b1 0 → Does (.houseRead p) s p r rest .ok
           (b1 0 ++ b1 (bankCode s.bank.resident) ++ b2 s.link.limit ++ b1 (policyCode s.sup.policy) ++ b2 s.outp.safeFade
             ++ b2 s.eng.backTime ++ b2 s.outp.lamp
             ++ s.outp.lines.toList.flatMap (fun x =>
                 settingsBytes (x.settings.getD { enabled := true, slow := false, wide := false }))
             ++ s.cas.lineItems.toList.flatMap (fun l => l.toList.flatMap settingsBytes)
             ++ four.flatMap (fun i => b1 (num i) ++ bBool (s.inputs.get i).settings.enabled
                 ++ b1 (num (s.inputs.get i).settings.playback) ++ b1 (s.inputs.get i).settings.action.code)
             ++ b1 s.ctl.failed.length) s)
       ∧ (r.body = b1 1 → Does (.houseRead p) s p r rest .ok (b1 1 ++ s.patch.curves.flatMap (fun c => c.flatMap b2)) s)
       ∧ (r.body = b1 2 → Does (.houseRead p) s p r rest .ok
           (b1 2 ++ s.patch.groups.toList.flatMap (fun g =>
             b1 g.curve ++ b2 g.level ++ b2 g.target ++ b2 g.steps ++ b1 g.members.length ++ g.members.flatMap b2)) s)
       ∧ (r.body = b1 3 → Does (.houseRead p) s p r rest .ok
           (b1 3 ++ b1 s.outp.safeLook.length ++ s.outp.safeLook.flatMap (fun e => b2 e.1 ++ b2 e.2)) s))

/-- FAULT_RECORD_READ shows the fault record, and FAULT_ACK empties it and leaves the engine as it is: the next fault
taken enters it, and a critical one that enters the empty record halts nothing, while a later critical one then does
(R186, R187). The kind, the class and the engine state in the reply of FAULT_ACK take 1 byte, as R187 and the form of
ENGINE_FAULT mark them for FAULT_RECORD_READ, though R187 marks no width in that reply (the model's choice, log 13).
Present is 1 for a record that is not empty, where R187 gives the code 0 of an empty one alone (the model's choice,
log 52). -/
def Obligations.FaultRecordReadAndAck : Prop :=
  ∀ (s : State) (p : PortId) (r : Request) (rest : List Request),
    (s.Head p 0x0D r rest → s.MayUse p .read →
      (r.body ≠ [] → Refuses (.faultRecordRead p) s p r rest .badLength)
      ∧ (r.body = [] → Does (.faultRecordRead p) s p r rest .ok
          (bBool s.sup.halted ++ b1 (lossCode s.sup.loss) ++
            (match s.sup.record with
             | none => b1 0
             | some f => b1 1 ++ b1 f.kind.code ++ bBool f.critical ++ b2 f.value ++ b1 ((f.playback.map num).getD 0)
                ++ b2 (f.cue.getD 0) ++ b1 (bankCode f.bank) ++ b1 (f.stage.getD 255) ++ b4 f.time)) s))
    ∧ (s.Head p 0x49 r rest → p = .aux → Refuses (.faultAck p) s p r rest .notPermitted)
    ∧ (s.Head .console 0x49 r rest → s.isFollower = false →
        (r.body ≠ [] → Refuses (.faultAck .console) s .console r rest .badLength)
        ∧ (r.body = [] → Does (.faultAck .console) s .console r rest .ok
            ((match s.sup.record with
              | none => b1 0 ++ b1 0
              | some f => b1 f.kind.code ++ bBool f.critical) ++ bBool s.sup.halted)
            { s with sup := { s.sup with record := none } }))
    ∧ (∀ f g : EngineFault, s.sup.record = none →
        (s.takeFault f).sup.record = some f ∧ (s.takeFault f).sup.halted = s.sup.halted
        ∧ (s.sup.halted = false → f.critical = true → g.critical = true →
            ((s.takeFault f).takeFault g).sup.halted = true ∧ ((s.takeFault f).takeFault g).sup.record = some f))

/-- CUE_READ sees a cue as the projected bank has it: the newest write in the queue that is not doomed and affects it
decides, else the RAM copy of the directory; it is answered at once when a queued write decides it or the directory
lacks it, and else is a host read through the port (R10, R24). A port that is free grants the host read at once, but
while a list notice waits to be taken it grants nothing and the host read waits (the model's choice, log 50). The
block byte of the reply is 1 for yes (the model's choice, log 52). The reply begins with the bank and the list, as the
fields of CUE_OPEN do (the model's choice, log 53). -/
def Obligations.CuesAreReadThroughTheQueue : Prop :=
  (∀ (s : State) (p : PortId) (r : Request) (rest : List Request) (b : Bank) (l : PbId) (n first : Nat),
     s.Head p 0x08 r rest → s.MayUse p .read → s.ctl.startUp = none → s.Calm →
     r.body = b1 b.val ++ b1 (num l) ++ b2 n ++ b2 first → 1 ≤ n → n ≤ 9999 → first ≤ 1535 →
     ((s.proj b).valid = false → Refuses (.cueRead p) s p r rest .blank)
     ∧ ((s.proj b).valid = true → s.cueAnswer b l n = .notFound → Refuses (.cueRead p) s p r rest .notFound)
     ∧ (∀ c, (s.proj b).valid = true → s.cueAnswer b l n = .ready c → Does (.cueRead p) s p r rest .ok
         (b1 b.val ++ b1 (num l) ++ b2 c.number ++ b2 c.up ++ bOpt c.down ++ b2 c.upDelay ++ b2 c.downDelay
           ++ bOpt c.follow ++ bOpt c.link ++ bBool c.block ++ b1 c.label.length ++ c.label ++ b2 c.levels.length
           ++ b2 first ++ b2 ((c.levels.drop first).take 300).length
           ++ ((c.levels.drop first).take 300).flatMap entryBytes) s)
     ∧ ((s.proj b).valid = true → s.cueAnswer b l n = .readPort → Runs (.cueRead p) s (fun t =>
         s.Answered t p rest [] ∧ s.KeepsReports t
         ∧ ((s.ctl.op.isSome = true ∨ s.eng.notices ≠ []) → t.inside = ({ s with ctl := { s.ctl with
               hostReads := s.ctl.hostReads ++ [HostRead.cue (requesterOf p r) b l n first] } }).inside)
         ∧ (s.ctl.op = none → s.eng.notices = [] → t.inside = ({ s with ctl := { s.ctl with
               op := some (.hostRead (.cue (requesterOf p r) b l n first)) } }).inside))))
  ∧ (∀ (s : State) (b : Bank) (l : PbId) (n : Nat) (front back : List WriteEntry),
       (∀ w, s.ctl.queue = front ++ w :: back → (∀ x ∈ back, x.onCue b l n = none) → w.doomed = none → w.bank = some b →
         (∀ c, w.kind = .cueWrite l c → c.number = n → s.cueAnswer b l n = .ready c)
         ∧ (w.kind = .cueDelete l n → s.cueAnswer b l n = .notFound)
         ∧ (w.kind = .bankErase → s.cueAnswer b l n = .notFound))
       ∧ ((∀ x ∈ s.ctl.queue, x.onCue b l n = none) →
           s.cueAnswer b l n = if (Assoc.find ((s.ram b).dir.get l) n).isSome then .readPort else .notFound)
       ∧ (∀ w : WriteEntry, w.onCue b l n = none ↔
           (w.bank ≠ some b ∨ w.doomed ≠ none ∨
             ((∀ c, w.kind = .cueWrite l c → c.number ≠ n) ∧ w.kind ≠ .cueDelete l n ∧ w.kind ≠ .bankErase))))

/-- PATCH_READ answers at once from the queue when it holds an erase of the bank, applying the patch and window writes
after the newest one; otherwise it is a host read. A host read ends with the stored record, or with the stored run and
the queued writes applied, or CHECK_FAILED; a busy answer changes nothing (R8, R24, R36). A patch reply holds a run of
entries and then the windows that are present. A cue record, segment or windows item is handed over only where its
check value is the CRC-32 of its bytes (R6), in the layout of log 19. The bytes of an absent entry that R36 leaves
open are free (log 12). A port that is free grants the host read at once, but while a list notice waits to be taken it
grants nothing and the host read waits (the model's choice, log 50). The host read of a PATCH_READ applies at its end
every queued patch and window write of its bank, also past an erase of the bank that joined the queue after the
request was taken (the model's choice, log 24). The count in the reply, which R36 marks with 1 byte in the request
alone, takes 1 byte there too (the model's choice, log 13). A cue reply begins with the bank and the list, as the
fields of CUE_OPEN do (the model's choice, log 53). -/
def Obligations.PatchReadsAndHostReadsEnd : Prop :=
  (∀ (s : State) (p : PortId) (r : Request) (rest : List Request) (b : Bank) (first count : Nat),
     s.Head p 0x0B r rest → s.MayUse p .read → s.ctl.startUp = none → s.Calm →
     r.body = b1 b.val ++ b2 first ++ b1 count → 1 ≤ first → 1 ≤ count → count ≤ 96 → first + count ≤ 2305 →
     ((s.proj b).valid = false → Refuses (.patchRead p) s p r rest .blank)
     ∧ (∀ front w back, (s.proj b).valid = true → s.ctl.queue = front ++ w :: back → w.bank = some b →
         w.kind = .bankErase → (∀ x ∈ back, ¬ (x.bank = some b ∧ x.kind = .bankErase)) →
         Runs (.patchRead p) s (fun t => ∃ fields, s.Replies t p r rest .ok fields { s with free := s.free + 2 * count }
           ∧ let u := back.foldl (fun u (x : WriteEntry) => x.ontoPatch b u) (([], .empty) : Assoc PatchEntry × Windows)
             PatchReply first count u.1 u.2 fields))
     ∧ ((s.proj b).valid = true → (∀ x ∈ s.ctl.queue, ¬ (x.bank = some b ∧ x.kind = .bankErase)) →
         Runs (.patchRead p) s (fun t => s.Answered t p rest [] ∧ s.KeepsReports t
           ∧ ((s.ctl.op.isSome = true ∨ s.eng.notices ≠ []) → t.inside = ({ s with ctl := { s.ctl with
                 hostReads := s.ctl.hostReads ++ [HostRead.patch (requesterOf p r) b first count] } }).inside)
           ∧ (s.ctl.op = none → s.eng.notices = [] → t.inside = ({ s with ctl := { s.ctl with
                 op := some (.hostRead (.patch (requesterOf p r) b first count)) } }).inside))))
  ∧ (∀ (s : State) (q : Requester) (b : Bank),
       (∀ rd, s.ctl.op = some (.hostRead rd) → exec (.hostReadDone .busy) s = .next s)
       ∧ (∀ l n first c, s.ctl.op = some (.hostRead (.cue q b l n first)) → s.storedCue b l n = some c →
           exec (.hostReadDone (.done true)) s = .next ((({ s with ctl := { s.ctl with op := none } }).answer q .ok
             (cueHeader b l c ++ b2 c.levels.length ++ b2 first ++ b2 ((c.levels.drop first).take 300).length
               ++ ((c.levels.drop first).take 300).flatMap entryBytes)).settle))
       ∧ (∀ l n first (a : StoreAnswer), s.ctl.op = some (.hostRead (.cue q b l n first)) →
           (a = .done false ∨ a = .notDone ∨ (a = .done true ∧ s.storedCue b l n = none)) →
           exec (.hostReadDone a) s = .next ((({ s with ctl := { s.ctl with op := none } }).answer q .checkFailed []).settle))
       ∧ (∀ first count m w, s.ctl.op = some (.hostRead (.patch q b first count)) → s.storedRun b first count = some m →
           s.storedWindows b = some w →
           exec (.hostReadDone (.done true)) s = .next ((({ s with ctl := { s.ctl with op := none } }).answerPatch q first
             count (s.ctl.queue.foldl (fun u (x : WriteEntry) => x.ontoPatch b u) (m, w)).1
             (s.ctl.queue.foldl (fun u (x : WriteEntry) => x.ontoPatch b u) (m, w)).2).settle))
       ∧ (∀ first count (a : StoreAnswer), s.ctl.op = some (.hostRead (.patch q b first count)) →
           (a = .done false ∨ a = .notDone ∨ (a = .done true ∧
             (s.storedRun b first count = none ∨ s.storedWindows b = none))) →
           exec (.hostReadDone a) s = .next ((({ s with ctl := { s.ctl with op := none } }).answer q .checkFailed []).settle))
       ∧ (∀ first count m w, ∃ fields, PatchReply first count m w fields
           ∧ s.answerPatch q first count m w = ({ s with free := s.free + 2 * count }).answer q .ok fields))
  ∧ (∀ (s : State) (b : Bank),
       (∀ first count : Nat,
         let n1 := (first - 1) / 96 + 1
         let n2 := (first + count - 1 - 1) / 96 + 1
         (∀ m, n1 = n2 → s.storedSegment b n1 = some m → s.storedRun b first count = some m)
         ∧ (∀ m1 m2, n1 ≠ n2 → s.storedSegment b n1 = some m1 → s.storedSegment b n2 = some m2 →
             s.storedRun b first count = some (m1 ++ m2))
         ∧ ((s.storedSegment b n1 = none ∨ s.storedSegment b n2 = none) → s.storedRun b first count = none))
       ∧ (∀ n m, s.storedSegment b n = some m ↔ ∃ c, (s.store.banks.get b).segments.getD (n - 1) none = some c ∧ c.value = m
           ∧ c.check = crc32 (segmentBytes m))
       ∧ (∀ w, s.storedWindows b = some w ↔ ∃ c, (s.store.banks.get b).windows = some c ∧ c.value = w
           ∧ c.check = crc32 w.bytes)
       ∧ (∀ l n x, s.storedCue b l n = some x ↔ ∃ c, Assoc.find ((s.store.banks.get b).cues.get l) n = some c ∧ c.value = x
           ∧ c.check = crc32 x.bytes))
  ∧ ∀ (w : WriteEntry) (b : Bank) (m : Assoc PatchEntry) (v : Windows),
      (w.bank ≠ some b → w.ontoPatch b (m, v) = (m, v))
      ∧ (∀ pairs, w.bank = some b → w.kind = .patchWrite pairs → w.ontoPatch b (m, v) = (writePairs pairs m, v))
      ∧ (∀ x, w.bank = some b → w.kind = .windowWrite x → w.ontoPatch b (m, v) = (m, x))
      ∧ ((∀ pairs, w.kind ≠ .patchWrite pairs) → (∀ x, w.kind ≠ .windowWrite x) → w.ontoPatch b (m, v) = (m, v))

/-! ### The store -/

/-- A free port grants one waiting claim: the start-up read that is due, else the fetch of the lowest playback, else
the load step, else the oldest host read, else the head write, past the writes that end at the head without an
operation: BLANK for a blank bank unless it erases, a doomed mark, NOT_FOUND for a delete of a cue the directory
lacks. After the start-up reads it grants nothing while a list notice waits to be taken, so that the fetch which the
notice starts is granted ahead of the claims below it (the model's choice, log 50). What each write makes of a bank
header follows the list of R7 (R7, R9, R12, R59). -/
def Obligations.PortIsGrantedInOrder : Prop :=
  (∀ s : State,
     s.settle = s.arbitrate.pump
     ∧ (s.ctl.op ≠ none → s.arbitrate = s)
     ∧ (∀ i, s.ctl.op = none → s.ctl.startUp = some i →
         s.arbitrate = { s with ctl := { s.ctl with op := some (.startUp i) } })
     ∧ (s.ctl.op = none → s.ctl.startUp = none → s.eng.notices ≠ [] → s.arbitrate = s)
     ∧ (∀ p f, s.ctl.op = none → s.ctl.startUp = none → s.eng.notices = [] → s.ctl.fetches.get p = some f →
         (∀ q : PbId, q < p → s.ctl.fetches.get q = none) →
         s.arbitrate = { s with ctl := { s.ctl with op := some (.fetch p f true), fetches := s.ctl.fetches.set p none } })
     ∧ (s.ctl.op = none → s.ctl.startUp = none → s.eng.notices = [] → (∀ q, s.ctl.fetches.get q = none) →
         (∀ c n, s.bank.change = some c → s.ctl.loadClaim = some n →
           s.arbitrate = { s with ctl := { s.ctl with op := some (.load c.target n true), loadClaim := none } })
         ∧ (∀ r rs, s.ctl.loadClaim = none → s.ctl.hostReads = r :: rs →
             s.arbitrate = { s with ctl := { s.ctl with op := some (.hostRead r), hostReads := rs } })
         ∧ (∀ w ws, s.ctl.loadClaim = none → s.ctl.hostReads = [] → s.ctl.queue = w :: ws →
             (s.headTest w = none → s.arbitrate = { s with ctl := { s.ctl with op := some .write } })
             ∧ (∀ st, s.headTest w = some st → s.arbitrate =
                 (({ s with ctl := { s.ctl with queue := ws, eraseStep := 0 } }).answer w.req st []).arbitrate))
         ∧ (s.ctl.loadClaim = none → s.ctl.hostReads = [] → s.ctl.queue = [] → s.arbitrate = s)))
  ∧ ((∀ (s : State) (w : WriteEntry),
       (∀ b, w.bank = some b → w.kind ≠ .bankErase → (s.ram b).valid = false → s.headTest w = some .blank)
       ∧ (∀ st, (w.kind = .bankErase ∨ w.bank = none ∨ ∃ b, w.bank = some b ∧ (s.ram b).valid = true) → w.doomed = some st →
           s.headTest w = some st)
       ∧ (∀ b l n, w.bank = some b → (s.ram b).valid = true → w.doomed = none → w.kind = .cueDelete l n →
           s.headTest w = if (Assoc.find ((s.ram b).dir.get l) n).isNone then some .notFound else none)
       ∧ ((w.kind = .bankErase ∨ w.bank = none ∨ ∃ b, w.bank = some b ∧ (s.ram b).valid = true) → w.doomed = none →
           (∀ l n, w.kind ≠ .cueDelete l n) → s.headTest w = none))
     ∧ ∀ h : Header,
       (h.apply .bankErase).valid = true ∧ (h.apply .bankErase).title = [] ∧ (∀ l, (h.apply .bankErase).dir.get l = [])
       ∧ (∀ k, k ≠ .bankErase → h.valid = false → h.apply k = h)
       ∧ (∀ t, h.valid = true → h.apply (.bankTitle t) = { h with title := t })
       ∧ (∀ x, h.apply (.patchWrite x) = h) ∧ (∀ x, h.apply (.windowWrite x) = h) ∧ (∀ x, h.apply (.houseWrite x) = h)
       ∧ (∀ l c, h.valid = true → Assoc.wf (h.dir.get l) = true →
           Assoc.wf ((h.apply (.cueWrite l c)).dir.get l) = true
           ∧ (∀ n, Assoc.find ((h.apply (.cueWrite l c)).dir.get l) n =
               if n = c.number then some { label := c.label, count := c.levels.length } else Assoc.find (h.dir.get l) n)
           ∧ (h.apply (.cueWrite l c)).title = h.title ∧ (h.apply (.cueWrite l c)).valid = true
           ∧ ∀ l', l' ≠ l → (h.apply (.cueWrite l c)).dir.get l' = h.dir.get l')
       ∧ (∀ l n, h.valid = true → Assoc.wf (h.dir.get l) = true →
           Assoc.wf ((h.apply (.cueDelete l n)).dir.get l) = true
           ∧ (∀ m, Assoc.find ((h.apply (.cueDelete l n)).dir.get l) m = if m = n then none else Assoc.find (h.dir.get l) m)
           ∧ (h.apply (.cueDelete l n)).title = h.title ∧ (h.apply (.cueDelete l n)).valid = true
           ∧ ∀ l', l' ≠ l → (h.apply (.cueDelete l n)).dir.get l' = h.dir.get l'))

/-- The cue builder and the requests that queue cue writes: CUE_OPEN, CUE_ADD, CUE_DELETE and RECORD are refused
BAD_VALUE for a field outside its range; then CUE_OPEN, CUE_ADD, CUE_ABANDON, CUE_CLOSE, CUE_DELETE and RECORD meet
their state checks in order; LIST_FULL above 800 cues in the projected bank, then POOL_FULL above 60,000 level
entries, a cue of the number freed first; an accepted write joins the queue and the projection, and its reply is owed
(R7, R11, R19 to R23, R77). The count byte of CUE_ADD holds up to 255 (log 14). A block byte of 1 is yes, where R19
gives 0 or 1 (the model's choice, log 52). -/
def Obligations.CuesAreBuiltAndQueued : Prop :=
  (∀ (h : Header) (l : PbId) (c : Cue), h.valid = true → Assoc.wf (h.dir.get l) = true →
    let lengths := four.map (fun i => (h.dir.get i).length)
    let counts := four.map (fun i => ((h.dir.get i).map (fun e => e.2.count)).sum)
    let old := Assoc.find (h.dir.get l) c.number
    let cues := lengths.sum + (if old.isSome then 0 else 1)
    let entries := counts.sum - (old.map (fun x => x.count)).getD 0 + c.levels.length
    h.cues = lengths.sum ∧ h.entries = counts.sum
    ∧ (800 < cues → h.capacity l c = some .listFull)
    ∧ (cues ≤ 800 → 60000 < entries → h.capacity l c = some .poolFull)
    ∧ (cues ≤ 800 → entries ≤ 60000 → h.capacity l c = none))
  ∧ ∀ (s : State) (p : PortId) (r : Request) (rest : List Request), s.MayUse p .edit → s.sup.halted = false →
    s.ctl.startUp = none →
    (let byte_ := fun i => byteAt r.body i
     let word := fun i => wordAt r.body i
     let place := 3 < byte_ 0 ∨ byte_ 1 < 1 ∨ 4 < byte_ 1
     let opt := fun (low high n : Nat) => n ≠ 65535 ∧ (n < low ∨ high < n)
     let label := fun (n : Nat) => ∃ x ∈ r.body.drop n, x.toNat < 32 ∨ 126 < x.toNat
     (s.Head p 0x20 r rest → 18 ≤ r.body.length → r.body.length = 18 + byte_ 17 →
       (place ∨ word 2 < 1 ∨ 9999 < word 2 ∨ 6000 < word 4 ∨ opt 0 6000 (word 6) ∨ 6000 < word 8 ∨ 6000 < word 10
         ∨ opt 0 6000 (word 12) ∨ opt 1 9999 (word 14) ∨ 1 < byte_ 16 ∨ 16 < byte_ 17 ∨ label 18) →
       Refuses (.cueOpen p) s p r rest .badValue)
     ∧ (s.Head p 0x21 r rest → r.body.length = 1 + 3 * byte_ 0 →
         (byte_ 0 = 0 ∨ ∃ i, i < byte_ 0 ∧
           (let n := byte_ (1 + 3 * i) + 256 * byte_ (2 + 3 * i) + 65536 * byte_ (3 + 3 * i)
            n % 2048 < 1 ∨ 1536 < n % 2048 ∨ 1000 < n / 2048)) →
         Refuses (.cueAdd p) s p r rest .badValue)
     ∧ (s.Head p 0x24 r rest → r.body.length = 4 → (place ∨ word 2 < 1 ∨ 9999 < word 2) →
         Refuses (.cueDelete p) s p r rest .badValue)
     ∧ (s.Head p 0x28 r rest → 8 ≤ r.body.length → r.body.length = 8 + byte_ 7 →
         (byte_ 0 < 1 ∨ 4 < byte_ 0 ∨ word 1 < 1 ∨ 9999 < word 1 ∨ 6000 < word 3 ∨ opt 0 6000 (word 5) ∨ 16 < byte_ 7
           ∨ label 8) →
         Refuses (.record p) s p r rest .badValue))
    ∧ (∀ (b : Bank) (l : PbId) (c : Cue), s.Head p 0x20 r rest → r.body = cueHeader b l c → c.levels = [] →
      1 ≤ c.number → c.number ≤ 9999 → c.up ≤ 6000 → (∀ x, c.down = some x → x ≤ 6000) → c.upDelay ≤ 6000 →
      c.downDelay ≤ 6000 → (∀ x, c.follow = some x → x ≤ 6000) → (∀ x, c.link = some x → 1 ≤ x ∧ x ≤ 9999) →
      c.label.length ≤ 16 → (∀ x ∈ c.label, 32 ≤ x.toNat ∧ x.toNat ≤ 126) →
      ((s.port p).builder ≠ none → Refuses (.cueOpen p) s p r rest .builderOpen)
      ∧ ((s.port p).builder = none → (s.proj b).valid = false → Refuses (.cueOpen p) s p r rest .blank)
      ∧ ((s.port p).builder = none → (s.proj b).valid = true → Runs (.cueOpen p) s (fun t =>
          (s.setBuilder p (some { bank := b, list := l, cue := c })).Replies t p r rest .ok [] s)))
    ∧ (∀ es : List (Nat × Nat), s.Head p 0x21 r rest → r.body = b1 es.length ++ es.flatMap entryBytes → 1 ≤ es.length →
        es.length ≤ 255 → (∀ e ∈ es, 1 ≤ e.1 ∧ e.1 ≤ 1536 ∧ e.2 ≤ 1000) →
        ((s.port p).builder = none → Refuses (.cueAdd p) s p r rest .noBuilder)
        ∧ ∀ x, (s.port p).builder = some x →
            let last := (x.cue.levels.getLast?.map (fun e => e.1)).getD 0
            let levels := x.cue.levels ++ es
            (risesStrictly (last :: es.map (fun e => e.1)) = false → Refuses (.cueAdd p) s p r rest .badValue)
            ∧ (1536 < levels.length → Refuses (.cueAdd p) s p r rest .badValue)
            ∧ (risesStrictly (last :: es.map (fun e => e.1)) = true → levels.length ≤ 1536 →
                Runs (.cueAdd p) s (fun t =>
                  (s.setBuilder p (some { x with cue := { x.cue with levels := levels } })).Replies t p r rest .ok
                    (b2 levels.length) s)))
    ∧ (s.Head p 0x23 r rest → r.body = [] →
        ((s.port p).builder = none → Refuses (.cueAbandon p) s p r rest .noBuilder)
        ∧ ((s.port p).builder ≠ none → Runs (.cueAbandon p) s (fun t =>
            (s.setBuilder p none).Replies t p r rest .ok [] s)))
    ∧ (s.Head p 0x22 r rest → r.body = [] →
        ((s.port p).builder = none → Answers (.cueClose p) s p r rest .noBuilder [] s)
        ∧ ∀ x, (s.port p).builder = some x →
            ((s.proj x.bank).valid = false → Answers (.cueClose p) s p r rest .blank [] s)
            ∧ (∀ st, (s.proj x.bank).valid = true → (s.proj x.bank).capacity x.list x.cue = some st →
                Answers (.cueClose p) s p r rest st [] s)
            ∧ ((s.proj x.bank).valid = true → (s.proj x.bank).capacity x.list x.cue = none →
                (8 ≤ s.ctl.queue.length → Answers (.cueClose p) s p r rest .storeBusy [] s)
                ∧ (s.ctl.queue.length < 8 → Settles (.cueClose p) s (fun t =>
                    (s.setBuilder p none).Answered t p rest [] ∧ t.link = s.link
                    ∧ t.inside = (s.enqueue { kind := .cueWrite x.list x.cue, bank := some x.bank,
                                              req := requesterOf p r, status := .ok, doomed := none }).inside))))
    ∧ (∀ (b : Bank) (l : PbId) (n : Nat), s.Head p 0x24 r rest → r.body = b1 b.val ++ b1 (num l) ++ b2 n → 1 ≤ n →
        n ≤ 9999 →
        ((s.proj b).valid = false → Answers (.cueDelete p) s p r rest .blank [] s)
        ∧ ((s.proj b).valid = true → Assoc.find ((s.proj b).dir.get l) n = none →
            Answers (.cueDelete p) s p r rest .notFound [] s)
        ∧ (∀ d, (s.proj b).valid = true → Assoc.find ((s.proj b).dir.get l) n = some d →
            (8 ≤ s.ctl.queue.length → Answers (.cueDelete p) s p r rest .storeBusy [] s)
            ∧ (s.ctl.queue.length < 8 → Owes (.cueDelete p) s p rest
                (s.enqueue { kind := .cueDelete l n, bank := some b, req := requesterOf p r, status := .ok,
                             doomed := none }))))
    ∧ (∀ (q : PbId) (n up : Nat) (down : Option Nat) (label : List Byte), s.Head p 0x28 r rest →
        r.body = b1 (num q) ++ b2 n ++ b2 up ++ bOpt down ++ b1 label.length ++ label → 1 ≤ n → n ≤ 9999 → up ≤ 6000 →
        (∀ x, down = some x → x ≤ 6000) → label.length ≤ 16 → (∀ x ∈ label, 32 ≤ x.toNat ∧ x.toNat ≤ 126) →
        (s.bank.active = none → Answers (.record p) s p r rest .noShow [] s)
        ∧ ∀ b, s.bank.active = some b →
            let c : Cue := { number := n, label := label, up := up, down := down, upDelay := 0, downDelay := 0,
                             follow := none, link := none, block := true, levels := (s.pb q).look }
            (∀ st, (s.proj b).capacity q c = some st → Answers (.record p) s p r rest st [] s)
            ∧ ((s.proj b).capacity q c = none → 8 ≤ s.ctl.queue.length →
                Answers (.record p) s p r rest .storeBusy [] s)
            ∧ ((s.proj b).capacity q c = none → s.ctl.queue.length < 8 → Owes (.record p) s p rest
                (s.enqueue { kind := .cueWrite q c, bank := some b, req := requesterOf p r, status := .ok,
                             doomed := none })))

/-- PATCH_SET, WINDOW_SET and BANK_TITLE are refused BAD_VALUE for a field outside its range or circuits that do not
rise, WINDOW_SET is refused OVERLAP when two of its windows share a circuit, and else they queue writes to a bank that
is not BLANK in the projection; BANK_ERASE queues one for any bank but the active one and the changeover target; a
full queue is STORE_BUSY (R11, R15, R16, R33, R34). -/
def Obligations.BankWritesAreQueued : Prop :=
  (∀ w : Windows, (∀ i x, w.get i = some x → x.first ≤ x.last) →
    (w.overlap = true ↔ ∃ i j : Fin 4, i ≠ j ∧ ∃ x y k, w.get i = some x ∧ w.get j = some y ∧ x.first ≤ k ∧ k ≤ x.last
      ∧ y.first ≤ k ∧ k ≤ y.last))
  ∧ ∀ (s : State) (p : PortId) (r : Request) (rest : List Request), s.sup.halted = false → s.ctl.startUp = none →
    (∀ count : Nat, s.Head p 0x25 r rest → s.MayUse p .edit → count = byteAt r.body 1 → r.body.length = 2 + 6 * count →
      let circuit := fun i => wordAt r.body (2 + 6 * i)
      let channel := fun i => wordAt r.body (4 + 6 * i)
      let bad := 3 < byteAt r.body 0 ∨ count = 0 ∨ 64 < count
        ∨ (∃ i, i < count ∧ (circuit i < 1 ∨ 2304 < circuit i ∨ (channel i ≠ 65535 ∧ (channel i < 1 ∨ 1536 < channel i
            ∨ 100 < byteAt r.body (6 + 6 * i) ∨ 7 < byteAt r.body (7 + 6 * i)))))
        ∨ (∃ i, i + 1 < count ∧ circuit (i + 1) ≤ circuit i)
      (bad → Refuses (.patchSet p) s p r rest .badValue)
      ∧ (¬ bad → ∃ b pairs, b.val = byteAt r.body 0 ∧ parsePatchSet r.body = .ok (b, pairs) ∧ pairs.length = count
          ∧ ∀ i, i < count → pairs[i]? = some (circuit i, if channel i = 65535 then none else some
              { channel := channel i, proportion := byteAt r.body (6 + 6 * i), curve := byteAt r.body (7 + 6 * i) })))
    ∧ (s.Head p 0x26 r rest → s.MayUse p .edit → r.body.length = 29 →
        let present := fun i => byteAt r.body (1 + 7 * i)
        let first := fun i => wordAt r.body (2 + 7 * i)
        let last := fun i => wordAt r.body (4 + 7 * i)
        let channel := fun i => wordAt r.body (6 + 7 * i)
        let bad := 3 < byteAt r.body 0 ∨ ∃ i, i < 4 ∧ (1 < present i ∨ (present i = 1 ∧ (first i < 1 ∨ 2304 < first i
          ∨ last i < 1 ∨ 2304 < last i ∨ last i < first i ∨ channel i < 1 ∨ 1536 < channel i)))
        (bad → Refuses (.windowSet p) s p r rest .badValue)
        ∧ (¬ bad → ∃ b w, b.val = byteAt r.body 0 ∧ parseWindowSet r.body = .ok (b, w)
            ∧ ∀ i : Fin 4, w.get i = if present i.val = 1 then
                some { first := first i.val, last := last i.val, channel := channel i.val } else none))
    ∧ (s.Head p 0x27 r rest → s.MayUse p .edit → r.body.length = 2 + byteAt r.body 1 →
        (3 < byteAt r.body 0 ∨ 24 < byteAt r.body 1 ∨ ∃ x ∈ r.body.drop 2, x.toNat < 32 ∨ 126 < x.toNat) →
        Refuses (.bankTitle p) s p r rest .badValue)
    ∧ (∀ b pairs, s.Head p 0x25 r rest → s.MayUse p .edit → parsePatchSet r.body = .ok (b, pairs) →
      ((s.proj b).valid = false → Answers (.patchSet p) s p r rest .blank [] s)
      ∧ ((s.proj b).valid = true → 8 ≤ s.ctl.queue.length → Answers (.patchSet p) s p r rest .storeBusy [] s)
      ∧ ((s.proj b).valid = true → s.ctl.queue.length < 8 → Owes (.patchSet p) s p rest
          (s.enqueue { kind := .patchWrite pairs, bank := some b, req := requesterOf p r, status := .ok, doomed := none })))
    ∧ (∀ b w, s.Head p 0x26 r rest → s.MayUse p .edit → parseWindowSet r.body = .ok (b, w) →
        (w.overlap = true → Answers (.windowSet p) s p r rest .overlap [] s)
        ∧ (w.overlap = false → (s.proj b).valid = false → Answers (.windowSet p) s p r rest .blank [] s)
        ∧ (w.overlap = false → (s.proj b).valid = true → 8 ≤ s.ctl.queue.length →
            Answers (.windowSet p) s p r rest .storeBusy [] s)
        ∧ (w.overlap = false → (s.proj b).valid = true → s.ctl.queue.length < 8 → Owes (.windowSet p) s p rest
            (s.enqueue { kind := .windowWrite w, bank := some b, req := requesterOf p r, status := .ok, doomed := none })))
    ∧ (∀ (b : Bank) (title : List Byte), s.Head p 0x27 r rest → s.MayUse p .edit →
        r.body = b1 b.val ++ b1 title.length ++ title → title.length ≤ 24 →
        (∀ x ∈ title, 32 ≤ x.toNat ∧ x.toNat ≤ 126) →
        ((s.proj b).valid = false → Answers (.bankTitle p) s p r rest .blank [] s)
        ∧ ((s.proj b).valid = true → 8 ≤ s.ctl.queue.length → Answers (.bankTitle p) s p r rest .storeBusy [] s)
        ∧ ((s.proj b).valid = true → s.ctl.queue.length < 8 → Owes (.bankTitle p) s p rest
            (s.enqueue { kind := .bankTitle title, bank := some b, req := requesterOf p r, status := .ok,
                         doomed := none })))
    ∧ (∀ b : Bank, s.Head .console 0x52 r rest → s.isFollower = false → r.body = b1 b.val →
        (s.bank.active = some b → Answers (.bankErase .console) s .console r rest .activeBank [] s)
        ∧ (∀ c, s.bank.active ≠ some b → s.bank.change = some c → c.target = b →
            Answers (.bankErase .console) s .console r rest .inChangeover [] s)
        ∧ (s.bank.active ≠ some b → (∀ c, s.bank.change = some c → c.target ≠ b) →
            (8 ≤ s.ctl.queue.length → Answers (.bankErase .console) s .console r rest .storeBusy [] s)
            ∧ (s.ctl.queue.length < 8 → Owes (.bankErase .console) s .console rest
                (s.enqueue { kind := .bankErase, bank := some b, req := requesterOf .console r, status := .ok,
                             doomed := none }))))

/-- HOUSE_SET, CURVE_SET, HOUSE_CIRCUITS_SET, SAFE_LOOK_SET, LINE_SET and INPUT_SET, each from the bytes of its body:
BAD_VALUE for a selector, identifier or choice outside its range and for what its rule names, nothing else changed;
else a house write that holds the item joins the store queue, its reply owed, or the request is answered STORE_BUSY. A
number of HOUSE_SET outside its range is stored as the nearest within it, and a curve point lower than the one before
it, as already made legal, is raised to it; the write then answers ADJUSTED in place of OK (R17, R40, R42, R79, R131,
R170, R183). An enabled byte of 1 is yes, where R79 and R131 give 0 or 1 (the model's choice, log 52). -/
def Obligations.HouseWritesAreQueued : Prop :=
  (∀ (s : State) (r : Request) (rest : List Request), s.isFollower = false → s.sup.halted = false → s.ctl.startUp = none →
    let bad := fun (c : Instr) => Refuses c s .console r rest .badValue
    let takes := fun (c : Instr) (item : HouseItem) (adjusted : Bool) =>
      (8 ≤ s.ctl.queue.length → Answers c s .console r rest .storeBusy [] s)
      ∧ (s.ctl.queue.length < 8 → Owes c s .console rest
          { s with ctl := { s.ctl with queue := s.ctl.queue ++
            [{ kind := .houseWrite item, bank := none, req := requesterOf .console r,
               status := if adjusted then .adjusted else .ok, doomed := none }] } })
    (∀ sel v : Nat, s.Head .console 0x53 r rest → r.body = b1 sel ++ b2 v → sel ≤ 255 → v ≤ 65535 →
      let set := takes (.houseSet .console)
      ((sel = 0 ∨ 6 < sel) → bad (.houseSet .console))
      ∧ (sel = 1 → 4 < v → bad (.houseSet .console)) ∧ (sel = 3 → 2 < v → bad (.houseSet .console))
      ∧ (∀ b : Bank, sel = 1 → v = b.val → set (.resident (some b)) false)
      ∧ (sel = 1 → v = 4 → set (.resident none) false)
      ∧ (sel = 2 → set (.silence (min v 100)) (decide (100 < v)))
      ∧ (sel = 3 → v = 0 → set (.policy .continue_) false) ∧ (sel = 3 → v = 1 → set (.policy .freeze) false)
      ∧ (sel = 3 → v = 2 → set (.policy .safe) false)
      ∧ (sel = 4 → set (.safeFade (min v 600)) (decide (600 < v)))
      ∧ (sel = 5 → set (.backTime (min v 600)) (decide (600 < v)))
      ∧ (sel = 6 → set (.lamp (max 50 (min v 500))) (decide (v < 50 ∨ 500 < v))))
    ∧ (∀ (n : Nat) (points : List Nat), s.Head .console 0x54 r rest → r.body = b1 n ++ points.flatMap b2 → n ≤ 255 →
        points.length = 21 → (∀ x ∈ points, x ≤ 65535) →
        ((n = 0 ∨ 7 < n) → bad (.curveSet .console))
        ∧ (1 ≤ n → n ≤ 7 → takes (.curveSet .console) (.curve n (legalPoints 0 points))
            (decide (legalPoints 0 points ≠ points))))
    ∧ (∀ g : Four GroupSettings, s.Head .console 0x55 r rest →
        r.body = four.flatMap (fun i => b1 (g.get i).curve ++ b1 (g.get i).members.length ++ (g.get i).members.flatMap b2) →
        (∀ i, (g.get i).curve ≤ 255 ∧ (g.get i).members.length ≤ 255 ∧ ∀ k ∈ (g.get i).members, k ≤ 65535) →
        let wrong := (∃ i, 7 < (g.get i).curve ∨ risesStrictly (g.get i).members = false
            ∨ ∃ k ∈ (g.get i).members, k < 1 ∨ 2304 < k)
          ∨ (∃ i j, i ≠ j ∧ ∃ k, k ∈ (g.get i).members ∧ k ∈ (g.get j).members)
          ∨ 48 < (four.map (fun i => (g.get i).members.length)).sum
        (wrong → bad (.houseCircuitsSet .console)) ∧ (¬ wrong → takes (.houseCircuitsSet .console) (.groups g) false))
    ∧ (∀ e : List (Nat × Nat), s.Head .console 0x56 r rest →
        r.body = b1 e.length ++ e.flatMap (fun x => b2 x.1 ++ b2 x.2) → e.length ≤ 255 →
        (∀ x ∈ e, x.1 ≤ 65535 ∧ x.2 ≤ 65535) →
        let wrong := 128 < e.length ∨ (∃ x ∈ e, x.1 < 1 ∨ 2304 < x.1 ∨ 1000 < x.2)
          ∨ risesStrictly (e.map (fun x => x.1)) = false
        (wrong → bad (.safeLookSet .console)) ∧ (¬ wrong → takes (.safeLookSet .console) (.safeLook e) false))
    ∧ (∀ stage line enabled rate width : Nat, s.Head .console 0x57 r rest →
        r.body = b1 stage ++ b1 line ++ b1 enabled ++ b1 rate ++ b1 width →
        stage ≤ 255 → line ≤ 255 → enabled ≤ 255 → rate ≤ 255 → width ≤ 255 →
        let wrong := 3 < stage ∨ line < 1 ∨ 6 < line ∨ 1 < enabled ∨ 1 < rate ∨ 1 < width
        (wrong → bad (.lineSet .console))
        ∧ (¬ wrong → takes (.lineSet .console) (.line stage line
            { enabled := decide (enabled = 1), slow := decide (rate = 1), wide := decide (width = 1) }) false))
    ∧ (∀ input enabled playback action : Nat, s.Head .console 0x58 r rest →
        r.body = b1 input ++ b1 enabled ++ b1 playback ++ b1 action →
        input ≤ 255 → enabled ≤ 255 → playback ≤ 255 → action ≤ 255 →
        ((input < 1 ∨ 4 < input ∨ 1 < enabled ∨ playback < 1 ∨ 4 < playback ∨ 2 < action) → bad (.inputSet .console))
        ∧ (∀ (i : Fin 4) (p : PbId), input = num i → playback = num p → enabled ≤ 1 → action ≤ 2 →
            takes (.inputSet .console) (.input i
              { enabled := decide (enabled = 1), playback := p,
                action := if action = 0 then .go else if action = 1 then .back else .hold }) false)))
  ∧ ∀ (points : List Nat) (i : Nat), i + 1 < points.length →
      (legalPoints 0 points).length = points.length ∧ (legalPoints 0 points).getD 0 0 = points.getD 0 0
      ∧ (legalPoints 0 points).getD (i + 1) 0 = max ((legalPoints 0 points).getD i 0) (points.getD (i + 1) 0)

/-- A write step that is confirmed and read back ends its write: the store and the header copy hold the new contents
with their check values, the write leaves the queue and is answered with its fields, and the completion notice goes to
the block concerned; a step of an erase that is not its last only goes on, and a failed step ends the write
WRITE_FAILED with a minor STORE_FAULT and the projection worked out anew over the writes that follow it. A patch write
rebuilds a segment whose read fails its check from its own entries, the others absent, and its notice then carries all
96 (R6, R12 to R15, R35). The reply fields are those of R17, R21, R34, R40, R77, R131, R170 and R183; the bank and
list of the CUE_CLOSE and RECORD replies, which R21 and R77 mark with no width, take the 2 bytes of R164, and the
curve and the count keep the 1 byte that R40 and R34 mark (the model's choice, log 13). Which segments fail their read
beside those stored with a wrong check value is told by the command's operand, and the layout of the bytes is the
model's (logs 19 and 21). The reply fields of INPUT_SET and HOUSE_CIRCUITS_SET are the model's choice (log 16). An
enabled byte of 1 is yes, as in the request (the model's choice, log 52). -/
def Obligations.WriteStepsEnd : Prop :=
  (∀ (s : State) (w : WriteEntry) (ws : List WriteEntry) (damaged : List Nat), s.ctl.op = some .write → s.ctl.queue = w :: ws →
    exec (.writeStepDone .busy) s = .next s
    ∧ ((w.kind ≠ .bankErase ∨ 27 ≤ s.ctl.eraseStep) → Settles (.writeStepDone (.done true damaged)) s (fun t =>
        t.store = s.storeAfter w damaged ∧ t.ctl.queue = ws ∧ t.ctl.op = none ∧ t.ctl.eraseStep = 0
        ∧ (t.port w.req.port).outgoing = (s.port w.req.port).outgoing
            ++ [{ kind := if (kindInfo w.req.kind.toNat).isSome then w.req.kind + 0x80 else 0xFF, tag := w.req.tag,
                  status := w.status, fields := w.fields }]
        ∧ t.port (otherPort w.req.port) = s.port (otherPort w.req.port)
        ∧ (∀ b, t.proj b = s.proj b)
        ∧ (∀ b, w.bank = some b → (∀ item, w.kind ≠ .houseWrite item) →
            t.ram b = (s.ram b).apply w.kind ∧ ∀ b', b' ≠ b → t.ram b' = s.ram b')
        ∧ (∀ item, w.kind = .houseWrite item → s.cas.role = .leader →
            t.ctl.failed = s.ctl.failed.filter (fun i => i ≠ item.id)
            ∧ (∀ n, item = .silence n → t.link.limit = n)
            ∧ (∀ n, item = .safeFade n → t.outp.safeFade = n ∧ t.cas.gens = s.cas.gens.map nextGen)
            ∧ (∀ n, item = .backTime n → t.eng.backTime = n ∧ t.cas.gens = s.cas.gens)
            ∧ (∀ n, item = .lamp n → t.outp.lamp = n ∧ t.cas.gens = s.cas.gens.map nextGen)
            ∧ (∀ x, item = .policy x → t.sup.policy = x ∧ t.cas.gens = s.cas.gens.map nextGen)
            ∧ (∀ x, item = .resident x → t.bank.resident = x ∧ t.cas.gens = s.cas.gens)
            ∧ (∀ e, item = .safeLook e → t.outp.safeLook = e ∧ t.cas.gens = s.cas.gens.map nextGen)
            ∧ (∀ n pts, item = .curve n pts → t.patch.curves = s.patch.curves.set (n - 1) pts)
            ∧ (∀ g i, item = .groups g → (t.patch.groups.get i) =
                { s.patch.groups.get i with members := (g.get i).members, curve := (g.get i).curve })
            ∧ (∀ i x, item = .input i x → t.inputs.get i = { s.inputs.get i with settings := x })
            ∧ (∀ l x, item = .line 0 (l.val + 1) x → t.line l = (s.line l).take x ∧ t.cas.gens = s.cas.gens)
            ∧ (∀ (n : Fin 3) (l : Fin 6) x, item = .line (n.val + 1) (l.val + 1) x →
                (t.cas.lineItems.get n).get l = x ∧ t.cas.gens = s.cas.gens.set n (nextGen (s.cas.gens.get n))))
        ∧ (∀ l c, w.kind = .cueWrite l c → w.bank ≠ none →
            t.eng.notices = s.eng.notices ++ (if w.bank = s.bank.active then [l] else []))
        ∧ (∀ l n, w.kind = .cueDelete l n → w.bank ≠ none →
            t.eng.notices = s.eng.notices ++ (if w.bank = s.bank.active then [l] else []))
        ∧ (∀ x b, w.kind = .windowWrite x → w.bank = some b → t.patch.notices = s.patch.notices ++
            (if s.bank.active = some b ∨ s.isTarget b = true then [PatchNotice.windows b x] else []))
        ∧ (∀ x b, w.kind = .patchWrite x → w.bank = some b → t.patch.notices = s.patch.notices ++
            (if s.bank.active = some b ∨ s.isTarget b = true then
              [PatchNotice.entries b (noticePairs x damaged (s.store.banks.get b).segments)] else []))
        ∧ ((w.kind = .bankErase ∨ ∃ x, w.kind = .bankTitle x) → t.eng = s.eng ∧ t.patch = s.patch)
        ∧ t.slots = s.slots ∧ t.merge = s.merge ∧ t.free = s.free ∧ t.wire = s.wire ∧ t.pending = s.pending
        ∧ t.sup.raised = s.sup.raised))
    ∧ (∀ b, w.kind = .bankErase → w.bank = some b → s.ctl.eraseStep < 27 →
        Settles (.writeStepDone (.done true damaged)) s (fun t =>
          t.store = s.storeAfter w damaged ∧ t.ctl.queue = s.ctl.queue ∧ t.ctl.op = none
          ∧ t.ctl.eraseStep = s.ctl.eraseStep + 1 ∧ (∀ b', t.proj b' = s.proj b')
          ∧ t.ram b = (if s.ctl.eraseStep = 0 then Header.blank else s.ram b)
          ∧ t.con = s.con ∧ t.aux = s.aux ∧ t.inside = ({ s with ctl := t.ctl, store := t.store }).inside))
    ∧ (∀ a : WriteAnswer, (a = .done false damaged ∨ a = .notDone) → Settles (.writeStepDone a) s (fun t =>
        t.store = s.store ∧ t.ctl.op = none ∧ t.ctl.queue.length = ws.length ∧ t.ctl.eraseStep = 0
        ∧ (t.port w.req.port).outgoing = (s.port w.req.port).outgoing
            ++ [{ kind := if (kindInfo w.req.kind.toNat).isSome then w.req.kind + 0x80 else 0xFF, tag := w.req.tag,
                  status := .writeFailed, fields := [] }]
        ∧ t.port (otherPort w.req.port) = s.port (otherPort w.req.port)
        ∧ (s.isFollower = false → t.sup.raised = s.sup.raised ++
            [{ kind := .storeFault, critical := false, value := 4, playback := none, cue := none, bank := w.bank,
               stage := none, time := s.sup.showTime }])
        ∧ (∀ b, w.bank = some b →
            t.ram b = (if w.kind = .bankErase then Header.blank else s.ram b)
            ∧ (t.proj b, t.ctl.queue) = State.reproject b (t.ram b) ws)
        ∧ (∀ b, w.bank ≠ some b → t.ram b = s.ram b ∧ t.proj b = s.proj b)
        ∧ (∀ l c, w.kind = .cueWrite l c → w.bank ≠ none →
            t.eng.notices = s.eng.notices ++ (if w.bank = s.bank.active then [l] else []))
        ∧ (∀ l n, w.kind = .cueDelete l n → w.bank ≠ none →
            t.eng.notices = s.eng.notices ++ (if w.bank = s.bank.active then [l] else []))
        ∧ (∀ item, w.kind = .houseWrite item → t.outp = s.outp ∧ t.bank = s.bank ∧ t.patch = s.patch ∧ t.eng = s.eng)
        ∧ t.link = s.link ∧ t.bank = s.bank ∧ t.patch = s.patch ∧ t.slots = s.slots ∧ t.merge = s.merge
        ∧ t.outp = s.outp ∧ t.cas = s.cas ∧ t.inputs = s.inputs ∧ t.free = s.free ∧ t.wire = s.wire)))
  ∧ (∀ (w : WriteEntry) (b : Bank),
       (∀ l c, w.kind = .cueWrite l c → w.bank = some b →
         w.fields = b2 b.val ++ b2 (num l) ++ b2 c.number ++ (if w.req.kind = 0x28 then b2 c.levels.length else []))
       ∧ (∀ pairs, w.kind = .patchWrite pairs → w.fields = b1 pairs.length)
       ∧ (∀ k, w.kind = .houseWrite (.resident k) → w.fields = b1 1 ++ b2 (bankCode k))
       ∧ (∀ n, w.kind = .houseWrite (.silence n) → w.fields = b1 2 ++ b2 n)
       ∧ (∀ x, w.kind = .houseWrite (.policy x) → w.fields = b1 3 ++ b2 (policyCode x))
       ∧ (∀ n, w.kind = .houseWrite (.safeFade n) → w.fields = b1 4 ++ b2 n)
       ∧ (∀ n, w.kind = .houseWrite (.backTime n) → w.fields = b1 5 ++ b2 n)
       ∧ (∀ n, w.kind = .houseWrite (.lamp n) → w.fields = b1 6 ++ b2 n)
       ∧ (∀ n pts, w.kind = .houseWrite (.curve n pts) → w.fields = b1 n ++ pts.flatMap b2)
       ∧ (∀ e, w.kind = .houseWrite (.safeLook e) → w.fields = b1 e.length)
       ∧ (∀ st l x, w.kind = .houseWrite (.line st l x) →
           w.fields = b1 st ++ b1 l ++ bBool x.enabled ++ bBool x.slow ++ bBool x.wide)
       ∧ (∀ g : Four GroupSettings, w.kind = .houseWrite (.groups g) →
           w.fields = four.flatMap (fun i => b1 (g.get i).curve ++ b1 (g.get i).members.length ++ (g.get i).members.flatMap b2))
       ∧ (∀ i x, w.kind = .houseWrite (.input i x) →
           w.fields = b1 (num i) ++ bBool x.enabled ++ b1 (num x.playback) ++ b1 x.action.code)
       ∧ ((w.kind = .bankErase ∨ (∃ l n, w.kind = .cueDelete l n) ∨ (∃ x, w.kind = .windowWrite x)
            ∨ ∃ x, w.kind = .bankTitle x) → w.fields = []))
  ∧ (∀ (s : State) (w : WriteEntry) (damaged : List Nat),
       let t : State := { s with store := s.storeAfter w damaged }
       (∀ item, w.kind = .houseWrite item → t.store.banks = s.store.banks ∧ t.storedItem item.id = some item
         ∧ ∀ i, i ≠ item.id → t.storedItem i = s.storedItem i)
       ∧ ∀ b : Bank, w.bank = some b → (∀ item, w.kind ≠ .houseWrite item) →
           t.store.house = s.store.house ∧ (∀ b', b' ≠ b → t.store.banks.get b' = s.store.banks.get b')
           ∧ (w.kind ≠ .bankErase → t.storedHeader b = some ((s.ram b).apply w.kind))
           ∧ (w.kind = .bankErase → t.storedHeader b = (if s.ctl.eraseStep = 0 then some { valid := false, title := [], dir := ⟨[], [], [], []⟩ }
               else if 27 ≤ s.ctl.eraseStep then some { valid := true, title := [], dir := ⟨[], [], [], []⟩ }
               else s.storedHeader b))
           ∧ (∀ l n, t.storedCue b l n = (match w.kind with
               | .cueWrite l' c => if l = l' ∧ n = c.number then some c else s.storedCue b l n
               | .cueDelete l' n' => if l = l' ∧ n = n' then none else s.storedCue b l n
               | .bankErase => if s.ctl.eraseStep = 26 then none else s.storedCue b l n
               | _ => s.storedCue b l n))
           ∧ t.storedWindows b = (match w.kind with
               | .windowWrite x => some x
               | .bankErase => if s.ctl.eraseStep = 25 then some ⟨none, none, none, none⟩ else s.storedWindows b
               | _ => s.storedWindows b)
           ∧ (∀ n, 1 ≤ n → n ≤ 24 → (s.store.banks.get b).segments.length = 24 →
               (w.kind = .bankErase → t.storedSegment b n = if s.ctl.eraseStep = n then some [] else s.storedSegment b n)
               ∧ (w.kind ≠ .bankErase → (∀ pairs, w.kind ≠ .patchWrite pairs) → t.storedSegment b n = s.storedSegment b n)
               ∧ ∀ pairs, w.kind = .patchWrite pairs → risesStrictly (pairs.map (fun e => e.1)) = true →
                   ((∀ e ∈ pairs, (e.1 - 1) / 96 + 1 ≠ n) → t.storedSegment b n = s.storedSegment b n)
                   ∧ ((∃ e ∈ pairs, (e.1 - 1) / 96 + 1 = n) → ∃ m, t.storedSegment b n = some m ∧
                       ∀ k, (k - 1) / 96 + 1 = n →
                         (∀ e ∈ pairs, e.1 = k → Assoc.find m k = e.2)
                         ∧ ((∀ e ∈ pairs, e.1 ≠ k) → Assoc.find m k =
                             if n ∈ damaged then none else (s.storedSegment b n).bind (fun old => Assoc.find old k)))))
  ∧ (∀ (pairs : List (Nat × Option PatchEntry)) (damaged : List Nat) (segments : List (Option (Checked (Assoc PatchEntry))))
       (k : Nat) (v : Option PatchEntry), risesStrictly (pairs.map (fun e => e.1)) = true →
       (∀ e ∈ pairs, 1 ≤ e.1 ∧ e.1 ≤ 2304) → segments.length = 24 →
       let n := (k - 1) / 96 + 1
       let rebuilt := n ∈ damaged ∨ Checked.read segmentBytes (segments.getD (n - 1) none) = none
       ((k, v) ∈ noticePairs pairs damaged segments ↔
         (k, v) ∈ pairs ∨ (rebuilt ∧ 1 ≤ k ∧ k ≤ 2304 ∧ (∃ e ∈ pairs, (e.1 - 1) / 96 + 1 = n) ∧ (∀ e ∈ pairs, e.1 ≠ k)
           ∧ v = none)))
  ∧ ∀ (b : Bank) (h : Header) (w : WriteEntry) (ws : List WriteEntry),
      State.reproject b h [] = (h, [])
      ∧ ((w.bank ≠ some b ∨ w.doomed ≠ none) →
          State.reproject b h (w :: ws) = ((State.reproject b h ws).1, w :: (State.reproject b h ws).2))
      ∧ (w.bank = some b → w.doomed = none →
          (∀ l c st, w.kind = .cueWrite l c → h.capacity l c = some st → State.reproject b h (w :: ws)
            = ((State.reproject b h ws).1, { w with doomed := some st } :: (State.reproject b h ws).2))
          ∧ (((∀ l c, w.kind ≠ .cueWrite l c) ∨ ∃ l c, w.kind = .cueWrite l c ∧ h.capacity l c = none) →
              State.reproject b h (w :: ws)
                = ((State.reproject b (h.apply w.kind) ws).1, w :: (State.reproject b (h.apply w.kind) ws).2)))

/-- A store device that gives no answer for 50 ms ends the operation as failed, with STORE_FAULT: critical for a fetch
and a load step, minor for the others; the owner then meets CHECK_FAILED, a failed write, or the default. A start-up
read's STORE_FAULT and default are held back while the role is undecided, raised and handed over at once on a part that
is LEADER, and dropped on a part that is not the leader; a header becomes BLANK in every role (R2, R3, R8, R14). A write
answered late raises one fault only (the model's choice, log 18). -/
def Obligations.StoreTimeoutEndsTheOperation : Prop :=
  ∀ s : State,
    let raised := fun (critical : Bool) (value : Nat) (p : Option PbId) (b : Option Bank) =>
      ({ kind := .storeFault, critical := critical, value := value, playback := p, cue := none, bank := b, stage := none,
         time := s.sup.showTime } : EngineFault)
    let freed : State := { s with ctl := { s.ctl with op := none } }
    (s.ctl.op = none → exec .storeTimeout s = .next s)
    ∧ (∀ p f, s.ctl.op = some (.fetch p f true) → exec .storeTimeout s = .next
        ((freed.raise (raised true 1 (some p) (some f.bank))).takeOutcome p f none).settle)
    ∧ (∀ p f, s.ctl.op = some (.fetch p f false) → exec .storeTimeout s = .next
        (freed.raise (raised true 1 (some p) (some f.bank))).settle)
    ∧ (∀ b n, s.ctl.op = some (.load b n true) → exec .storeTimeout s = .next
        ((freed.raise (raised true 2 none (some b))).takeLoad b n false).settle)
    ∧ (∀ b n, s.ctl.op = some (.load b n false) → exec .storeTimeout s = .next
        (freed.raise (raised true 2 none (some b))).settle)
    ∧ (∀ q b l n first, s.ctl.op = some (.hostRead (.cue q b l n first)) → exec .storeTimeout s = .next
        ((freed.raise (raised false 3 none (some b))).answer q .checkFailed []).settle)
    ∧ (∀ q b first count, s.ctl.op = some (.hostRead (.patch q b first count)) → exec .storeTimeout s = .next
        ((freed.raise (raised false 3 none (some b))).answer q .checkFailed []).settle)
    ∧ (∀ w ws, s.ctl.op = some .write → s.ctl.queue = w :: ws →
        exec .storeTimeout s = exec (.writeStepDone .notDone) s)
    ∧ (∀ i, s.ctl.op = some (.startUp i) → s.cas.role = .undecided → i ≤ 42 → Runs .storeTimeout s (fun t =>
        t.ctl.held = s.ctl.held ++ [.fault (raised false 5 none none), .item (defaultItem i) false]
        ∧ t.ctl.failed = s.ctl.failed ++ [i] ∧ t.ctl.op = some (.startUp (i + 1))
        ∧ t.inside = ({ s with ctl := t.ctl }).inside))
    ∧ (∀ (i : Nat) (b : Bank), s.ctl.op = some (.startUp i) → s.cas.role = .undecided → i = 43 + b.val →
        Runs .storeTimeout s (fun t => t.ctl.held = s.ctl.held ++ [.fault (raised false 5 none (some b))]
          ∧ t.ctl.failed = s.ctl.failed ∧ t.ram b = .blank ∧ t.proj b = .blank
          ∧ t.inside = ({ s with ctl := t.ctl }).inside))
    ∧ (∀ i, s.ctl.op = some (.startUp i) → s.cas.role = .leader → i ≤ 42 → Runs .storeTimeout s (fun t =>
        t.ctl.held = s.ctl.held ∧ t.ctl.failed = s.ctl.failed ++ [i] ∧ t.ctl.op = some (.startUp (i + 1))
        ∧ ({ s with sup := { s.sup with raised := s.sup.raised ++ [raised false 5 none none] } } : State).HasHanded
            (defaultItem i) t))
    ∧ (∀ (i : Nat) (b : Bank), s.ctl.op = some (.startUp i) → s.cas.role = .leader → i = 43 + b.val →
        Runs .storeTimeout s (fun t => t.ctl.held = s.ctl.held ∧ t.ctl.failed = s.ctl.failed ∧ t.ram b = .blank
          ∧ t.proj b = .blank ∧ t.inside = ({ s with
            ctl := t.ctl, sup := { s.sup with raised := s.sup.raised ++ [raised false 5 none (some b)] } }).inside))
    ∧ (∀ i, s.ctl.op = some (.startUp i) → s.isFollower = true → i ≤ 42 → Runs .storeTimeout s (fun t =>
        t.ctl.held = s.ctl.held ∧ t.ctl.failed = s.ctl.failed ++ [i] ∧ t.ctl.op = some (.startUp (i + 1))
        ∧ t.inside = ({ s with ctl := t.ctl }).inside))
    ∧ (∀ (i : Nat) (b : Bank), s.ctl.op = some (.startUp i) → s.isFollower = true → i = 43 + b.val →
        Runs .storeTimeout s (fun t => t.ctl.held = s.ctl.held ∧ t.ctl.failed = s.ctl.failed ∧ t.ram b = .blank
          ∧ t.proj b = .blank ∧ t.inside = ({ s with ctl := t.ctl }).inside))
    ∧ (s.isFollower = false → ∀ f, (s.raise f).sup = { s.sup with raised := s.sup.raised ++ [f] })
    ∧ (s.isFollower = true → ∀ f, s.raise f = s)

/-! ### Standby and playbacks -/

/-- The successor of a playback comes from the first source that applies: the explicit standby, the held link, the
first cue above the last-run cue, the first cue of the list; none with no active bank. A fetch ends at once in NONE or
MISSING, takes the copy of a queued write, or asks for the store port, and changes nothing but the standby, the fetch
in hand, the claims and the reports: STANDBY_CHANGED is sent for an outcome taken, and for an end at once in NONE or
MISSING unless the standby was in that state with that number before; entry into FETCHING sends none (R46, R50, R54,
R62). A block byte of 1 in STANDBY_CHANGED is yes, as in CUE_OPEN (the model's choice, log 52). -/
def Obligations.FetchesStartFromTheSuccessor : Prop :=
  (∀ (s : State) (p : PbId),
     (s.bank.active = none → s.successor p = none)
     ∧ ∀ b, s.bank.active = some b →
         (∀ n, (s.pb p).explicit = some n → s.successor p = some (n, .explicit))
         ∧ (∀ m n, (s.pb p).explicit = none → (s.pb p).lastRun = some { number := m, link := some n } →
             s.successor p = some (n, .link))
         ∧ (∀ m, (s.pb p).explicit = none → (s.pb p).lastRun = some { number := m, link := none } →
             s.successor p = (((s.proj b).dir.get p).find? (fun e => m < e.1)).map (fun e => (e.1, .order)))
         ∧ ((s.pb p).explicit = none → (s.pb p).lastRun = none →
             s.successor p = ((s.proj b).dir.get p).head?.map (fun e => (e.1, .first))))
  ∧ (∀ (s : State) (p : PbId),
       let t := s.startFetchCore p
       (t.con = s.con ∧ t.aux = s.aux ∧ t.inside = ({ s with ctl := t.ctl, eng := t.eng }).inside
         ∧ t.ctl.queue = s.ctl.queue ∧ t.ctl.hostReads = s.ctl.hostReads ∧ t.ctl.loadClaim = s.ctl.loadClaim
         ∧ t.ctl.ram = s.ctl.ram ∧ t.ctl.proj = s.ctl.proj
         ∧ t.eng = { s.eng with pb := t.eng.pb } ∧ (∀ q, q ≠ p → t.pb q = s.pb q)
         ∧ t.pb p = { s.pb p with standby := (t.pb p).standby, fetch := (t.pb p).fetch })
       ∧ (s.successor p = none → (t.pb p).standby = .none ∧ (t.pb p).fetch = none ∧ t.ctl.fetches.get p = none
           ∧ t.link = (if (s.pb p).standby = .none then s
               else s.report 0xE1 false (b1 (num p) ++ b1 0 ++ b2 0 ++ b1 0)).link)
       ∧ ∀ b n src, s.bank.active = some b → s.successor p = some (n, src) →
           ((src = .explicit ∨ src = .link) → Assoc.find ((s.proj b).dir.get p) n = none →
             (t.pb p).standby = .missing n src ∧ (t.pb p).fetch = none ∧ t.ctl.fetches.get p = none
             ∧ ((∃ old, (s.pb p).standby = .missing n old) → t.link = s.link)
             ∧ ((∀ old, (s.pb p).standby ≠ .missing n old) →
                 t.link = (s.report 0xE1 false (b1 (num p) ++ b1 3 ++ b2 n ++ b1 src.code)).link))
           ∧ (((src = .explicit ∨ src = .link) → Assoc.find ((s.proj b).dir.get p) n ≠ none) →
               (∀ c, s.cueAnswer b p n = .ready c → (t.pb p).standby = .ready b p src c ∧ (t.pb p).fetch = none
                 ∧ t.link = (s.report 0xE1 false (b1 (num p) ++ b1 1 ++ b2 c.number ++ b1 src.code ++ b1 c.label.length
                     ++ c.label ++ b2 c.up ++ bOpt c.down ++ bOpt c.follow ++ bBool c.block ++ b2 c.levels.length)).link)
               ∧ (s.cueAnswer b p n = .notFound → (t.pb p).standby = .missing n src ∧ (t.pb p).fetch = none
                   ∧ t.link = (s.report 0xE1 false (b1 (num p) ++ b1 3 ++ b2 n ++ b1 src.code)).link)
               ∧ (s.cueAnswer b p n = .readPort → (t.pb p).standby = .fetching n src
                   ∧ (t.pb p).fetch = some { bank := b, list := p, number := n, source := src }
                   ∧ t.ctl.fetches.get p = some { bank := b, list := p, number := n, source := src }
                   ∧ t.link = s.link)))

/-- The end of a standby fetch: the record makes the standby READY, a failed check makes it BAD and raises
STANDBY_CHECK, either is reported by STANDBY_CHANGED, a GO pending on it is handed the standby last, and an outcome no
longer wanted is dropped. A pending GO is taken on READY, and ends CHECK_FAILED on BAD, NOT_FOUND on MISSING and
END_OF_LIST on NONE, each as its source gives. A list notice starts a fetch, and a patch notice is written into the
active patch, the pending patch, or both, by its bank (R30, R31, R55 to R57, R59, R62, R67). A notice of either kind
is taken one at a time, in the order of the writes, and goes by the banks as they are when it is taken (the model's
choices, logs 5, 34 and 46). A block byte of 1 in STANDBY_CHANGED is yes, as in CUE_OPEN (the model's choice, log 52).
-/
def Obligations.FetchOutcomesAndNotices : Prop :=
  ∀ s : State,
    let readyReport := fun (p : PbId) (src : Source) (c : Cue) => s.report 0xE1 false (b1 (num p) ++ b1 1 ++ b2 c.number
      ++ b1 src.code ++ b1 c.label.length ++ c.label ++ b2 c.up ++ bOpt c.down ++ bOpt c.follow ++ bBool c.block
      ++ b2 c.levels.length)
    let badReport := fun (p : PbId) (n : Nat) (src : Source) => s.report 0xE1 false
      (b1 (num p) ++ b1 2 ++ b2 n ++ b1 src.code)
    (∀ p f wanted, s.ctl.op = some (.fetch p f wanted) →
      exec (.fetchDone .busy) s = .next s
      ∧ (∀ a : StoreAnswer, wanted = false → a ≠ .busy →
          exec (.fetchDone a) s = .next ({ s with ctl := { s.ctl with op := none } }).settle)
      ∧ (∀ c, wanted = true → s.storedCue f.bank f.list f.number = some c →
          (s.pb p).pendingGo = none → Settles (.fetchDone (.done true)) s (fun t =>
            t.pb p = { s.pb p with standby := .ready f.bank f.list f.source c, fetch := none }
            ∧ (∀ q, q ≠ p → t.pb q = s.pb q) ∧ t.slots = s.slots ∧ t.sup = s.sup ∧ t.ctl.op = none
            ∧ t.con = s.con ∧ t.aux = s.aux ∧ t.link = (readyReport p f.source c).link))
      ∧ (∀ c g, wanted = true → s.storedCue f.bank f.list f.number = some c →
          (s.pb p).pendingGo = some g → ∃ u : State,
            u.pb p = { s.pb p with standby := .ready f.bank f.list f.source c, fetch := none, pendingGo := none }
            ∧ (∀ q, q ≠ p → u.pb q = s.pb q) ∧ u.slots = s.slots ∧ u.con = s.con ∧ u.aux = s.aux ∧ u.inputs = s.inputs
            ∧ u.sup = s.sup ∧ u.bank = s.bank ∧ u.link = (readyReport p f.source c).link
            ∧ exec (.fetchDone (.done true)) s = .next (u.goTake p g.source g.override g.adjusted c).settle)
      ∧ (∀ a : StoreAnswer, wanted = true →
          (a = .done false ∨ a = .notDone ∨ (a = .done true ∧ s.storedCue f.bank f.list f.number = none)) →
          (s.pb p).pendingGo = none → Settles (.fetchDone a) s (fun t =>
            t.pb p = { s.pb p with standby := .bad f.number f.source, fetch := none }
            ∧ (∀ q, q ≠ p → t.pb q = s.pb q) ∧ t.slots = s.slots ∧ t.ctl.op = none ∧ t.con = s.con ∧ t.aux = s.aux
            ∧ t.link = (badReport p f.number f.source).link
            ∧ (s.isFollower = false → t.sup = { s.sup with raised := s.sup.raised ++
                [{ kind := .standbyCheck, critical := true, value := f.number, playback := some p, cue := none,
                   bank := some f.bank, stage := none, time := s.sup.showTime }] })))
      ∧ (∀ (a : StoreAnswer) (g : PendingGo), wanted = true →
          (a = .done false ∨ a = .notDone ∨ (a = .done true ∧ s.storedCue f.bank f.list f.number = none)) →
          (s.pb p).pendingGo = some g → ∃ u : State,
            u.pb p = { s.pb p with standby := .bad f.number f.source, fetch := none, pendingGo := none }
            ∧ (∀ q, q ≠ p → u.pb q = s.pb q) ∧ u.slots = s.slots ∧ u.con = s.con ∧ u.aux = s.aux ∧ u.inputs = s.inputs
            ∧ u.link = (badReport p f.number f.source).link
            ∧ (s.isFollower = false → u.sup = { s.sup with raised := s.sup.raised ++
                [{ kind := .standbyCheck, critical := true, value := f.number, playback := some p, cue := none,
                   bank := some f.bank, stage := none, time := s.sup.showTime }] })
            ∧ exec (.fetchDone a) s = .next (u.endGo p g.source .checkFailed).settle))
    ∧ (∀ p, (s.pb p).pendingGo = none → s.handPending p = s)
    ∧ (∀ p g, (s.pb p).pendingGo = some g →
        let u := s.setPb p { s.pb p with pendingGo := none }
        (∀ n src, (s.pb p).standby = .fetching n src → s.handPending p = s)
        ∧ (∀ b l src c, (s.pb p).standby = .ready b l src c → s.handPending p = u.goTake p g.source g.override g.adjusted c)
        ∧ (∀ n src, (s.pb p).standby = .bad n src → s.handPending p = u.endGo p g.source .checkFailed)
        ∧ (∀ n src, (s.pb p).standby = .missing n src → s.handPending p = u.endGo p g.source .notFound)
        ∧ ((s.pb p).standby = .none → s.handPending p = u.endGo p g.source .endOfList))
    ∧ (∀ p st,
        (∀ q, s.endGo p (.port q) st = s.answer q st [])
        ∧ (∀ i, s.endGo p (.input i) st = s.inputResult i p .go (.refused st) 0)
        ∧ (∀ n src, (s.pb p).standby = .missing n src → s.endGo p .follow .notFound = s.raise
            { kind := .followMissing, critical := false, value := n, playback := some p, cue := none, bank := none,
              stage := none, time := s.sup.showTime })
        ∧ ((st = .checkFailed ∨ st = .endOfList) → s.endGo p .follow st = s))
    ∧ (s.eng.notices = [] → exec .listNotice s = .next s)
    ∧ (∀ p rest, s.eng.notices = p :: rest → exec .listNotice s = .next
        ((({ s with eng := { s.eng with notices := rest } }).startFetchCore p).handPending p).settle)
    ∧ (s.patch.notices = [] → exec .patchNotice s = .next s)
    ∧ (∀ b pairs rest, s.patch.notices = .entries b pairs :: rest → exec .patchNotice s = .next
        { s with patch := { s.patch with
          notices := rest
          active := if s.bank.active = some b then writePairs pairs s.patch.active else s.patch.active
          pending := if s.isTarget b then writePairs pairs s.patch.pending else s.patch.pending } })
    ∧ (∀ b w rest, s.patch.notices = .windows b w :: rest → exec .patchNotice s = .next
        { s with patch := { s.patch with
          notices := rest
          windows := if s.bank.active = some b then w else s.patch.windows
          pendingWindows := if s.isTarget b then w else s.patch.pendingWindows } })

/-- GO, asked on a port, and the same GO from any source, a port, a follow or a cue input: its state checks in order;
a GO on a FETCHING standby becomes the pending GO, which an input reports PENDING; a GO on a READY standby is refused
NO_SLOT or POOL_FULL, or taken: the back entry is pushed, the slot created over the older ones, the cue becomes the
last-run cue, its follow starts, a port's reply and CUE_TAKEN go out, then an input's TAKEN, and the successor is
fetched (R66 to R70, R72, R82, R164). The playback takes 2 bytes in the reply and in CUE_TAKEN, as R70 marks no width
for it (the model's choice, log 13). CUE_TAKEN carries its times in tenths of a second (the model's choice, log 17).
"Back kept" in the reply and in CUE_TAKEN, which R70 gives 1 byte and no code, is 1 for yes and 0 for no (the model's
choice, log 52). -/
def Obligations.GoTakesTheStandby : Prop :=
  (∀ (s : State) (p : PortId) (r : Request) (rest : List Request) (q : PbId) (time : Nat), s.Head p 0x30 r rest →
    s.MayUse p .playback → s.sup.halted = false → r.body = b1 (num q) ++ b2 time → time ≤ 65535 →
    let override := if time = 65535 then none else some (min time 6000)
    let adjusted := decide (6000 < time ∧ time ≠ 65535)
    (s.bank.active = none → Answers (.go p) s p r rest .noShow [] s)
    ∧ (s.bank.active ≠ none → (s.pb q).standby = .none → Answers (.go p) s p r rest .endOfList [] s)
    ∧ (∀ n src, s.bank.active ≠ none → (s.pb q).standby = .missing n src → Answers (.go p) s p r rest .notFound [] s)
    ∧ (∀ n src, s.bank.active ≠ none → (s.pb q).standby = .bad n src → Answers (.go p) s p r rest .checkFailed [] s)
    ∧ (∀ n src, s.bank.active ≠ none → (s.pb q).standby = .fetching n src →
        ((s.pb q).pendingGo ≠ none → Answers (.go p) s p r rest .goPending [] s)
        ∧ ((s.pb q).pendingGo = none → Owes (.go p) s p rest (s.setPb q { s.pb q with
            pendingGo := some { source := .port (requesterOf p r), override := override, adjusted := adjusted } })))
    ∧ ∀ b l src c, s.bank.active ≠ none → (s.pb q).standby = .ready b l src c → (s.pb q).pendingGo = none →
        let moves := cueMoves q (s.pb q).look s.slots c
        (∀ st, slotRefusal q moves s.slots = some st → Answers (.go p) s p r rest st [] s)
        ∧ (slotRefusal q moves s.slots = none →
            let up := override.getD c.up
            let down := override.getD (c.down.getD c.up)
            let slots := s.unpausedSlots q
            let x := madeSlot slots q .cue (some c.number) up down c.upDelay c.downDelay moves
            let pushed := pushBack (s.pb q).back (s.backUse - stackUse (s.pb q).back)
              { cue := c.number, levels := moves.map (fun m => (m.channel, m.start)) }
            Settles (.go p) s (fun t =>
              s.Answered t p rest [replyTo r (if adjusted then .adjusted else .ok)
                (b2 (num q) ++ b2 c.number ++ b1 x.number ++ bBool pushed.2 ++ bOpt override)]
              ∧ t.slots = insertSlot x (takeover q moves slots)
              ∧ (∃ u : State, t = u.startFetchCore q ∧ u.ctl = s.ctl ∧ u.bank = s.bank
                ∧ u.link = (s.report 0xEF false (b2 (num q) ++ b2 c.number ++ b1 (ownerCode p) ++ b1 0 ++ b1 x.number
                    ++ bBool pushed.2 ++ b2 up ++ b2 down)).link
                ∧ u.pb q =
                  ({ s.pb q with
                      state := .running, look := x.writeLook 0 (s.pb q).look,
                      lastRun := some { number := c.number, link := c.link }, explicit := none,
                      follow := c.follow.map
                        (fun n => ({ steps := n * 10, paused := false, due := false } : FollowTimer)),
                      back := pushed.1 } : Playback))
              ∧ (∀ q', q' ≠ q → t.pb q' = s.pb q') ∧ t.shell = s.shell ∧ t.inputs = s.inputs ∧ t.sup = s.sup
              ∧ (s.link.reports.length < 16 →
                  s.link.reports ++
                    [{ kind := 0xEF, urgent := false, time := s.sup.showTime,
                       fields := b2 (num q) ++ b2 c.number ++ b1 (ownerCode p) ++ b1 0 ++ b1 x.number ++ bBool pushed.2
                        ++ b2 up ++ b2 down }] <+: t.link.reports))))
  ∧ ∀ (s : State) (q : PbId) (src : GoSource) (override : Option Nat) (adjusted : Bool),
      let go := s.goCommand q src override adjusted
      (s.bank.active = none → go = s.endGo q src .noShow)
      ∧ (s.bank.active ≠ none → (s.pb q).standby = .none → go = s.endGo q src .endOfList)
      ∧ (∀ n from_, s.bank.active ≠ none → (s.pb q).standby = .missing n from_ → go = s.endGo q src .notFound)
      ∧ (∀ n from_, s.bank.active ≠ none → (s.pb q).standby = .bad n from_ → go = s.endGo q src .checkFailed)
      ∧ (∀ n from_, s.bank.active ≠ none → (s.pb q).standby = .fetching n from_ →
          let u := s.setPb q { s.pb q with
            pendingGo := some { source := src, override := override, adjusted := adjusted } }
          ((s.pb q).pendingGo ≠ none → go = s.endGo q src .goPending)
          ∧ ((s.pb q).pendingGo = none → go = match src with
              | .input i => u.inputResult i q .go .pending 0
              | _ => u))
      ∧ ∀ b l from_ c, s.bank.active ≠ none → (s.pb q).standby = .ready b l from_ c → (s.pb q).pendingGo = none →
          let moves := cueMoves q (s.pb q).look s.slots c
          (∀ st, slotRefusal q moves s.slots = some st → go = s.endGo q src st)
          ∧ (slotRefusal q moves s.slots = none →
              let up := override.getD c.up
              let down := override.getD (c.down.getD c.up)
              let slots := s.unpausedSlots q
              let x := madeSlot slots q .cue (some c.number) up down c.upDelay c.downDelay moves
              let pushed := pushBack (s.pb q).back (s.backUse - stackUse (s.pb q).back)
                { cue := c.number, levels := moves.map (fun m => (m.channel, m.start)) }
              let taken := ({ s with slots := insertSlot x (takeover q moves slots) }).setPb q { s.pb q with
                state := .running, look := x.writeLook 0 (s.pb q).look,
                lastRun := some { number := c.number, link := c.link }, explicit := none,
                follow := c.follow.map (fun n => ({ steps := n * 10, paused := false, due := false } : FollowTimer)),
                back := pushed.1 }
              let replied := match src with
                | .port from_ => taken.answer from_ (if adjusted then .adjusted else .ok)
                    (b2 (num q) ++ b2 c.number ++ b1 x.number ++ bBool pushed.2 ++ bOpt override)
                | _ => taken
              let source := match src with
                | .port from_ => b1 (ownerCode from_.port) ++ b1 0
                | .follow => b1 3 ++ b1 0
                | .input i => b1 4 ++ b1 (num i)
              let told := replied.report 0xEF false (b2 (num q) ++ b2 c.number ++ source ++ b1 x.number ++ bBool pushed.2
                ++ b2 up ++ b2 down)
              go = (match src with
                | .input i => told.inputResult i q .go .taken c.number
                | _ => told).startFetchCore q)

/-- A cue moves each channel it names from the look's level to its own, and a block cue also every other channel above
0 or held by a move to 0. A push onto a back stack keeps at most 4 entries and the back pool within 8,192 prior
levels, dropping only the oldest entries of its own stack; when the room does not suffice even so, the stack is left
empty and "back kept" is no. A new slot takes its channels from the older slots of its playback, and a slot that loses
its last move is freed, one that had none is not; NO_SLOT is given when 48 slots stand and none is freed so, and then
POOL_FULL when the moves left and the new ones exceed 16,384; the lowest free number is taken (R47, R48, R68, R69,
R89, R90). That an older slot without moves makes no room in the slot test of R68 is the model's reading (log 22). -/
def Obligations.MovesAndBackEntriesOfACue : Prop :=
  (∀ (p : PbId) (look : Look) (slots : List Slot) (c : Cue), Assoc.wf c.levels = true → Assoc.wf look = true →
     (c.block = false → cueMoves p look slots c =
       c.levels.map (fun e => { channel := e.1, start := look.level e.1, target := e.2 }))
     ∧ (∀ m, m ∈ cueMoves p look slots c ↔
         m.start = look.level m.channel
         ∧ ((∃ e ∈ c.levels, e.1 = m.channel ∧ e.2 = m.target)
             ∨ (c.block = true ∧ (∀ e ∈ c.levels, e.1 ≠ m.channel) ∧ m.target = 0
                 ∧ ((∃ e ∈ look, e.1 = m.channel) ∨ ∃ x ∈ slots, x.playback = p ∧ ∃ y ∈ x.moves, y.channel = m.channel))))
     ∧ risesStrictly ((cueMoves p look slots c).map (fun m => m.channel)) = true)
  ∧ (∀ (stack : List BackEntry) (others : Nat) (e : BackEntry), stack.length ≤ 4 → others + stackUse stack ≤ 8192 →
       (8192 < others + e.levels.length → pushBack stack others e = ([], false))
       ∧ (others + e.levels.length ≤ 8192 → ∃ n : Nat, pushBack stack others e = (e :: stack.take n, true)
           ∧ n ≤ 3 ∧ others + e.levels.length + stackUse (stack.take n) ≤ 8192
           ∧ (n < stack.length → n = 3 ∨ 8192 < others + e.levels.length + stackUse (stack.take (n + 1))))
       ∧ (pushBack stack others e).1.length ≤ 4)
  ∧ (∀ (p : PbId) (moves : List Move) (slots : List Slot),
       let left := fun (y : Slot) => y.moves.filter (fun m => decide (∀ m' ∈ moves, m'.channel ≠ m.channel))
       let freed := fun (y : Slot) => y.playback = p ∧ y.moves ≠ [] ∧ left y = []
       let kept := takeover p moves slots
       (∀ x, x ∈ kept ↔ ∃ y ∈ slots, ¬ freed y ∧ x = if y.playback = p then { y with moves := left y } else y)
       ∧ (kept.map (fun x => x.number)).Sublist (slots.map (fun x => x.number))
       ∧ (∀ x ∈ kept, x.playback = p → ∀ m ∈ x.moves, ∀ m' ∈ moves, m'.channel ≠ m.channel)
       ∧ (48 ≤ slots.length → (∀ y ∈ slots, ¬ freed y) → slotRefusal p moves slots = some .noSlot)
       ∧ ((slots.length < 48 ∨ ∃ y ∈ slots, freed y) →
           (16384 < (kept.map (fun x => x.moves.length)).sum + moves.length → slotRefusal p moves slots = some .poolFull)
           ∧ ((kept.map (fun x => x.moves.length)).sum + moves.length ≤ 16384 → slotRefusal p moves slots = none)))
  ∧ (∀ (slots : List Slot) (n : Nat), 1 ≤ n → n ≤ 48 → (∀ x ∈ slots, x.number ≠ n) →
       (∀ m, 1 ≤ m → m < n → ∃ x ∈ slots, x.number = m) → freeSlot slots = n)
  ∧ ∀ (x : Slot) (slots : List Slot), (insertSlot x slots).Perm (x :: slots)
      ∧ ((slots.map (fun y => y.number)).Pairwise (· < ·) → (∀ y ∈ slots, y.number ≠ x.number) →
          ((insertSlot x slots).map (fun y => y.number)).Pairwise (· < ·))

/-- BACK: NO_BACK, GO_PENDING, NO_SLOT and POOL_FULL in order; else the top entry is popped, a BACK slot fades to its
prior levels over the back time, the popped cue becomes the explicit standby, and its fetch is started as for any
standby (R54, R73). The playback takes 1 byte in the reply, as in the request, and the slot number and the depth the 2
bytes of R164, since R73 marks no width for them in the reply (the model's choice, log 13). -/
def Obligations.BackReturnsToThePriorLevels : Prop :=
  ∀ (s : State) (p : PortId) (r : Request) (rest : List Request) (q : PbId), s.Head p 0x31 r rest →
    s.MayUse p .playback → s.sup.halted = false → r.body = b1 (num q) →
    ((s.pb q).back = [] → Answers (.back p) s p r rest .noBack [] s)
    ∧ ∀ top more, (s.pb q).back = top :: more →
        let moves := top.levels.map (fun e => ({ channel := e.1, start := (s.pb q).look.level e.1, target := e.2 } : Move))
        ((s.pb q).pendingGo ≠ none → Answers (.back p) s p r rest .goPending [] s)
        ∧ (∀ st, (s.pb q).pendingGo = none → slotRefusal q moves s.slots = some st →
            Answers (.back p) s p r rest st [] s)
        ∧ ((s.pb q).pendingGo = none → slotRefusal q moves s.slots = none →
            let slots := s.unpausedSlots q
            let x := madeSlot slots q .back (some top.cue) s.eng.backTime s.eng.backTime 0 0 moves
            Settles (.back p) s (fun t =>
              s.Answered t p rest [replyTo r .ok (b1 (num q) ++ b2 top.cue ++ b2 x.number ++ b2 more.length)]
              ∧ t.slots = insertSlot x (takeover q moves slots)
              ∧ (t.pb q).state = .running ∧ (t.pb q).look = x.writeLook 0 (s.pb q).look
              ∧ (t.pb q).lastRun = (s.pb q).lastRun ∧ (t.pb q).explicit = some top.cue ∧ (t.pb q).follow = none
              ∧ (t.pb q).back = more ∧ (t.pb q).master = (s.pb q).master ∧ (t.pb q).pendingGo = none
              ∧ (let u := (s.setPb q { s.pb q with
                   state := .running, look := x.writeLook 0 (s.pb q).look, explicit := some top.cue, follow := none,
                   back := more }).startFetchCore q
                 t.pb q = u.pb q ∧ t.ctl = u.ctl ∧ t.link = u.link)
              ∧ (∀ q', q' ≠ q → t.pb q' = s.pb q') ∧ t.shell = s.shell ∧ t.inputs = s.inputs ∧ t.sup = s.sup))

/-- HOLD pauses the slots and the follow timer of a playback that is RUNNING, or SETTLED with its follow running;
RESUME lets them go on from where they stood; else IDLE_PLAYBACK, but a HOLD of a HELD playback changes nothing (R65,
R74, R75). The due mark of a follow timer is cleared by HOLD (the model's choice, log 23). The new state in the two
replies, which R74 and R75 mark with no width, takes the 2 bytes of R164, and the playback keeps the 1 byte that they
mark for it (the model's choice, log 13). The new state has the codes that R83 gives for PLAYBACK_READ, since R74 and
R75 give none (the model's choice, log 54). -/
def Obligations.HoldPausesAndResumeGoesOn : Prop :=
  ∀ (s : State) (p : PortId) (r : Request) (rest : List Request) (q : PbId), s.MayUse p .playback →
    s.sup.halted = false → r.body = b1 (num q) →
    let count := (s.slots.filter (fun x => x.playback = q)).length
    (s.Head p 0x32 r rest →
      (((s.pb q).state = .running ∨ ((s.pb q).state = .settled ∧ (s.pb q).follow ≠ none)) →
        Does (.hold p) s p r rest .ok
          (b1 (num q) ++ b2 2 ++ b2 count ++ bOpt ((s.pb q).follow.map (fun f => f.steps)))
          (({ s with slots := s.slots.map (fun x : Slot => if x.playback = q then { x with paused := true } else x) }).setPb q
            { s.pb q with
              state := .held, follow := (s.pb q).follow.map (fun f : FollowTimer => { f with paused := true, due := false }) }))
      ∧ ((s.pb q).state = .held → Does (.hold p) s p r rest .ok
          (b1 (num q) ++ b2 2 ++ b2 count ++ bOpt ((s.pb q).follow.map (fun f => f.steps))) s)
      ∧ (((s.pb q).state = .empty ∨ ((s.pb q).state = .settled ∧ (s.pb q).follow = none)) →
          Refuses (.hold p) s p r rest .idlePlayback))
    ∧ (s.Head p 0x33 r rest →
        ((s.pb q).state = .held → Does (.resume p) s p r rest .ok
          (b1 (num q) ++ b2 (if count = 0 then 3 else 1))
          (({ s with slots := s.slots.map (fun x : Slot => if x.playback = q then { x with paused := false } else x) }).setPb q
            { s.pb q with
              state := if count = 0 then .settled else .running,
              follow := (s.pb q).follow.map (fun f : FollowTimer => { f with paused := false }) }))
        ∧ ((s.pb q).state ≠ .held → Refuses (.resume p) s p r rest .idlePlayback))

/-- JUMP makes a cue the explicit standby and starts its fetch as for any standby, and changes neither the look, nor
the slots, nor a follow that runs (R54, R61). The playback in the reply, which R61 marks with 1 byte in the request
alone, takes 1 byte there too (the model's choice, log 13). -/
def Obligations.JumpSetsTheStandby : Prop :=
  ∀ (s : State) (p : PortId) (r : Request) (rest : List Request) (q : PbId) (n : Nat), s.Head p 0x34 r rest →
    s.MayUse p .playback → s.sup.halted = false → r.body = b1 (num q) ++ b2 n → 1 ≤ n → n ≤ 9999 →
    (s.bank.active = none → Answers (.jump p) s p r rest .noShow [] s)
    ∧ ∀ b, s.bank.active = some b →
        ((s.pb q).pendingGo ≠ none → Answers (.jump p) s p r rest .goPending [] s)
        ∧ ((s.pb q).pendingGo = none → Assoc.find ((s.proj b).dir.get q) n = none →
            Answers (.jump p) s p r rest .notFound [] s)
        ∧ ((s.pb q).pendingGo = none → Assoc.find ((s.proj b).dir.get q) n ≠ none →
            Settles (.jump p) s (fun t =>
              s.Answered t p rest [replyTo r .ok (b1 (num q) ++ b2 n)]
              ∧ t.pb q = { s.pb q with
                  explicit := some n, standby := (t.pb q).standby, fetch := (t.pb q).fetch }
              ∧ (let u := (s.setPb q { s.pb q with explicit := some n }).startFetchCore q
                 t.pb q = u.pb q ∧ t.ctl = u.ctl ∧ t.link = u.link)
              ∧ (∀ q', q' ≠ q → t.pb q' = s.pb q') ∧ t.slots = s.slots ∧ t.shell = s.shell ∧ t.inputs = s.inputs
              ∧ t.sup = s.sup))

/-- RELEASE clears a playback's sequence and fades it out: an EMPTY playback gets no slot; any other a RELEASE slot to
0 on every channel above 0 or held by a move, over the stored time, and each older slot of the playback is freed
without CUE_COMPLETE, so that the RELEASE slot is its only one and covers its look. NO_SLOT is given when 48 slots
stand and the playback has none of them, then POOL_FULL. A GO pending on it is ended CANCELLED first, answered to the
port it came from, spent silently as a follow's, or reported as an input's, and last the successor's fetch is started
(R67, R76). That step 5 of R76 frees an older slot without moves too, which the takeover of R90 does not free, is the
model's reading (log 45). The playback takes 1 byte in the reply, as in the request, and the slot number the 2 bytes of
R164, since R76 marks no width for them there (the model's choice, log 13). -/
def Obligations.ReleaseFadesOut : Prop :=
  ∀ (s : State) (p : PortId) (r : Request) (rest : List Request) (q : PbId) (sent : Nat), s.Head p 0x35 r rest →
    s.MayUse p .playback → s.sup.halted = false → r.body = b1 (num q) ++ b2 sent → sent ≤ 65535 →
    let time := min sent 6000
    let st := if 6000 < sent then Status.adjusted else Status.ok
    let moves := releaseMoves q (s.pb q).look s.slots
    let others := s.slots.filter (fun y => y.playback ≠ q)
    let full := 48 ≤ s.slots.length ∧ ∀ y ∈ s.slots, y.playback ≠ q
    let x : Slot :=
      { number := freeSlot others, playback := q, kind := .release, cue := none, up := time * 10, down := time * 10,
        upDelay := 0, downDelay := 0, elapsed := 0, paused := false, moves := moves }
    let told := (s.takeOff p rest).tellPending q (s.pb q).pendingGo .cancelled
    ((s.pb q).state = .empty → exec (.release p) s = .next
      (((told.setPb q { s.pb q with lastRun := none, explicit := none, pendingGo := none }).answer (requesterOf p r) st
        (b1 (num q) ++ b2 0 ++ b2 time)).startFetchCore q).settle)
    ∧ ((s.pb q).state ≠ .empty → full → Answers (.release p) s p r rest .noSlot [] s)
    ∧ ((s.pb q).state ≠ .empty → ¬ full → 16384 < (others.map (fun y => y.moves.length)).sum + moves.length →
        Answers (.release p) s p r rest .poolFull [] s)
    ∧ ((s.pb q).state ≠ .empty → ¬ full → (others.map (fun y => y.moves.length)).sum + moves.length ≤ 16384 →
        exec (.release p) s = .next
          (((({ told with slots := insertSlot x others }).setPb q { s.pb q with
              state := .running, look := x.writeLook 0 (s.pb q).look, follow := none, back := [], lastRun := none,
              explicit := none, pendingGo := none }).answer (requesterOf p r) st
            (b1 (num q) ++ b2 x.number ++ b2 time)).startFetchCore q).settle)
    ∧ ((s.pb q).state = .empty → (s.pb q).pendingGo = none → Settles (.release p) s (fun t =>
        s.Answered t p rest [replyTo r st (b1 (num q) ++ b2 0 ++ b2 time)]
        ∧ t.pb q = { s.pb q with
            lastRun := none, explicit := none, standby := (t.pb q).standby, fetch := (t.pb q).fetch }
        ∧ (∀ q', q' ≠ q → t.pb q' = s.pb q') ∧ t.slots = s.slots ∧ t.shell = s.shell ∧ t.inputs = s.inputs
        ∧ t.sup = s.sup))
    ∧ ((s.pb q).state ≠ .empty → ¬ full → (others.map (fun y => y.moves.length)).sum + moves.length ≤ 16384 →
        (s.pb q).pendingGo = none → Settles (.release p) s (fun t =>
          s.Answered t p rest [replyTo r st (b1 (num q) ++ b2 x.number ++ b2 time)]
          ∧ t.slots = insertSlot x others ∧ t.FadingOut q x
          ∧ t.pb q = { s.pb q with
              state := .running, look := x.writeLook 0 (s.pb q).look, follow := none, back := [], lastRun := none,
              explicit := none, standby := (t.pb q).standby, fetch := (t.pb q).fetch }
          ∧ (∀ q', q' ≠ q → t.pb q' = s.pb q') ∧ t.shell = s.shell ∧ t.inputs = s.inputs ∧ t.sup = s.sup))
    ∧ (∀ q' o a, (s.pb q).pendingGo = some { source := .port q', override := o, adjusted := a } →
        s.endPending q .cancelled = (s.setPb q { s.pb q with pendingGo := none }).answer q' .cancelled [])
    ∧ (∀ o a, (s.pb q).pendingGo = some { source := .follow, override := o, adjusted := a } →
        s.endPending q .cancelled = s.setPb q { s.pb q with pendingGo := none })
    ∧ (∀ m, m ∈ moves → m.target = 0 ∧ m.start = (s.pb q).look.level m.channel)
    ∧ (∀ c, (∃ m ∈ moves, m.channel = c) ↔
        ((∃ e ∈ (s.pb q).look, e.1 = c) ∨ ∃ y ∈ s.slots, y.playback = q ∧ ∃ m ∈ y.moves, m.channel = c))

/-- The follow timers that run unpaused count on their own timer while the engine is NORMAL, and expire at 0; an
expiry acts as a GO: a READY cue is taken, a refusal or a MISSING cue raises its fault, a FETCHING standby makes it
the pending GO, and else it is spent. The timer is idle after it (R71, R72; log 23). The expiry of a playback the part
has not got changes nothing (the model's choice, log 33). -/
def Obligations.FollowsCountAndExpire : Prop :=
  ∀ s : State,
    (s.sup.halted = true → exec .followTimerCount s = .next s)
    ∧ (s.sup.halted = false → Runs .followTimerCount s (fun t => t = { s with eng := { s.eng with pb := t.eng.pb } }
        ∧ ∀ p, t.pb p = { s.pb p with follow := (s.pb p).follow.map (fun f =>
            if f.paused = true ∨ f.due = true then f
            else { f with steps := f.steps - 1, due := decide (f.steps ≤ 1) }) }))
    ∧ (∀ p : PbId, ((s.pb p).follow = none ∨ s.sup.halted = true ∨ ∃ f, (s.pb p).follow = some f ∧ f.due = false) →
        exec (.followExpiry (num p)) s = .next s)
    ∧ (∀ n : Nat, (n = 0 ∨ 4 < n) → exec (.followExpiry n) s = .next s)
    ∧ ∀ (p : PbId) (f : FollowTimer), (s.pb p).follow = some f → f.due = true → s.sup.halted = false →
        s.isFollower = false → s.bank.active ≠ none →
        let idle := s.setPb p { s.pb p with follow := none }
        let fault := fun (kind : EngineFaultKind) (value : Nat) => ({ idle with sup := { idle.sup with
          raised := idle.sup.raised ++
            [({ kind := kind, critical := false, value := value, playback := some p, cue := none, bank := none,
                stage := none, time := s.sup.showTime } : EngineFault)] } } : State)
        (∀ b l src c, (s.pb p).standby = .ready b l src c → (s.pb p).pendingGo = none →
          (slotRefusal p (cueMoves p (s.pb p).look s.slots c) s.slots = none →
            exec (.followExpiry (num p)) s = .next (idle.goTake p .follow none false c).settle)
          ∧ (∀ st, slotRefusal p (cueMoves p (s.pb p).look s.slots c) s.slots = some st →
              exec (.followExpiry (num p)) s = .next (fault .followRefused st.code).settle))
        ∧ (∀ n src, (s.pb p).standby = .missing n src →
            exec (.followExpiry (num p)) s = .next (fault .followMissing n).settle)
        ∧ (((s.pb p).standby = .none ∨ (∃ n src, (s.pb p).standby = .bad n src)
              ∨ (∃ n src, (s.pb p).standby = .fetching n src ∧ (s.pb p).pendingGo ≠ none)) →
            exec (.followExpiry (num p)) s = .next idle.settle)
        ∧ (∀ n src, (s.pb p).standby = .fetching n src → (s.pb p).pendingGo = none →
            exec (.followExpiry (num p)) s = .next (idle.setPb p { idle.pb p with
              pendingGo := some { source := .follow, override := none, adjusted := false } }).settle)

/-! ### Merge, parks, controls and the patch -/

/-- PARK parks one channel: its entry is removed and the new one joins the end of the table, with the stored level and
the port as owner, at once; PARKS_FULL when a channel that is not parked meets a table of 64. UNPARK removes a
channel's entry whoever owns it, every entry from the Console Port, and the Auxiliary Port's own from that port,
keeping the order of the rest; a channel freed takes its output from the playbacks again. Both are taken from either
port with PARK and while HALTED (R110, R111). -/
def Obligations.ParksAreMadeAndRemoved : Prop :=
  ∀ (s : State) (p : PortId) (r : Request) (rest : List Request),
    let with_ := fun (parks : List Park) => ({ s with merge := { s.merge with parks := parks } } : State)
    (s.Head p 0x40 r rest → p = .aux → s.link.mask.park = false → Refuses (.park p) s p r rest .notPermitted)
    ∧ (s.Head p 0x41 r rest → p = .aux → s.link.mask.park = false → Refuses (.unpark p) s p r rest .notPermitted)
    ∧ (s.Head p 0x40 r rest → s.MayUse p .park →
        let c := wordAt r.body 0
        let sent := wordAt r.body 2
        let level := min sent 1000
        let old := s.merge.parks.find? (fun x => x.channel = c)
        let parks := s.merge.parks.filter (fun x => x.channel ≠ c)
          ++ [({ channel := c, level := level, owner := p } : Park)]
        (r.body.length ≠ 4 → Refuses (.park p) s p r rest .badLength)
        ∧ (r.body.length = 4 → (c < 1 ∨ 1536 < c) → Refuses (.park p) s p r rest .badValue)
        ∧ (r.body.length = 4 → 1 ≤ c → c ≤ 1536 → old = none → 64 ≤ s.merge.parks.length →
            Refuses (.park p) s p r rest .parksFull)
        ∧ (r.body.length = 4 → 1 ≤ c → c ≤ 1536 → (old ≠ none ∨ s.merge.parks.length < 64) →
            Does (.park p) s p r rest (if 1000 < sent then .adjusted else .ok)
              (b2 c ++ b2 level
                ++ (match old with
                    | none => b1 0 ++ b2 65535
                    | some x => b1 (match x.owner with | .console => 1 | .aux => 2) ++ b2 x.level)
                ++ b1 parks.length) (with_ parks)
            ∧ (with_ parks).output c = level))
    ∧ (s.Head p 0x41 r rest → s.MayUse p .park →
        let c := wordAt r.body 0
        let removes := fun (keep : List Park) => Does (.unpark p) s p r rest .ok
          (b1 (s.merge.parks.length - keep.length) ++ b1 keep.length) (with_ keep)
        (r.body.length ≠ 2 → Refuses (.unpark p) s p r rest .badLength)
        ∧ (r.body.length = 2 → 1536 < c → Refuses (.unpark p) s p r rest .badValue)
        ∧ (r.body.length = 2 → 1 ≤ c → c ≤ 1536 → (∀ x ∈ s.merge.parks, x.channel ≠ c) →
            Refuses (.unpark p) s p r rest .notFound)
        ∧ (r.body.length = 2 → 1 ≤ c → c ≤ 1536 → (∃ x ∈ s.merge.parks, x.channel = c) →
            removes (s.merge.parks.filter (fun x => x.channel ≠ c)))
        ∧ (r.body.length = 2 → c = 0 → p = .console → removes [])
        ∧ (r.body.length = 2 → c = 0 → p = .aux → removes (s.merge.parks.filter (fun x => x.owner ≠ .aux))))
    ∧ ∀ (keep : List Park) (c : Nat), (∀ x ∈ keep, x.channel ≠ c) →
        (with_ keep).output c = if s.merge.blackout then 0 else s.merged c * s.merge.grand / 1000

/-- MASTER, HOUSE_FADE, BLACKOUT, LINE_HOLD, ACCESS_SET and LOSS_CLEAR set what they name at once, legalized where
their rules say so, also while HALTED, and change nothing else (R44, R78, R108, R137, R171, R181). The group in the
reply of HOUSE_FADE and the target in the reply of MASTER, which R44 and R78 mark with 1 byte in their requests alone,
take 1 byte there too (the model's choice, log 13). Bits 6 and 7 of the hold flags in the reply of LINE_HOLD, which
R137 leaves open, are 0 (the model's choice, log 55). -/
def Obligations.ControlsActAtOnce : Prop :=
  ∀ (s : State) (p : PortId) (r : Request) (rest : List Request),
    (∀ target level : Nat, s.Head p 0x36 r rest → s.MayUse p .playback → r.body = b1 target ++ b2 level →
      target ≤ 255 → level ≤ 65535 →
      (4 < target → Refuses (.master p) s p r rest .badValue)
      ∧ (target = 0 → Does (.master p) s p r rest (if 1000 < level then .adjusted else .ok)
          (b1 0 ++ b2 (min level 1000)) { s with merge := { s.merge with grand := min level 1000 } })
      ∧ (∀ q : PbId, target = num q → Does (.master p) s p r rest (if 1000 < level then .adjusted else .ok)
          (b1 (num q) ++ b2 (min level 1000)) (s.setPb q { s.pb q with master := min level 1000 })))
    ∧ (s.isFollower = false →
        (∀ (g : Fin 4) (level time : Nat), s.Head .console 0x59 r rest → r.body = b1 (num g) ++ b2 level ++ b2 time →
          level ≤ 65535 → time ≤ 65535 →
          Does (.houseFade .console) s .console r rest (if 1000 < level ∨ 6000 < time then .adjusted else .ok)
            (b1 (num g) ++ b2 (min level 1000) ++ b2 (min time 6000))
            { s with
              patch := { s.patch with
                groups := s.patch.groups.set g
                  { s.patch.groups.get g with
                    target := min level 1000, steps := min time 6000 * 10,
                    level := if time = 0 then min level 1000 else (s.patch.groups.get g).level } } })
        ∧ (s.Head .console 0x59 r rest → r.body.length = 5 → (byteAt r.body 0 < 1 ∨ 4 < byteAt r.body 0) →
            Refuses (.houseFade .console) s .console r rest .badValue)
        ∧ (∀ on : Bool, s.Head .console 0x5A r rest → r.body = bBool on →
            Does (.blackout .console) s .console r rest .ok (bBool on ++ bBool s.merge.blackout)
              { s with merge := { s.merge with blackout := on } })
        ∧ (s.Head .console 0x5A r rest → r.body.length = 1 → 1 < byteAt r.body 0 →
            Refuses (.blackout .console) s .console r rest .badValue)
        ∧ (∀ (on : Bool) (t : State) (n : Nat), s.Head .console 0x5B r rest → r.body = b1 n ++ bBool on →
            ((n = 0 ∧ t = { s with
                outp := { s.outp with lines := s.outp.lines.map (fun x : Line => { x with hold := on }) } })
              ∨ ∃ l : Fin 6, n = l.val + 1 ∧ t = s.setLine l { s.line l with hold := on }) →
            Does (.lineHold .console) s .console r rest .ok (b1 n ++ b1 s.holdFlags ++ b1 t.holdFlags) t)
        ∧ (s.Head .console 0x5B r rest → r.body.length = 2 → (6 < byteAt r.body 0 ∨ 1 < byteAt r.body 1) →
            Refuses (.lineHold .console) s .console r rest .badValue)
        ∧ (∀ n : Nat, s.Head .console 0x5C r rest → r.body = b1 n → n ≤ 31 →
            Does (.accessSet .console) s .console r rest .ok (b1 s.link.mask.toNat ++ b1 n)
              { s with link := { s.link with mask := Mask.ofNat n } })
        ∧ (∀ n : Nat, s.Head .console 0x5C r rest → r.body = b1 n → 31 < n → n ≤ 255 →
            Refuses (.accessSet .console) s .console r rest .badValue)
        ∧ (s.Head .console 0x5D r rest → r.body = [] →
            Does (.lossClear .console) s .console r rest .ok (b1 (lossCode s.sup.loss) ++ b2 s.outp.blend ++ b2 0)
              { s with sup := { s.sup with loss := none }, outp := { s.outp with target := 0 } }))
    ∧ (s.holdFlags < 64 ∧ ∀ l : Fin 6, s.holdFlags.testBit l.val = (s.line l).hold)
    ∧ ∀ n : Nat, n ≤ 31 → (Mask.ofNat n).toNat = n ∧ (Mask.ofNat n).holds .read = n.testBit 0
        ∧ (Mask.ofNat n).holds .edit = n.testBit 1 ∧ (Mask.ofNat n).holds .playback = n.testBit 2
        ∧ (Mask.ofNat n).holds .park = n.testBit 3 ∧ (Mask.ofNat n).holds .faults = n.testBit 4

/-- The channel output is a park's level, else 0 in blackout, else the largest of the four looks scaled by their
masters, scaled by the grand master; it lies in 0 to 1000 and depends on nothing else. The circuit level is given by
the first source that applies: a house group's fader through its curve, the active patch's entry, a window's channel
on curve 0, or 0, and the source that CIRCUIT_READ names is that one; a curve is followed in a straight line between
its points (R27, R28, R37, R38, R105, R106). -/
def Obligations.OutputsAndCircuitLevels : Prop :=
  (∀ (s : State) (c : Nat),
     (∀ x, s.merge.parks.find? (fun y => y.channel = c) = some x → s.output c = x.level)
     ∧ ((∀ x ∈ s.merge.parks, x.channel ≠ c) → s.merge.blackout = true → s.output c = 0)
     ∧ ((∀ x ∈ s.merge.parks, x.channel ≠ c) → s.merge.blackout = false →
         s.output c = s.merged c * s.merge.grand / 1000
         ∧ (∀ p, (s.pb p).look.level c * (s.pb p).master / 1000 ≤ s.merged c)
         ∧ ∃ p, s.merged c = (s.pb p).look.level c * (s.pb p).master / 1000)
     ∧ ((∀ x ∈ s.merge.parks, x.channel ≠ c) → (∀ p, (s.pb p).look = []) → s.output c = 0)
     ∧ ((∀ p, (s.pb p).look.level c ≤ 1000 ∧ (s.pb p).master ≤ 1000) → s.merge.grand ≤ 1000 →
         (∀ x ∈ s.merge.parks, x.level ≤ 1000) →
         s.output c ≤ 1000 ∧ s.merged c ≤ 1000 ∧ s.merged c * s.merge.grand ≤ 1000000
         ∧ ∀ p, (s.pb p).look.level c * (s.pb p).master ≤ 1000000)
     ∧ ∀ t : State, t.merge = s.merge → (∀ p, (t.pb p).look = (s.pb p).look ∧ (t.pb p).master = (s.pb p).master) →
         t.output c = s.output c)
  ∧ ((∀ (s : State) (k : Nat),
       (∀ g : Fin 4, k ∈ (s.patch.groups.get g).members → (∀ g' : Fin 4, g' < g → k ∉ (s.patch.groups.get g').members) →
         s.circuitSource k = .house g
         ∧ s.circuitLevel k = curveValue (s.curve (s.patch.groups.get g).curve) (s.patch.groups.get g).level)
       ∧ ((∀ g : Fin 4, k ∉ (s.patch.groups.get g).members) →
           (∀ e, Assoc.find s.patch.active k = some e →
             s.circuitSource k = .entry e.channel
             ∧ s.circuitLevel k = curveValue (s.curve e.curve) (s.output e.channel * e.proportion / 100))
           ∧ (∀ c, Assoc.find s.patch.active k = none → s.patch.windows.channel k = some c →
               s.circuitSource k = .window c ∧ s.circuitLevel k = curveValue (s.curve 0) (s.output c))
           ∧ (Assoc.find s.patch.active k = none → s.patch.windows.channel k = none →
               s.circuitSource k = .none ∧ s.circuitLevel k = 0)))
     ∧ (∀ (w : Windows) (i : Fin 4) (x : Window) (k : Nat), w.get i = some x → x.first ≤ k → k ≤ x.last →
         (∀ j y, w.get j = some y → y.first ≤ k → k ≤ y.last → j = i) →
         w.channel k = if x.channel + (k - x.first) ≤ 1536 then some (x.channel + (k - x.first)) else none)
     ∧ (∀ (w : Windows) (k : Nat), (∀ i x, w.get i = some x → ¬ (x.first ≤ k ∧ k ≤ x.last)) → w.channel k = none)
     ∧ (∀ (points : List Nat) (x : Nat),
         (x < 1000 → curveValue points x = points.getD (x / 50) 0
             + (points.getD (x / 50 + 1) 0 - points.getD (x / 50) 0) * (x % 50) / 50)
         ∧ (1000 ≤ x → curveValue points x = points.getD 20 0)
         ∧ (x < 1000 → points.getD (x / 50) 0 ≤ points.getD (x / 50 + 1) 0 →
             points.getD (x / 50) 0 ≤ curveValue points x ∧ curveValue points x ≤ points.getD (x / 50 + 1) 0))
     ∧ (∀ (s : State) (i : Nat), i ≤ 20 → (s.curve 0).getD i 0 = i * 65535 / 20)
     ∧ ∀ (s : State) (u : Nat), 1 ≤ u → u ≤ s.patch.curves.length → s.curve u = s.patch.curves.getD (u - 1) [])

/-! ### Fades -/

/-- The level of an up move: the start while the elapsed count is below the delay, the target at once when the time is
0, else the straight line with its remainder discarded, held at the target; it starts from the start, reaches the
target at the delay plus the time, and never falls or passes it (R91). An equal move has the level it started with at
every elapsed count (R92). -/
def Obligations.UpMovesRiseToTheirTarget : Prop :=
  ∀ (x : Slot) (m : Move),
    (m.start = m.target → ∀ e, x.level m e = m.start)
    ∧ (m.start < m.target → ∀ e,
        (e < x.upDelay → x.level m e = m.start)
        ∧ (x.upDelay ≤ e → x.up = 0 → x.level m e = m.target)
        ∧ (x.upDelay ≤ e → 0 < x.up →
            x.level m e = min m.target (m.start + (m.target - m.start) * (e - x.upDelay) / x.up))
        ∧ (e = x.upDelay → 0 < x.up → x.level m e = m.start)
        ∧ (x.upDelay + x.up ≤ e → x.level m e = m.target)
        ∧ m.start ≤ x.level m e ∧ x.level m e ≤ m.target
        ∧ (∀ e', e ≤ e' → x.level m e ≤ x.level m e')
        ∧ (m.target ≤ 1000 → e ≤ 120000 → (m.target - m.start) * (e - x.upDelay) ≤ 1000 * 120000))

/-- A fade step advances each unpaused slot by one, writes its moves' levels into its playback's look, and ends it
when its elapsed count reaches its end, with its targets written; while HALTED it advances none. A CUE or BACK slot
that ends sends CUE_COMPLETE, in the order of the slot numbers; a RELEASE slot sends none. A playback whose last slot
has ended becomes EMPTY when that was a RELEASE slot, its look is all 0, its back stack empty and its follow idle, and
SETTLED otherwise; so a playback whose only slot is a RELEASE slot that takes all of its look to 0, with an empty back
stack and no follow, becomes EMPTY when that slot ends, and stays such a playback until then. Down moves fall to their
target as up moves rise, with the quotient truncated toward zero, and the end is the later of the two directions the
slot holds (R64, R92, R93, R94, R96, R97, R99). -/
def Obligations.FadeStepAdvancesTheSlots : Prop :=
  (∀ s : State, s.sup.halted = true → Runs .fadeStep s (fun t => t.inside = s.inside))
  ∧ (∀ s : State, s.sup.halted = false → (s.slots.map (fun x => x.number)).Nodup → Runs .fadeStep s (fun t =>
      t.slots = s.slots.filterMap (fun x : Slot =>
        if x.paused then some x else if x.finish ≤ x.elapsed + 1 then none else some { x with elapsed := x.elapsed + 1 })
      ∧ t.inside = ({ s with slots := t.slots, eng := t.eng }).inside
      ∧ t.eng = { s.eng with pb := t.eng.pb }
      ∧ (∀ p, t.pb p = { s.pb p with look := (t.pb p).look, state := (t.pb p).state })
      ∧ (∀ p c, (∀ x ∈ s.slots, x.playback = p → x.paused = false → ∀ m ∈ x.moves, m.channel ≠ c) →
          (t.pb p).look.level c = (s.pb p).look.level c)
      ∧ (∀ x ∈ s.slots, ∀ m ∈ x.moves, x.paused = false →
          (∀ y ∈ s.slots, y.playback = x.playback → ∀ m' ∈ y.moves, m'.channel = m.channel → y = x ∧ m' = m) →
          (t.pb x.playback).look.level m.channel
            = if x.finish ≤ x.elapsed + 1 then m.target else x.level m (x.elapsed + 1))
      ∧ (∀ p, ((∃ x ∈ t.slots, x.playback = p) ∨ (∀ x ∈ s.slots, x.playback ≠ p)) → (t.pb p).state = (s.pb p).state)
      ∧ (∀ p, (∃ x ∈ s.slots, x.playback = p) → (∀ x ∈ t.slots, x.playback ≠ p) →
          (t.pb p).state = .settled
            ∨ ((t.pb p).state = .empty ∧ (t.pb p).look = [] ∧ (s.pb p).back = [] ∧ (s.pb p).follow = none))
      ∧ (∀ p x, (s.slots.filter (fun y => y.playback = p)).getLast? = some x → (∀ y ∈ t.slots, y.playback ≠ p) →
          (t.pb p).state = if x.kind = .release ∧ (t.pb p).look = [] ∧ (s.pb p).back = [] ∧ (s.pb p).follow = none
            then .empty else .settled)
      ∧ (∀ p x, s.FadingOut p x →
          if x.paused = false ∧ x.finish ≤ x.elapsed + 1 then (t.pb p).state = .empty ∧ (t.pb p).look = []
          else t.FadingOut p (if x.paused then x else { x with elapsed := x.elapsed + 1 }))
      ∧ (((s.slots.filter (fun x => decide (x.paused = false ∧ x.finish ≤ x.elapsed + 1 ∧ x.kind ≠ .release))).foldl
          (fun (v : State) (x : Slot) => v.report 0xE0 false (b1 (num x.playback) ++ b1 (if x.kind = .back then 1 else 0)
            ++ b2 (x.cue.getD 0) ++ b1 x.number ++ b4 (x.elapsed + 1) ++ b2 x.moves.length)) s).KeepsReports t)
      ∧ ∀ p, (t.port p).outgoing = (s.port p).outgoing))
  ∧ (∀ (x : Slot) (m : Move), m.target < m.start → ∀ e,
      (e < x.downDelay → x.level m e = m.start)
      ∧ (x.downDelay ≤ e → x.down = 0 → x.level m e = m.target)
      ∧ (x.downDelay ≤ e → 0 < x.down →
          x.level m e = max m.target (m.start - (m.start - m.target) * (e - x.downDelay) / x.down))
      ∧ (x.downDelay + x.down ≤ e → x.level m e = m.target))
  ∧ ∀ x : Slot,
      (∀ n, (n = x.upDelay + x.up ∧ (∃ m ∈ x.moves, m.start < m.target))
          ∨ (n = x.downDelay + x.down ∧ (∃ m ∈ x.moves, m.target < m.start)) → n ≤ x.finish)
      ∧ (x.finish = 0 ∨ (x.finish = x.upDelay + x.up ∧ (∃ m ∈ x.moves, m.start < m.target))
          ∨ (x.finish = x.downDelay + x.down ∧ ∃ m ∈ x.moves, m.target < m.start))

/-! ### The changeover -/

/-- CHANGEOVER is refused IN_CHANGEOVER or BLANK, or fills the record, empties the pending patch, claims the first
load step and owes its reply; CHANGEOVER_CANCEL is refused NO_CHANGEOVER, or ends the changeover without a commit,
answering the CHANGEOVER CANCELLED before its own reply (R117, R125). R125 marks 1 byte for the state alone, so the
target bank and the load position in the replies take the 2 bytes of R164 (the model's choice, log 13). -/
def Obligations.ChangeoversStartAndAreCancelled : Prop :=
  ∀ (s : State) (r : Request) (rest : List Request), s.isFollower = false → s.sup.halted = false →
    s.bank.decided = true →
    (∀ (b : Bank) (dark : Bool), s.Head .console 0x50 r rest → r.body = b1 b.val ++ bBool dark →
      (s.bank.change ≠ none → Answers (.changeover .console) s .console r rest .inChangeover [] s)
      ∧ (s.bank.change = none → ((s.ram b).valid = false ∨ ∃ w ∈ s.ctl.queue, w.bank = some b ∧ w.kind = .bankErase) →
          Answers (.changeover .console) s .console r rest .blank [] s)
      ∧ (s.bank.change = none → (s.ram b).valid = true → (∀ w ∈ s.ctl.queue, ¬ (w.bank = some b ∧ w.kind = .bankErase)) →
          Owes (.changeover .console) s .console rest
            { s with
              bank := { s.bank with
                change := some
                  { target := b, dark := dark, position := 1, owed := some r.tag, waiting := false, darkSteps := 0 } }
              patch := { s.patch with pending := [], pendingWindows := .empty, follows := some b }
              ctl := { s.ctl with loadClaim := some 1 } }))
    ∧ (s.Head .console 0x51 r rest → r.body = [] →
        (s.bank.change = none → Refuses (.changeoverCancel .console) s .console r rest .noChangeover)
        ∧ ∀ c, s.bank.change = some c →
            let fields := b2 c.target.val ++ b1 (if c.waiting then 2 else 1) ++ b2 c.position
            Runs (.changeoverCancel .console) s (fun t =>
              s.Answered t .console rest
                ((match c.owed with
                  | some tag => [({ kind := 0xD0, tag := tag, status := .cancelled, fields := fields } : Reply)]
                  | none => []) ++ [replyTo r .ok fields])
              ∧ s.KeepsReports t
              ∧ t.inside = ({ s with
                  bank := { s.bank with change := none }
                  patch := { s.patch with pending := [], pendingWindows := .empty, follows := none }
                  ctl := { s.ctl with
                    loadClaim := none
                    op := (match s.ctl.op with
                      | some (.load b n _) => some (.load b n false)
                      | o => o) } }).inside))

/-- The loading of a changeover, position by position: a step that passes writes the pending patch and claims the
next; the last commits in CUT mode, and in DARK mode waits for every channel output to be 0, checked at once and at
each dark check; a step that fails ends the changeover, answered CHECK_FAILED, or raising PATCH_CHECK at start-up; an
outcome no longer wanted is dropped (R118, R120, R121, R125, R128). -/
def Obligations.LoadStepsAndDarkChecks : Prop :=
  ∀ s : State,
    let freed : State := { s with ctl := { s.ctl with op := none } }
    let checked := fun (u : State) (c : Change) =>
      if u.isDark then (u.commit c).settle else u.settle
    (∀ b n w, s.ctl.op = some (.load b n w) → exec (.loadStepDone .busy) s = .next s)
    ∧ (∀ b n (a : StoreAnswer), s.ctl.op = some (.load b n false) → a ≠ .busy →
        exec (.loadStepDone a) s = .next freed.settle)
    ∧ (∀ c, s.bank.change = some c → s.ctl.op = some (.load c.target c.position true) →
        (∀ m, 1 ≤ c.position → c.position ≤ 24 →
          s.storedSegment c.target c.position = some m →
          exec (.loadStepDone (.done true)) s = .next ({ freed with
            patch := { s.patch with pending := writePairs (segmentPairs c.position m) s.patch.pending }
            bank := { s.bank with change := some { c with position := c.position + 1 } }
            ctl := { freed.ctl with loadClaim := some (c.position + 1) } }).settle)
        ∧ (∀ w, c.position = 25 → s.storedWindows c.target = some w →
            (c.dark = false → exec (.loadStepDone (.done true)) s = .next
              (({ freed with patch := { s.patch with pendingWindows := w } }).commit c).settle)
            ∧ (c.dark = true → exec (.loadStepDone (.done true)) s = .next
                (checked { freed with
                  patch := { s.patch with pendingWindows := w }
                  bank := { s.bank with change := some { c with waiting := true, darkSteps := 0 } } }
                  { c with waiting := true, darkSteps := 0 })))
        ∧ (∀ a : StoreAnswer, (a = .done false ∨ a = .notDone
              ∨ (a = .done true ∧ 1 ≤ c.position ∧ c.position ≤ 24
                  ∧ s.storedSegment c.target c.position = none)
              ∨ (a = .done true ∧ c.position = 25 ∧ s.storedWindows c.target = none)) →
            let ended : State := { freed with
              bank := { s.bank with change := none }
              patch := { s.patch with pending := [], pendingWindows := .empty, follows := none }
              ctl := { freed.ctl with loadClaim := none } }
            (∀ tag, c.owed = some tag → exec (.loadStepDone a) s = .next
              (ended.answer { port := .console, tag := tag, kind := 0x50 } .checkFailed
                (b1 c.target.val ++ b1 c.position)).settle)
            ∧ (c.owed = none → exec (.loadStepDone a) s = .next
                (ended.raise { kind := .patchCheck, critical := true, value := c.target.val, playback := none,
                               cue := none, bank := some c.target, stage := none, time := s.sup.showTime }).settle)))
    ∧ ((s.bank.change = none ∨ ∃ c, s.bank.change = some c ∧ c.waiting = false) → exec .darkCheck s = .next s)
    ∧ (∀ c, s.bank.change = some c → c.waiting = true →
        let c' : Change := { c with darkSteps := min (c.darkSteps + 1) 4294967295 }
        exec .darkCheck s = .next (checked { s with bank := { s.bank with change := some c' } } c'))
    ∧ (s.isDark = true ↔ ∀ ch, 1 ≤ ch → ch ≤ 1536 → s.output ch = 0)
    ∧ ∀ (n k : Nat) (m u : Assoc PatchEntry), 1 ≤ n → n ≤ 24 →
        Assoc.find (writePairs (segmentPairs n m) u) k
          = if 96 * (n - 1) < k ∧ k ≤ 96 * n then Assoc.find m k else Assoc.find u k

/-- The commit, as one state: the pending patch becomes active, the target the active bank, waiting fetches are
withdrawn and a granted one is no longer wanted, every pending GO ends CANCELLED, every playback is emptied but for
its master, every slot and park is gone, PARKS_RELEASED and SHOW_ACTIVE are sent, the CHANGEOVER is answered, each
playback's successor is fetched, and nothing else changes (R32, R86, R101, R113, R122, R123). The playbacks' turns go
1 to 4 (the model's choice, log 47). -/
def Obligations.CommitBringsTheTargetLive : Prop :=
  ∀ (s : State) (c : Change),
    let told := four.foldl (fun (v : State) p => v.tellPending p (s.pb p).pendingGo .cancelled) s
    let freed := if s.merge.parks = [] then told else told.report 0xEE false
      (b1 s.merge.parks.length ++ s.merge.parks.flatMap (fun x => b2 x.channel ++ b2 x.level ++ b1 (ownerCode x.owner)))
    let shown := freed.report 0xF0 false (b1 c.target.val ++ b1 (bankCode s.bank.active)
      ++ b1 (if c.owed.isNone then 0 else if c.dark then 2 else 1) ++ b1 (s.ram c.target).title.length
      ++ (s.ram c.target).title ++ (s.proj c.target).dir.toList.flatMap (fun l => b2 l.length))
    let answered := match c.owed with
      | some tag => shown.answer { port := .console, tag := tag, kind := 0x50 } .ok
          (b1 c.target.val ++ bBool c.dark ++ b1 (bankCode s.bank.active) ++ b1 s.merge.parks.length
            ++ b4 (if c.dark then c.darkSteps else 0))
      | none => shown
    s.commit c = four.foldl State.startFetchCore { answered with
      bank := { s.bank with active := some c.target, change := none }
      patch := { s.patch with
        active := s.patch.pending, windows := s.patch.pendingWindows, pending := [], pendingWindows := .empty,
        follows := none }
      ctl := { s.ctl with
        fetches := ⟨none, none, none, none⟩
        op := (match s.ctl.op with
          | some (.fetch p f _) => some (.fetch p f false)
          | o => o) }
      eng := { s.eng with pb := s.eng.pb.map (fun x : Playback => { x with
        state := .empty, look := [], lastRun := none, explicit := none, follow := none, back := [],
        pendingGo := none }) }
      slots := []
      merge := { s.merge with parks := [] } }

/-- RESTART empties the fault record, makes the engine NORMAL, ends a changeover in flight as cancelled, ends every
pending GO CANCELLED and every slot at its present levels, clears every playback's sequence, leaves it SETTLED or
EMPTY by its look and fetches its successor, and answers last; the parks, masters, blackout, blend, loss state, store
queue and active bank are kept (R85, R100, R125, R126, R188). R125 marks 1 byte for the state alone in the CANCELLED
reply of the changeover, so the target bank and the load position take the 2 bytes of R164 (the model's choice, log
13). "Whether a changeover was cancelled" is 1 for yes and 0 for no (the model's choice, log 52). The playbacks' turns
go 1 to 4, each with its fetch (the model's choice, log 47). -/
def Obligations.RestartClears : Prop :=
  ∀ (s : State) (r : Request) (rest : List Request), s.Head .console 0x5E r rest → s.isFollower = false → r.body = [] →
    Settles (.restart .console) s (fun t =>
      t.sup = { s.sup with record := none, halted := false }
      ∧ t.bank = { s.bank with change := none }
      ∧ t.patch = (if s.bank.change = none then s.patch
          else { s.patch with pending := [], pendingWindows := .empty, follows := none })
      ∧ t.slots = []
      ∧ (∀ p, t.pb p = { s.pb p with
          state := if (s.pb p).look = [] then .empty else .settled,
          lastRun := none, explicit := none, follow := none, back := [], pendingGo := none,
          standby := (t.pb p).standby, fetch := (t.pb p).fetch })
      ∧ t.merge = s.merge ∧ t.outp = s.outp ∧ t.cas = s.cas ∧ t.store = s.store ∧ t.free = s.free ∧ t.wire = s.wire
      ∧ t.ctl.queue = s.ctl.queue ∧ t.ctl.hostReads = s.ctl.hostReads ∧ t.ctl.ram = s.ctl.ram ∧ t.ctl.proj = s.ctl.proj
      ∧ (s.bank.change ≠ none → t.ctl.loadClaim = none)
      ∧ t.con.requests = rest ∧ t.con.owed = s.con.owed + 1
      ∧ (∃ cancelled, t.con.outgoing = s.con.outgoing ++ cancelled ++ [replyTo r .ok
          (bBool s.sup.halted ++ b1 ((s.sup.record.map (fun f => f.kind.code)).getD 0)
            ++ bBool (decide (s.bank.change ≠ none))
            ++ b1 ((four.filter (fun p => (s.pb p).pendingGo.isSome)).length))]
          ∧ (∀ x ∈ cancelled, x.status = .cancelled)
          ∧ (∀ c tag, s.bank.change = some c → c.owed = some tag →
              ({ kind := 0xD0, tag := tag, status := .cancelled,
                 fields := b2 c.target.val ++ b1 (if c.waiting then 2 else 1) ++ b2 c.position } : Reply) ∈ cancelled)
          ∧ (s.bank.change = none → (∀ p, (s.pb p).pendingGo = none) → cancelled = [])))
    ∧ (let ended : State := (match s.bank.change with
         | none => s.takeOff .console rest
         | some c =>
           let u : State := { s.takeOff .console rest with
             bank := { s.bank with change := none }
             patch := { s.patch with pending := [], pendingWindows := .empty, follows := none }
             ctl := { s.ctl with
               loadClaim := none
               op := (match s.ctl.op with
                 | some (.load b n _) => some (.load b n false)
                 | o => o) } }
           match c.owed with
           | some tag => u.answer { port := .console, tag := tag, kind := 0x50 } .cancelled
               (b2 c.target.val ++ b1 (if c.waiting then 2 else 1) ++ b2 c.position)
           | none => u)
       let cleared := fun (v : State) (p : PbId) =>
         ({ v with slots := v.slots.filter (fun x => x.playback ≠ p) }).setPb p { s.pb p with
           state := if (s.pb p).look = [] then .empty else .settled, lastRun := none, explicit := none, follow := none,
           back := [], pendingGo := none }
       exec (.restart .console) s = .next
         ((four.foldl (fun v p => (cleared (v.tellPending p (s.pb p).pendingGo .cancelled) p).startFetchCore p)
             { ended with sup := { s.sup with record := none, halted := false } }).answer (requesterOf .console r) .ok
           (bBool s.sup.halted ++ b1 ((s.sup.record.map (fun f => f.kind.code)).getD 0)
             ++ bBool (decide (s.bank.change ≠ none))
             ++ b1 ((four.filter (fun p => (s.pb p).pendingGo.isSome)).length))).settle)

/-! ### Rack lines and circuit faults -/

/-- An expiry of a running line clock counts a missing return when the interval is open, builds the live frame unless
the hold is set, raises the sequence and sends a level frame, which opens the interval; on a stopped clock nothing
happens. The levels are the circuit levels, or a follower's next frame, blended with the safe look but for house
circuits (R133 to R135, R139, R140). A line the part has not got changes nothing, and a follower's house circuits are
kept by their place on the part (the model's choices, logs 33 and 28). -/
def Obligations.LineExpirySendsALevelFrame : Prop :=
  ∀ s : State,
    (∀ n : Nat, (n = 0 ∨ 6 < n) → exec (.lineClockExpiry n) s = .next s)
    ∧ ∀ l : Fin 6,
      let x := s.line l
      let house := fun (k : Nat) => if s.isFollower then k ∈ s.cas.house else ∃ g : Fin 4, k ∈ (s.patch.groups.get g).members
      let lost := x.interval = true ∧ x.monitor = .locked ∧ 5 ≤ x.badRun + 1
      (x.clock = none → exec (.lineClockExpiry (l.val + 1)) s = .next s)
      ∧ (x.clock ≠ none → Runs (.lineClockExpiry (l.val + 1)) s (fun t =>
          (t.line l).live.length = (if x.hold then x.live.length else 96)
          ∧ (x.hold = true → (t.line l).live = x.live)
          ∧ (∀ i, x.hold = false → i < 96 →
              let k := l.val * 96 + i + 1
              let level := if s.isFollower then x.next.getD i 0 else s.circuitLevel k
              let safe := (Assoc.find s.outp.safeLook k).getD 0
              (house k → (t.line l).live.getD i 0 = level)
              ∧ (¬ house k → (t.line l).live.getD i 0
                  = (level * (1000 - s.outp.blend) + (safe * 65535 / 1000) * s.outp.blend) / 1000))
          ∧ t.line l = { (if x.interval then x.missed else x) with
              live := (t.line l).live, seq := (x.seq + 1) % 256, interval := true }
          ∧ (∀ l', l' ≠ l → t.line l' = s.line l')
          ∧ t.wire = s.wire ++ [Output.level l
              { seq := (x.seq + 1) % 256, held := x.hold, wide := (x.settings.map (fun n => n.wide)).getD false,
                levels := (t.line l).live }]
          ∧ (∀ p, (t.port p).outgoing = (s.port p).outgoing)
          ∧ t.inside = ({ s with outp := { s.outp with lines := t.outp.lines }, wire := t.wire }).inside
          ∧ (¬ lost → s.KeepsReports t)
          ∧ (lost → (s.report 0xE7 true (b1 0 ++ b1 (l.val + 1) ++ b1 (x.rack.getD (0, 0)).1
              ++ b1 (x.rack.getD (0, 0)).2)).KeepsReports t)))

/-- The first return in an open interval is taken and closes it: good, with its model, count and statuses, when the
line is clean and its bytes are a return frame echoing the last sequence, and bad otherwise; any other return is
discarded. Eight good returns with one model and count lock the monitor, five bad or missing ones lose it, and a
LOCKED line takes the statuses (R138 to R140). A return on a line the part has not got changes nothing (the model's
choice, log 33). -/
def Obligations.ReturnsMoveTheMonitor : Prop :=
  ∀ s : State,
    (∀ n clean bytes, (n = 0 ∨ 6 < n) → exec (.returnFrame n clean bytes) s = .next s)
    ∧ ∀ (l : Fin 6) (clean : Bool) (bytes : List Byte),
      let x := s.line l
      let good := fun (model : Byte) (statuses : List CircuitStatus) =>
        clean = true ∧ 1 ≤ statuses.length ∧ statuses.length ≤ 96 ∧ bytes = returnBytes x.seq model statuses
      (x.interval = false → exec (.returnFrame (l.val + 1) clean bytes) s = .next s)
      ∧ (x.interval = true → x.seq ≤ 255 → (∀ model statuses, ¬ good model statuses) →
          Runs (.returnFrame (l.val + 1) clean bytes) s (fun t =>
            t.line l = { x.missed with interval := false } ∧ (∀ l', l' ≠ l → t.line l' = s.line l')
            ∧ t.inside = ({ s with outp := { s.outp with lines := t.outp.lines } }).inside
            ∧ (x.monitor = .locked → 5 ≤ x.badRun + 1 → (s.report 0xE7 true (b1 0 ++ b1 (l.val + 1)
                ++ b1 (x.rack.getD (0, 0)).1 ++ b1 (x.rack.getD (0, 0)).2)).KeepsReports t)
            ∧ ((x.monitor ≠ .locked ∨ x.badRun + 1 < 5) → s.KeepsReports t)))
      ∧ (∀ (model : Byte) (statuses : List CircuitStatus), x.interval = true → x.seq ≤ 255 → good model statuses →
          let rack := (model.toNat, statuses.length)
          let run := if x.goodRun = 0 ∨ x.rack = some rack then x.goodRun + 1 else 1
          let taken := fun (y : Line) => s.setLine l { y with interval := false, badRun := 0 }
          let fresh := x.debounce.map (fun d : Debounce => { d with candidate := none, run := 0 })
          (x.monitor = .off → exec (.returnFrame (l.val + 1) clean bytes) s = .next (taken x).pump)
          ∧ ((x.monitor = .seeking ∨ x.monitor = .lost) → run < 8 →
              exec (.returnFrame (l.val + 1) clean bytes) s = .next
                (taken { x with goodRun := run, rack := some rack }).pump)
          ∧ ((x.monitor = .seeking ∨ x.monitor = .lost) → 8 ≤ run →
              exec (.returnFrame (l.val + 1) clean bytes) s = .next
                ((((taken { x with goodRun := run, rack := some rack, monitor := .locked, debounce := fresh }).report 0xE6
                  false (b1 0 ++ b1 (l.val + 1) ++ b1 rack.1 ++ b1 rack.2))).takeStatuses l statuses).pump)
          ∧ (x.monitor = .locked → x.rack = some rack →
              exec (.returnFrame (l.val + 1) clean bytes) s = .next ((taken x).takeStatuses l statuses).pump)
          ∧ (x.monitor = .locked → x.rack ≠ some rack →
              exec (.returnFrame (l.val + 1) clean bytes) s = .next
                ((((taken { x with rack := some rack, debounce := fresh }).report 0xE8 false
                  (b1 0 ++ b1 (l.val + 1) ++ b1 rack.1 ++ b1 rack.2 ++ b1 (x.rack.getD (0, 0)).1
                    ++ b1 (x.rack.getD (0, 0)).2))).takeStatuses l statuses).pump))

/-- A status taken in LOCKED: NO_LOAD below the lamp check level is set aside; any other raises the run of its
candidate, up to 4, or starts one; at 4, a status other than the condition makes a clear of the old kind, a raise of
the new, or both, and becomes the condition: at once on the leader, on a follower when its event queue has room for
all of them (R141 to R143). The statuses of one return are taken from slot 1 up, where R141 gives no order (the
model's choice, log 56). -/
def Obligations.StatusesAreDebounced : Prop :=
  ∀ (s : State) (l : Fin 6),
    (∀ statuses : List CircuitStatus, s.takeStatuses l statuses
      = statuses.zipIdx.foldl (fun t e => t.takeStatus l e.2 e.1) s)
    ∧ ∀ (i : Nat) (st : CircuitStatus) (d : Debounce), (s.line l).debounce[i]? = some d →
      let set := fun (t : State) (y : Debounce) => t.setLine l { t.line l with debounce := (t.line l).debounce.set i y }
      let run := if d.candidate = some st then min (d.run + 1) 4 else 1
      let counted : Debounce := { d with candidate := some st, run := run }
      let aside := st = some .noLoad ∧ (s.line l).live.getD i 0 < s.outp.lamp * 65535 / 1000
      let event := fun (raises : Bool) (k : FaultKind) =>
        ({ circuit := (if s.isFollower then s.cas.stage.getD 0 else 0) * 576 + l.val * 96 + i + 1, kind := k,
           raises := raises } : CircuitEvent)
      let events := (d.condition.toList.map (event false)) ++ (st.toList.map (event true))
      (aside → s.takeStatus l i st = s)
      ∧ (¬ aside → (run < 4 ∨ st = d.condition) → s.takeStatus l i st = set s counted)
      ∧ (¬ aside → run = 4 → st ≠ d.condition →
          (s.isFollower = true → s.cas.events.length + events.length ≤ 16 →
            s.takeStatus l i st = { (set s { counted with condition := st }) with
              cas := { s.cas with events := s.cas.events ++ events } })
          ∧ (s.isFollower = true → 16 < s.cas.events.length + events.length → s.takeStatus l i st = set s counted)
          ∧ (s.isFollower = false → s.takeStatus l i st
              = events.foldl (fun t e => t.tableEvent 0 e) (set s { counted with condition := st })))

/-- One event into the leader's circuit fault table, with its report; FAULT_CLEAR removes the entries that are not
present, or one entry that is not (R144, R145). The tabled byte of the reports, which R144 gives no code, is 1 for
tabled and 0 for not (the model's choice, log 52). -/
def Obligations.CircuitFaultsAreTabledAndCleared : Prop :=
  (∀ (s : State) (stage : Nat) (e : CircuitEvent), s.isFollower = false →
    let t := s.tableEvent stage e
    let old := s.outp.faults.find? (fun x => x.circuit = e.circuit && x.kind = e.kind)
    let told := fun (seen : Option Nat) => s.link.reports.length < 16 → t.link.reports = s.link.reports ++
      [{ kind := if e.raises then 0xE4 else 0xE5, urgent := e.raises, time := s.sup.showTime,
         fields := b2 e.circuit ++ b1 (faultKindCode e.kind) ++ b1 stage ++ b1 ((e.circuit - 1) % 576 / 96 + 1)
          ++ bBool seen.isSome ++ b4 (seen.getD 0) ++ b1 t.outp.faults.length }]
    t = { s with outp := { s.outp with faults := t.outp.faults, notTabled := t.outp.notTabled }, link := t.link }
    ∧ (∀ x, old = some x → told (some x.firstSeen) ∧ t.outp.notTabled = s.outp.notTabled
        ∧ t.outp.faults = s.outp.faults.map (fun y : CircuitFault =>
            if y.circuit = e.circuit ∧ y.kind = e.kind then { y with present := e.raises } else y))
    ∧ (old = none → e.raises = false → told none ∧ t.outp = s.outp)
    ∧ (old = none → e.raises = true → s.outp.faults.length < 64 → told (some s.sup.showTime)
        ∧ t.outp.notTabled = s.outp.notTabled
        ∧ t.outp.faults = s.outp.faults ++
            [{ circuit := e.circuit, kind := e.kind, stage := stage, firstSeen := s.sup.showTime, present := true }])
    ∧ (old = none → e.raises = true → 64 ≤ s.outp.faults.length → told none ∧ t.outp.faults = s.outp.faults
        ∧ t.outp.notTabled = min (s.outp.notTabled + 1) 65535))
  ∧ ∀ (s : State) (p : PortId) (r : Request) (rest : List Request), s.Head p 0x48 r rest → s.MayUse p .faults →
      s.sup.halted = false →
      let c := wordAt r.body 0
      let k := byteAt r.body 2
      let leaves := fun (keep : List CircuitFault) => Does (.faultClear p) s p r rest .ok
        (b1 (s.outp.faults.length - keep.length) ++ b1 keep.length) { s with outp := { s.outp with faults := keep } }
      (r.body.length ≠ 3 → Refuses (.faultClear p) s p r rest .badLength)
      ∧ (r.body.length = 3 → (2304 < c ∨ (c ≠ 0 ∧ (k < 1 ∨ 4 < k))) → Refuses (.faultClear p) s p r rest .badValue)
      ∧ (r.body.length = 3 → c = 0 → leaves (s.outp.faults.filter (fun x => x.present)))
      ∧ ∀ kind, r.body.length = 3 → 1 ≤ c → c ≤ 2304 → faultKindCode kind = k →
          let old := s.outp.faults.find? (fun x => x.circuit = c && x.kind = kind)
          (old = none → Refuses (.faultClear p) s p r rest .notFound)
          ∧ (∀ x, old = some x → x.present = true → Refuses (.faultClear p) s p r rest .stillPresent)
          ∧ (∀ x, old = some x → x.present = false →
              leaves (s.outp.faults.filter (fun x => !(x.circuit = c && x.kind = kind))))

/-! ### Cue inputs -/

/-- A change of a raw contact restarts its stability timer; when the timer expires on a contact that differs from the
debounced state, the state takes the raw value and the change is acted on: GO, BACK, HOLD or RESUME on the bound
playback, ignored while HALTED or SILENT under FREEZE or SAFE, and nothing for a disabled input. A result is kept and
reported, and a refusal raises INPUT_REFUSED unless it is CANCELLED or HALTED (R80 to R82, R162). What a GO of an
input then does, its checks, PENDING and TAKEN, is stated by GoTakesTheStandby. An input the part has not got changes
nothing, and an action's own reports come before INPUT_ACTION (the model's choices, logs 33 and 38). -/
def Obligations.ContactsAreDebouncedAndAct : Prop :=
  ∀ s : State,
    (∀ n c, (n = 0 ∨ 4 < n) → exec (.contactChange n c) s = .next s ∧ exec (.debounceExpiry n) s = .next s)
    ∧ ∀ i : Fin 4,
      let x := s.inputs.get i
      let p := x.settings.playback
      let u : State := { s with inputs := s.inputs.set i { x with timer := false, closed := x.raw } }
      let acts := x.timer = true ∧ x.raw ≠ x.closed ∧ x.settings.enabled = true ∧ s.isFollower = false
      let ignores := s.sup.halted = true ∨ (s.link.silent = true ∧ (s.sup.loss = some .freeze ∨ s.sup.loss = some .safe))
      let act := if x.settings.action = .hold then (if x.raw then InputCommand.hold else .resume)
        else if x.settings.action = .back then .back else .go
      (∀ c, x.raw = c → exec (.contactChange (num i) c) s = .next s)
      ∧ (∀ c, x.raw ≠ c → exec (.contactChange (num i) c) s = .next
          { s with inputs := s.inputs.set i { x with raw := c, timer := true } })
      ∧ (x.timer = false → exec (.debounceExpiry (num i)) s = .next s)
      ∧ (x.timer = true → x.raw = x.closed → exec (.debounceExpiry (num i)) s = .next u)
      ∧ (x.timer = true → x.raw ≠ x.closed →
          (x.settings.enabled = false ∨ s.isFollower = true ∨ (x.raw = false ∧ x.settings.action ≠ .hold)) →
          exec (.debounceExpiry (num i)) s = .next u.settle)
      ∧ (acts → (x.raw = true ∨ x.settings.action = .hold) → ignores →
          exec (.debounceExpiry (num i)) s = .next (u.inputResult i p act .ignored 0).settle)
      ∧ (acts → ¬ ignores →
          (x.raw = true → x.settings.action = .go →
            exec (.debounceExpiry (num i)) s = .next (u.goCommand p (.input i) none false).settle)
          ∧ (x.raw = true → x.settings.action = .back →
              (∀ st, u.backCommand p = .error st →
                exec (.debounceExpiry (num i)) s = .next (u.inputResult i p .back (.refused st) 0).settle)
              ∧ (∀ v k, u.backCommand p = .ok (v, k) →
                exec (.debounceExpiry (num i)) s = .next (v.inputResult i p .back .taken k.cue).settle))
          ∧ (x.raw = true → x.settings.action = .hold →
              (∀ st, u.holdCommand p = .error st →
                exec (.debounceExpiry (num i)) s = .next (u.inputResult i p .hold (.refused st) 0).settle)
              ∧ (∀ v, u.holdCommand p = .ok v →
                exec (.debounceExpiry (num i)) s = .next (v.inputResult i p .hold .taken 0).settle))
          ∧ (x.raw = false → x.settings.action = .hold →
              (∀ st, u.resumeCommand p = .error st →
                exec (.debounceExpiry (num i)) s = .next (u.inputResult i p .resume (.refused st) 0).settle)
              ∧ (∀ v, u.resumeCommand p = .ok v →
                exec (.debounceExpiry (num i)) s = .next (v.inputResult i p .resume .taken 0).settle)))
      ∧ ∀ (q : PbId) (a : InputCommand) (res : InputResult) (cue : Nat), s.isFollower = false →
          let t := s.inputResult i q a res cue
          t.inputs = s.inputs.set i { x with last := some (a, res) }
          ∧ t = { s with inputs := t.inputs, link := t.link, sup := { s.sup with raised := t.sup.raised } }
          ∧ (s.link.reports.length < 16 → t.link.reports = s.link.reports ++
              [{ kind := 0xED, urgent := false, time := s.sup.showTime,
                 fields := b1 (num i) ++ b1 a.code ++ b1 (num q) ++ b1 res.code ++ b1 res.status ++ b2 cue }])
          ∧ (∀ st, res = .refused st → st ≠ .cancelled → st ≠ .halted → t.sup.raised = s.sup.raised ++
              [{ kind := .inputRefused, critical := false, value := st.code, playback := some q, cue := none,
                 bank := none, stage := none, time := s.sup.showTime }])
          ∧ ((∀ st, res = .refused st → st = .cancelled ∨ st = .halted) → t.sup.raised = s.sup.raised)

/-! ### The cascade -/

/-- At each expiry of the cascade frame timer the leader sends a stage frame for each of stages 1 to 3, and at every
tenth a setup frame for each, built from its own values at that instant; the sequences go up, and nothing else changes
(R151, R152). -/
def Obligations.LeaderSendsStageAndSetupFrames : Prop :=
  ∀ s : State,
    ((s.isLeader = false ∨ s.ctl.startUp ≠ none) → exec .cascadeFrameExpiry s = .next s)
    ∧ (s.isLeader = true → s.ctl.startUp = none →
        let stage := fun (n : Fin 3) => Output.stageFrame
          { target := n.val + 1, hop := 0, seq := (s.cas.seqs.get n + 1) % 256, blend := s.outp.blend,
            policy := s.sup.policy, gen := s.cas.gens.get n,
            levels := (List.range 576).map (fun i => s.circuitLevel ((n.val + 1) * 576 + i + 1)) }
        let setup := fun (n : Fin 3) => Output.setupFrame
          { target := n.val + 1, hop := 0, gen := s.cas.gens.get n, lines := (s.cas.lineItems.get n).toList,
            safeFade := s.outp.safeFade, policy := s.sup.policy, lamp := s.outp.lamp,
            house := ((List.range 576).map (fun i => i + 1)).filter (fun i =>
              decide (∃ g : Fin 4, (n.val + 1) * 576 + i ∈ (s.patch.groups.get g).members)),
            safe := (s.outp.safeLook.filter (fun e => (e.1 - 1) / 576 = n.val + 1)).map
              (fun e => (e.1 - (n.val + 1) * 576, e.2)) }
        exec .cascadeFrameExpiry s = .next { s with
          cas := { s.cas with
            seqs := s.cas.seqs.map (fun q => (q + 1) % 256)
            frameTimer := if s.cas.frameTimer = 9 then 0 else s.cas.frameTimer + 1 }
          wire := s.wire ++ [stage 0, stage 1, stage 2]
            ++ (if s.cas.frameTimer = 9 then [setup 0, setup 1, setup 2] else []) })

/-- Stage and setup frames on a follower: every frame is passed on with its hop count raised; the hop counts set and
change the stage, and a stage of 4 or more makes the part ORPHAN; a stage frame for the valid stage renews the next
frames, the blend target, the loss policy held and the sequence count, and ends the leader-lost state; a setup frame
for it with another generation is applied, its settings reaching each line as R132 gives. A part whose role is
undecided is no leader from then on; the leader takes neither (R132, R148 to R150, R153 to R155). A frame without the
lengths and widths of its form is a frame error; a value a part takes from outside its range is a free value within
it; a frame is a follower's to an undecided part; and house circuits are kept by their place on the part (the model's
choices, logs 33, 29 and 28). -/
def Obligations.FollowerTakesItsFrames : Prop :=
  (∀ s : State,
     (∀ f : StageFrame, f.fits = false → exec (.stageFrame f) s = exec (.cascadeFrameError .din) s)
     ∧ (∀ f : SetupFrame, f.fits = false → exec (.setupFrame f) s = exec (.cascadeFrameError .din) s)
     ∧ (∀ f : StageFrame, f.fits = true → s.isLeader = true → exec (.stageFrame f) s = .next s)
     ∧ (∀ f : SetupFrame, f.fits = true → s.isLeader = true → exec (.setupFrame f) s = .next s)
     ∧ (∀ u : State, s.cas.role = .undecided → exec (.roleDecided true) s = .next u →
         (∀ f : StageFrame, exec (.stageFrame f) s = exec (.stageFrame f) u)
         ∧ (∀ f : SetupFrame, exec (.setupFrame f) s = exec (.setupFrame f) u))
     ∧ (∀ f : StageFrame, f.fits = true → s.isFollower = true → Runs (.stageFrame f) s (fun t =>
         let v := s.watchHop f.hop
         let genHeld := if s.cas.leaderLost then 0 else v.cas.genHeld
         let taken := 1 ≤ f.target ∧ f.target ≤ 3 ∧ v.cas.stage = some f.target
         t.wire = s.wire ++ [Output.stageFrame { f with hop := min (f.hop + 1) 255 }]
         ∧ (¬ taken → t = { v with
             wire := t.wire, cas := { v.cas with leaderLost := false, genHeld := genHeld } })
         ∧ (taken →
             t.cas = { v.cas with
               leaderLost := false, genHeld := genHeld, policyHeld := f.policy, genSeen := f.gen,
               lastSeq := some f.seq,
               missed := min (v.cas.missed + (match v.cas.lastSeq with
                 | none => 0
                 | some last => (f.seq + 255 - last) % 256)) 65535 }
             ∧ t.outp = { v.outp with target := t.outp.target, lines := t.outp.lines }
             ∧ t.outp.target ≤ 1000
             ∧ (f.blend ≤ 1000 → t.outp.target = f.blend ∧ t.free = s.free)
             ∧ (∀ l, t.line l = { v.line l with next := (f.levels.drop (l.val * 96)).take 96 })
             ∧ t = { v with wire := t.wire, cas := t.cas, outp := t.outp, free := t.free })))
     ∧ (∀ f : SetupFrame, f.fits = true → s.isFollower = true → Runs (.setupFrame f) s (fun t =>
         let v := s.watchHop f.hop
         let taken := 1 ≤ f.target ∧ f.target ≤ 3 ∧ v.cas.stage = some f.target ∧ f.gen ≠ v.cas.genHeld
         t.wire = s.wire ++ [Output.setupFrame { f with hop := min (f.hop + 1) 255 }]
         ∧ (¬ taken → t = { v with wire := t.wire })
         ∧ (taken →
             t.cas = { v.cas with policyHeld := f.policy, house := t.cas.house, genHeld := f.gen }
             ∧ t.outp = { v.outp with
                 safeFade := t.outp.safeFade, lamp := t.outp.lamp, safeLook := t.outp.safeLook, lines := t.outp.lines }
             ∧ isHouseList t.cas.house = true ∧ isSafeList t.outp.safeLook = true ∧ t.outp.safeFade ≤ 600
             ∧ 50 ≤ t.outp.lamp ∧ t.outp.lamp ≤ 500
             ∧ (isHouseList f.house = true → t.cas.house = f.house)
             ∧ (isSafeList f.safe = true → t.outp.safeLook = f.safe)
             ∧ (f.safeFade ≤ 600 → t.outp.safeFade = f.safeFade)
             ∧ (50 ≤ f.lamp → f.lamp ≤ 500 → t.outp.lamp = f.lamp)
             ∧ (f.inRange = true → t.free = s.free)
             ∧ (∀ l x, f.lines[l.val]? = some x → t.line l = (v.line l).take x)
             ∧ t = { v with wire := t.wire, cas := t.cas, outp := t.outp, free := t.free }))))
  ∧ (∀ (s : State) (hop : Nat), s.isFollower = true →
       let t := s.watchHop hop
       let run := if s.cas.cand = some hop then s.cas.candRun + 1 else 1
       let moved := s.cas.stage = none ∨ (s.cas.stage ≠ some (hop + 1) ∧ 3 ≤ run)
       (s.cas.stage = some (hop + 1) → t = { s with cas := { s.cas with cand := none, candRun := 0 } })
       ∧ (s.cas.stage ≠ none → s.cas.stage ≠ some (hop + 1) → run < 3 →
           t = { s with cas := { s.cas with cand := some hop, candRun := run } })
       ∧ (moved → t.cas.stage = some (hop + 1) ∧ t = { s with cas := t.cas, outp := t.outp }
           ∧ (t.cas.role = .orphan ↔ 4 ≤ hop + 1) ∧ (t.cas.role = .follower ↔ hop + 1 < 4)
           ∧ (s.cas.stage ≠ none → t.cas.cand = none ∧ t.cas.candRun = 0 ∧ t.cas.genHeld = 0 ∧ t.cas.lastSeq = none)
           ∧ ((hop + 1 < 4 ∨ s.cas.role = .orphan) → t.outp = s.outp ∧ t.cas.events = s.cas.events)
           ∧ (4 ≤ hop + 1 → s.cas.role = .follower → t.cas.events = [] ∧ t.cas.genHeld = 0
               ∧ t.outp = { s.outp with lines := t.outp.lines }
               ∧ (∀ l, (∀ n, (s.line l).settings = some n → n.enabled = false) → t.line l = s.line l)
               ∧ ∀ l n, (s.line l).settings = some n → n.enabled = true → t.line l = { s.line l with
                   settings := some { n with enabled := false }, clock := none, monitor := .off, goodRun := 0, badRun := 0,
                   rack := none, interval := false,
                   debounce := (s.line l).debounce.map (fun d : Debounce => { d with candidate := none, run := 0 }) })))
  ∧ (∀ (x : Line) (n : LineSettings),
       let was := (x.settings.map (fun o => o.enabled)).getD false
       let clock := some (if n.slow then 40 else 20)
       (was = false → n.enabled = true → x.take n = { x with
         settings := some n, monitor := .seeking, goodRun := 0, badRun := 0, rack := none, clock := clock })
       ∧ (was = true → n.enabled = false → x.take n = { x with
           settings := some n, clock := none, monitor := .off, goodRun := 0, badRun := 0, rack := none, interval := false,
           debounce := x.debounce.map (fun d : Debounce => { d with candidate := none, run := 0 }) })
       ∧ (was = true → n.enabled = true → x.take n = { x with settings := some n, clock := clock })
       ∧ (was = false → n.enabled = false → x.take n = { x with settings := some n })
       ∧ (x.take n).hold = x.hold ∧ (x.take n).live = x.live ∧ (x.take n).seq = x.seq ∧ (x.take n).next = x.next)

/-- A follower with a valid stage sends its own up frame, with up to 8 events from its queue, and passes on those of
the parts below; the leader takes one that names stage 1 to 3 into its stage table and fault table with STAGE_JOINED
for a new stage, then the report each line calls for, then those of its events, an ORPHAN one only into the orphan
watch, and one that names no such stage without the flag is a frame error (R149, R157 to R160; logs 41 and 42). A
frame without the lengths and widths of its form is a frame error too, and a count or circuit from outside its range
is a free value within it (the model's choice, log 33). -/
def Obligations.UpFramesTravelToTheLeader : Prop :=
  (∀ s : State,
     ((s.isFollower = false ∨ s.cas.stage = none) → exec .upFrameSend s = .next s)
     ∧ (∀ n, s.isFollower = true → s.cas.stage = some n →
         let orphan := decide (s.cas.role = .orphan)
         let events := if orphan then [] else s.cas.events.take 8
         exec .upFrameSend s = .next { s with
           cas := { s.cas with events := s.cas.events.drop events.length }
           wire := s.wire ++ [Output.upFrame
             { stage := min n 255, orphan := orphan, leaderLost := s.cas.leaderLost, gen := s.cas.genHeld,
               lines := if orphan then List.replicate 6 { monitor := .off, model := 0, count := 0 }
                 else s.outp.lines.toList.map (fun x =>
                   { monitor := x.monitor, model := (x.rack.getD (0, 0)).1, count := (x.rack.getD (0, 0)).2 }),
               events := events }] })
     ∧ (∀ f : UpFrame, (f.fits = false ∨ (f.orphan = false ∧ (f.stage = 0 ∨ 3 < f.stage))) →
         exec (.upFrame f) s = .next { s with cas := { s.cas with uinErrors := min (s.cas.uinErrors + 1) 65535 } })
     ∧ (∀ f : UpFrame, f.fits = true → (f.orphan = true ∨ (1 ≤ f.stage ∧ f.stage ≤ 3)) →
         (s.cas.role = .undecided → exec (.upFrame f) s = .next s)
         ∧ (s.isFollower = true → exec (.upFrame f) s = .next { s with wire := s.wire ++ [Output.upFrame f] })
         ∧ (s.isLeader = true → f.orphan = true → s.cas.orphanSeen = true → exec (.upFrame f) s = .next s)
         ∧ (s.isLeader = true → f.orphan = true → s.cas.orphanSeen = false → exec (.upFrame f) s = .next { s with
             cas := { s.cas with orphanSeen := true }
             sup := { s.sup with raised := s.sup.raised ++
               [({ kind := .chainTooLong, critical := false, value := 0, playback := none, cue := none, bank := none,
                   stage := none, time := s.sup.showTime } : EngineFault)] } })
         ∧ (∀ n : Fin 3, s.isLeader = true → f.orphan = false → f.stage = n.val + 1 →
             ∃ g : UpFrame, g.wf = true ∧ (f.inRange = true → g = f)
               ∧ g = { f with lines := g.lines, events := g.events }
               ∧ g.lines.map (fun x => (x.monitor, x.model)) = f.lines.map (fun x => (x.monitor, x.model))
               ∧ g.events.map (fun x => (x.kind, x.raises)) = f.events.map (fun x => (x.kind, x.raises))
               ∧ let e := s.cas.stages.get n
                 let joined := if e.present then s else s.report 0xE9 false (b1 (n.val + 1) ++ b1 f.gen
                   ++ b1 (s.cas.gens.get n) ++ b1 (f.lines.filter (fun x => x.monitor = .locked)).length)
                 let off : LineReport := { monitor := .off, model := 0, count := 0 }
                 let was := if e.present then e.lines else List.replicate 6 off
                 let told := six.foldl (fun (u : State) l => u.tellStageLine (n.val + 1) (l.val + 1) (was.getD l.val off)
                   (g.lines.getD l.val off)) joined
                 (e.lines.length = 6 ∨ e.present = false) → ∃ free : Nat, (f.inRange = true → free = s.free)
                   ∧ exec (.upFrame f) s = .next (g.events.foldl (fun (u : State) x => u.tableEvent (n.val + 1) x)
                       { told with
                         free := free
                         cas := { s.cas with
                           stages := s.cas.stages.set n
                             { present := true, gen := f.gen, leaderLost := f.leaderLost, lines := g.lines,
                               lastUp := s.sup.showTime } } }).pump)))
  ∧ (∀ held now : LineReport,
       (held.monitor ≠ .locked → now.monitor = .locked → stageNews held now = (.found, (now.model, now.count)))
       ∧ (held.monitor = .locked → now.monitor = .lost → stageNews held now = (.lost, (held.model, held.count)))
       ∧ (held.monitor = .locked → now.monitor = .locked → (held.model ≠ now.model ∨ held.count ≠ now.count) →
           stageNews held now = (.changed held.model held.count, (now.model, now.count)))
       ∧ (held.monitor = .locked → now.monitor = .locked → held.model = now.model → held.count = now.count →
           (stageNews held now).1 = .none)
       ∧ (now.monitor ≠ .locked → (held.monitor ≠ .locked ∨ now.monitor ≠ .lost) → (stageNews held now).1 = .none))

/-- The watches and counts of the cascade: a present stage that falls silent becomes absent, with its report and
fault; the orphan watch ends; a follower that loses its leader goes to the safe look under SAFE; frame errors and gaps
are counted (R149, R155, R158, R160). A stage the chain has not got changes nothing, and an error on CAS_DIN decides
the role of an undecided part (the model's choices, logs 33 and 29). -/
def Obligations.CascadeWatchesExpire : Prop :=
  ∀ s : State,
    (∀ n, (n = 0 ∨ 3 < n) → exec (.stageLost n) s = .next s)
    ∧ (∀ n : Fin 3, (s.isLeader = false ∨ (s.cas.stages.get n).present = false) →
        exec (.stageLost (n.val + 1)) s = .next s)
    ∧ (∀ n : Fin 3, s.isLeader = true → (s.cas.stages.get n).present = true →
        let e := s.cas.stages.get n
        Runs (.stageLost (n.val + 1)) s (fun t =>
          t.inside = ({ s with
            cas := { s.cas with stages := s.cas.stages.set n { e with present := false } }
            sup := { s.sup with raised := s.sup.raised ++
              [({ kind := .stageLost, critical := false, value := n.val + 1, playback := none, cue := none, bank := none,
                  stage := some (n.val + 1), time := s.sup.showTime } : EngineFault)] } }).inside
          ∧ (s.report 0xEA true (b1 (n.val + 1) ++ b4 e.lastUp
              ++ b1 (e.lines.filter (fun x => x.monitor = .locked)).length)).KeepsReports t
          ∧ ∀ p, (t.port p).outgoing = (s.port p).outgoing))
    ∧ exec .orphanWatchExpiry s = .next { s with cas := { s.cas with orphanSeen := false } }
    ∧ (s.isFollower = true → s.cas.leaderLost = false → exec .leaderLost s = .next { s with
        cas := { s.cas with leaderLost := true }
        outp := { s.outp with target := if s.cas.policyHeld = .safe then 1000 else s.outp.target } })
    ∧ ((s.isFollower = false ∨ s.cas.leaderLost = true) → exec .leaderLost s = .next s)
    ∧ ∀ c : Instr,
        ((c = .cascadeFrameError .uin ∨ c = .cascadeByteGap .uin) →
          exec c s = .next { s with cas := { s.cas with uinErrors := min (s.cas.uinErrors + 1) 65535 } })
        ∧ ((c = .cascadeFrameError .din ∨ c = .cascadeByteGap .din) →
            (s.isLeader = true → exec c s = .next s)
            ∧ (s.isFollower = true →
                exec c s = .next { s with cas := { s.cas with dinErrors := min (s.cas.dinErrors + 1) 65535 } })
            ∧ (s.cas.role = .undecided → Runs c s (fun t => t.cas.role = .follower
                ∧ t.cas.dinErrors = min (s.cas.dinErrors + 1) 65535)))

/-! ### Engine faults -/

/-- The Supervisor takes a raised fault: ENGINE_FAULT is produced, the fault enters an empty record, and a critical
one halts a NORMAL engine when the record held a critical fault before it. Entering HALTED answers each pending GO
HALTED, on its port or as its input's result with INPUT_ACTION, a follow's being spent silently, then produces the
HALTED report, and leaves slots, looks, merge, lines, store and changeover as they stand (R67, R84, R99, R186). Which
raised fault comes next is the command's operand (log 4); none is taken while the role is undecided (the model's
choice, log 30), and the pending GOs end in the order of the playbacks (the model's choice, log 48). The two kinds in
the HALTED report take 1 byte, as step 1 of R186 marks the kind (the model's choice, log 13). -/
def Obligations.EngineFaultsAreTaken : Prop :=
  ∀ (s : State) (place : Nat),
    ((s.isLeader = false ∨ s.sup.raised.length ≤ place) → exec (.engineFault place) s = .next s)
    ∧ ∀ f, s.isLeader = true → s.sup.raised[place]? = some f →
        let halts := f.critical = true ∧ s.sup.halted = false ∧ ∃ g, s.sup.record = some g ∧ g.critical = true
        let sup : Supervisor := { s.sup with
          raised := s.sup.raised.eraseIdx place, record := some (s.sup.record.getD f) }
        let told := s.report 0xE2 true (b1 f.kind.code ++ bBool f.critical ++ b2 f.value ++ b1 ((f.playback.map num).getD 0)
          ++ b2 (f.cue.getD 0) ++ b1 (bankCode f.bank) ++ b1 (f.stage.getD 255) ++ b4 f.time
          ++ bBool s.sup.record.isNone)
        let ended := four.foldl (fun (v : State) p => v.tellPending p (s.pb p).pendingGo .halted) told
        (¬ halts → exec (.engineFault place) s = .next ({ told with sup := sup } : State).pump)
        ∧ (∀ g, halts → s.sup.record = some g → exec (.engineFault place) s = .next
            ({ ended.report 0xE3 true (b1 f.kind.code ++ b2 f.value ++ b1 g.kind.code ++ b4 g.time) with
               sup := { sup with halted := true }
               eng := { s.eng with pb := s.eng.pb.map (fun x : Playback => { x with pendingGo := none }) } } : State).pump)
        ∧ (¬ halts → Runs (.engineFault place) s (fun t =>
            t.inside = ({ s with sup := sup }).inside ∧ told.KeepsReports t
            ∧ ∀ p, (t.port p).outgoing = (s.port p).outgoing))
        ∧ (halts → Runs (.engineFault place) s (fun t =>
            t.sup = { sup with halted := true } ∧ (∀ p, t.pb p = { s.pb p with pendingGo := none })
            ∧ t.slots = s.slots ∧ t.merge = s.merge ∧ t.patch = s.patch ∧ t.bank = s.bank ∧ t.ctl = s.ctl
            ∧ t.outp = s.outp ∧ t.cas = s.cas ∧ t.store = s.store
            ∧ ∀ p, (t.port p).outgoing = (ended.port p).outgoing))

/-! ### Invariants and encodings -/

/-- At device reset the queues and tables are within their sizes, the store port is busy, no notice waits, and no show is live. -/
def Obligations.InvariantsHoldAtReset : Prop :=
  State.reset.Bounded ∧ State.reset.Calm ∧ State.reset.NoticeGoesFirst ∧ State.reset.StandsWithoutShow

/-- Every step keeps the queues and tables within their sizes: 8 requests a port, 16 reports, 8 queued writes, 64
parks of distinct channels, 64 circuit faults, 16 circuit events, 48 slots of distinct numbers, 16,384 moves, 4 back
entries a playback and 8,192 prior levels in all, and the show time in its 32 bits (R11, R69, R88, R109, R143, R144,
R166, R172, R184). -/
def Obligations.BoundsAreKept : Prop :=
∀ s t : State, s.Bounded → step s = .next t → t.Bounded

/-- Every step keeps the store port busy while anything waits for it, but for the time in which a list notice waits to
be taken, and keeps it so that no write is at the port while a notice waits and no two notices wait together, so that
the fetch a notice starts is granted ahead of the next write (R9, R59; the model's choices, logs 7 and 50). -/
def Obligations.StorePortIsNeverIdle : Prop :=
∀ s t : State, (s.Calm → step s = .next t → t.Calm)
  ∧ (s.NoticeGoesFirst → step s = .next t → t.NoticeGoesFirst)

/-- Every step keeps it so that with no active bank no playback is lit, moving or waiting, and nothing is patched, so
that every circuit which is not reserved stands at 0 (R29, R46, R115). -/
def Obligations.NothingIsLitWithoutAShow : Prop :=
  (∀ s t : State, s.StandsWithoutShow → step s = .next t → t.StandsWithoutShow)
  ∧ ∀ (s : State) (k : Nat), s.StandsWithoutShow → s.bank.active = none →
      (∀ g : Fin 4, k ∉ (s.patch.groups.get g).members) → s.circuitLevel k = 0

/-- The engine halts only by a fault taken and leaves HALTED only by RESTART or device reset; a part becomes LEADER
only at the decision of its role and ceases to be it only by device reset; only a commit or a device reset changes the
active bank (R115, R148, R186). -/
def Obligations.HaltAndRoleChangeOnlySo : Prop :=
  ∀ (c : Instr) (s t : State), exec c s = .next t →
    (s.sup.halted = false → t.sup.halted = true → ∃ place, c = .engineFault place)
    ∧ (s.sup.halted = true → t.sup.halted = false → (∃ b, c = .deviceReset b) ∨ ∃ p, c = .restart p)
    ∧ (s.cas.role ≠ .leader → t.cas.role = .leader → c = .roleDecided false)
    ∧ (s.cas.role = .leader → t.cas.role ≠ .leader → ∃ b, c = .deviceReset b)
    ∧ (t.bank.active ≠ s.bank.active →
        (∃ b, c = .deviceReset b) ∨ (∃ a, c = .loadStepDone a) ∨ c = .darkCheck)

/-- A port frame read back gives the kind, the tag and the body it was made of, for every body a frame can carry, and
is 7 bytes longer than its body (R164, R165, Table 10-1). -/
def Obligations.PortFramesReadBack : Prop :=
  ∀ (kind tag : Byte) (body : List Byte), body.length ≤ 1024 →
    portFrameOf (portFrame kind tag body) = some (kind, tag, body)
    ∧ (portFrame kind tag body).length = 7 + body.length
end

