-- ==== Sys2Proof/Laws/State.lean ====
section
/-! SUPPORT. One lemma for each field and each update of a part of the state, and the lemmas of the families. -/

namespace Sys2Proof.Machine

variable {α : Type}

@[simp] theorem Four.get_set_same (f : Four α) (i : Fin 4) (a : α) : (f.set i a).get i = a := by
  fin_cases i <;> rfl

theorem Four.get_set_other (f : Four α) (i j : Fin 4) (a : α) (h : j ≠ i) : (f.set i a).get j = f.get j := by
  fin_cases i <;> fin_cases j <;> first | rfl | exact absurd rfl h

@[simp] theorem Four.set_get (f : Four α) (i : Fin 4) : f.set i (f.get i) = f := by
  fin_cases i <;> rfl

@[simp] theorem Four.set_set (f : Four α) (i : Fin 4) (a b : α) : (f.set i a).set i b = f.set i b := by
  fin_cases i <;> rfl

@[simp] theorem Four.get_map {β : Type} (g : α → β) (f : Four α) (i : Fin 4) : (f.map g).get i = g (f.get i) := by
  fin_cases i <;> rfl

@[simp] theorem Three.get_set_same (f : Three α) (i : Fin 3) (a : α) : (f.set i a).get i = a := by
  fin_cases i <;> rfl

theorem Three.get_set_other (f : Three α) (i j : Fin 3) (a : α) (h : j ≠ i) : (f.set i a).get j = f.get j := by
  fin_cases i <;> fin_cases j <;> first | rfl | exact absurd rfl h

@[simp] theorem Three.set_get (f : Three α) (i : Fin 3) : f.set i (f.get i) = f := by
  fin_cases i <;> rfl

@[simp] theorem Three.set_set (f : Three α) (i : Fin 3) (a b : α) : (f.set i a).set i b = f.set i b := by
  fin_cases i <;> rfl

@[simp] theorem Three.get_map {β : Type} (g : α → β) (f : Three α) (i : Fin 3) : (f.map g).get i = g (f.get i) := by
  fin_cases i <;> rfl

@[simp] theorem Six.get_set_same (f : Six α) (i : Fin 6) (a : α) : (f.set i a).get i = a := by
  fin_cases i <;> rfl

theorem Six.get_set_other (f : Six α) (i j : Fin 6) (a : α) (h : j ≠ i) : (f.set i a).get j = f.get j := by
  fin_cases i <;> fin_cases j <;> first | rfl | exact absurd rfl h

@[simp] theorem Six.set_get (f : Six α) (i : Fin 6) : f.set i (f.get i) = f := by
  fin_cases i <;> rfl

@[simp] theorem Six.set_set (f : Six α) (i : Fin 6) (a b : α) : (f.set i a).set i b = f.set i b := by
  fin_cases i <;> rfl

@[simp] theorem Six.get_map {β : Type} (g : α → β) (f : Six α) (i : Fin 6) : (f.map g).get i = g (f.get i) := by
  fin_cases i <;> rfl

/-! ### Check values -/

@[simp] theorem Checked.read_none (bytes : α → List Byte) : Checked.read bytes none = none := rfl

/-- What has been written with its check value passes the test of a read (R6). -/
@[simp] theorem Checked.read_seal (bytes : α → List Byte) (v : α) : Checked.read bytes (some (.seal bytes v)) = some v := by
  simp [Checked.read, Checked.seal]

/-- A read hands over the value held, and only under the check value of its bytes (R6). -/
theorem Checked.read_eq_some {bytes : α → List Byte} {x : Option (Checked α)} {v : α} :
    Checked.read bytes x = some v ↔ ∃ c, x = some c ∧ c.check = crc32 (bytes v) ∧ c.value = v := by
  cases x with
  | none => simp
  | some c =>
    simp only [Checked.read, Option.bind_some, Option.some.injEq]
    constructor
    · intro h; split_ifs at h with hc
      cases h; exact ⟨c, rfl, hc, rfl⟩
    · rintro ⟨_, rfl, hc, rfl⟩; simp [hc]

namespace State

@[simp] theorem setPort_store (s : State) (p : PortId) (x : Port) : (s.setPort p x).store = s.store := by cases p <;> rfl
@[simp] theorem setPort_ctl (s : State) (p : PortId) (x : Port) : (s.setPort p x).ctl = s.ctl := by cases p <;> rfl
@[simp] theorem setPort_link (s : State) (p : PortId) (x : Port) : (s.setPort p x).link = s.link := by cases p <;> rfl
@[simp] theorem setPort_bank (s : State) (p : PortId) (x : Port) : (s.setPort p x).bank = s.bank := by cases p <;> rfl
@[simp] theorem setPort_patch (s : State) (p : PortId) (x : Port) : (s.setPort p x).patch = s.patch := by cases p <;> rfl
@[simp] theorem setPort_eng (s : State) (p : PortId) (x : Port) : (s.setPort p x).eng = s.eng := by cases p <;> rfl
@[simp] theorem setPort_slots (s : State) (p : PortId) (x : Port) : (s.setPort p x).slots = s.slots := by cases p <;> rfl
@[simp] theorem setPort_merge (s : State) (p : PortId) (x : Port) : (s.setPort p x).merge = s.merge := by cases p <;> rfl
@[simp] theorem setPort_outp (s : State) (p : PortId) (x : Port) : (s.setPort p x).outp = s.outp := by cases p <;> rfl
@[simp] theorem setPort_cas (s : State) (p : PortId) (x : Port) : (s.setPort p x).cas = s.cas := by cases p <;> rfl
@[simp] theorem setPort_inputs (s : State) (p : PortId) (x : Port) : (s.setPort p x).inputs = s.inputs := by cases p <;> rfl
@[simp] theorem setPort_sup (s : State) (p : PortId) (x : Port) : (s.setPort p x).sup = s.sup := by cases p <;> rfl
@[simp] theorem setPort_free (s : State) (p : PortId) (x : Port) : (s.setPort p x).free = s.free := by cases p <;> rfl
@[simp] theorem setPort_wire (s : State) (p : PortId) (x : Port) : (s.setPort p x).wire = s.wire := by cases p <;> rfl
@[simp] theorem setPort_pending (s : State) (p : PortId) (x : Port) : (s.setPort p x).pending = s.pending := by cases p <;> rfl

@[simp] theorem setPb_store (s : State) (p : PbId) (x : Playback) : (s.setPb p x).store = s.store := rfl
@[simp] theorem setPb_ctl (s : State) (p : PbId) (x : Playback) : (s.setPb p x).ctl = s.ctl := rfl
@[simp] theorem setPb_con (s : State) (p : PbId) (x : Playback) : (s.setPb p x).con = s.con := rfl
@[simp] theorem setPb_aux (s : State) (p : PbId) (x : Playback) : (s.setPb p x).aux = s.aux := rfl
@[simp] theorem setPb_link (s : State) (p : PbId) (x : Playback) : (s.setPb p x).link = s.link := rfl
@[simp] theorem setPb_bank (s : State) (p : PbId) (x : Playback) : (s.setPb p x).bank = s.bank := rfl
@[simp] theorem setPb_patch (s : State) (p : PbId) (x : Playback) : (s.setPb p x).patch = s.patch := rfl
@[simp] theorem setPb_slots (s : State) (p : PbId) (x : Playback) : (s.setPb p x).slots = s.slots := rfl
@[simp] theorem setPb_merge (s : State) (p : PbId) (x : Playback) : (s.setPb p x).merge = s.merge := rfl
@[simp] theorem setPb_outp (s : State) (p : PbId) (x : Playback) : (s.setPb p x).outp = s.outp := rfl
@[simp] theorem setPb_cas (s : State) (p : PbId) (x : Playback) : (s.setPb p x).cas = s.cas := rfl
@[simp] theorem setPb_inputs (s : State) (p : PbId) (x : Playback) : (s.setPb p x).inputs = s.inputs := rfl
@[simp] theorem setPb_sup (s : State) (p : PbId) (x : Playback) : (s.setPb p x).sup = s.sup := rfl
@[simp] theorem setPb_free (s : State) (p : PbId) (x : Playback) : (s.setPb p x).free = s.free := rfl
@[simp] theorem setPb_wire (s : State) (p : PbId) (x : Playback) : (s.setPb p x).wire = s.wire := rfl
@[simp] theorem setPb_pending (s : State) (p : PbId) (x : Playback) : (s.setPb p x).pending = s.pending := rfl

@[simp] theorem setLine_store (s : State) (l : Fin 6) (x : Line) : (s.setLine l x).store = s.store := rfl
@[simp] theorem setLine_ctl (s : State) (l : Fin 6) (x : Line) : (s.setLine l x).ctl = s.ctl := rfl
@[simp] theorem setLine_con (s : State) (l : Fin 6) (x : Line) : (s.setLine l x).con = s.con := rfl
@[simp] theorem setLine_aux (s : State) (l : Fin 6) (x : Line) : (s.setLine l x).aux = s.aux := rfl
@[simp] theorem setLine_link (s : State) (l : Fin 6) (x : Line) : (s.setLine l x).link = s.link := rfl
@[simp] theorem setLine_bank (s : State) (l : Fin 6) (x : Line) : (s.setLine l x).bank = s.bank := rfl
@[simp] theorem setLine_patch (s : State) (l : Fin 6) (x : Line) : (s.setLine l x).patch = s.patch := rfl
@[simp] theorem setLine_eng (s : State) (l : Fin 6) (x : Line) : (s.setLine l x).eng = s.eng := rfl
@[simp] theorem setLine_slots (s : State) (l : Fin 6) (x : Line) : (s.setLine l x).slots = s.slots := rfl
@[simp] theorem setLine_merge (s : State) (l : Fin 6) (x : Line) : (s.setLine l x).merge = s.merge := rfl
@[simp] theorem setLine_cas (s : State) (l : Fin 6) (x : Line) : (s.setLine l x).cas = s.cas := rfl
@[simp] theorem setLine_inputs (s : State) (l : Fin 6) (x : Line) : (s.setLine l x).inputs = s.inputs := rfl
@[simp] theorem setLine_sup (s : State) (l : Fin 6) (x : Line) : (s.setLine l x).sup = s.sup := rfl
@[simp] theorem setLine_free (s : State) (l : Fin 6) (x : Line) : (s.setLine l x).free = s.free := rfl
@[simp] theorem setLine_wire (s : State) (l : Fin 6) (x : Line) : (s.setLine l x).wire = s.wire := rfl
@[simp] theorem setLine_pending (s : State) (l : Fin 6) (x : Line) : (s.setLine l x).pending = s.pending := rfl

@[simp] theorem setRam_store (s : State) (b : Bank) (h : Header) : (s.setRam b h).store = s.store := rfl
@[simp] theorem setRam_con (s : State) (b : Bank) (h : Header) : (s.setRam b h).con = s.con := rfl
@[simp] theorem setRam_aux (s : State) (b : Bank) (h : Header) : (s.setRam b h).aux = s.aux := rfl
@[simp] theorem setRam_link (s : State) (b : Bank) (h : Header) : (s.setRam b h).link = s.link := rfl
@[simp] theorem setRam_bank (s : State) (b : Bank) (h : Header) : (s.setRam b h).bank = s.bank := rfl
@[simp] theorem setRam_patch (s : State) (b : Bank) (h : Header) : (s.setRam b h).patch = s.patch := rfl
@[simp] theorem setRam_eng (s : State) (b : Bank) (h : Header) : (s.setRam b h).eng = s.eng := rfl
@[simp] theorem setRam_slots (s : State) (b : Bank) (h : Header) : (s.setRam b h).slots = s.slots := rfl
@[simp] theorem setRam_merge (s : State) (b : Bank) (h : Header) : (s.setRam b h).merge = s.merge := rfl
@[simp] theorem setRam_outp (s : State) (b : Bank) (h : Header) : (s.setRam b h).outp = s.outp := rfl
@[simp] theorem setRam_cas (s : State) (b : Bank) (h : Header) : (s.setRam b h).cas = s.cas := rfl
@[simp] theorem setRam_inputs (s : State) (b : Bank) (h : Header) : (s.setRam b h).inputs = s.inputs := rfl
@[simp] theorem setRam_sup (s : State) (b : Bank) (h : Header) : (s.setRam b h).sup = s.sup := rfl
@[simp] theorem setRam_free (s : State) (b : Bank) (h : Header) : (s.setRam b h).free = s.free := rfl
@[simp] theorem setRam_wire (s : State) (b : Bank) (h : Header) : (s.setRam b h).wire = s.wire := rfl
@[simp] theorem setRam_pending (s : State) (b : Bank) (h : Header) : (s.setRam b h).pending = s.pending := rfl

@[simp] theorem setProj_store (s : State) (b : Bank) (h : Header) : (s.setProj b h).store = s.store := rfl
@[simp] theorem setProj_con (s : State) (b : Bank) (h : Header) : (s.setProj b h).con = s.con := rfl
@[simp] theorem setProj_aux (s : State) (b : Bank) (h : Header) : (s.setProj b h).aux = s.aux := rfl
@[simp] theorem setProj_link (s : State) (b : Bank) (h : Header) : (s.setProj b h).link = s.link := rfl
@[simp] theorem setProj_bank (s : State) (b : Bank) (h : Header) : (s.setProj b h).bank = s.bank := rfl
@[simp] theorem setProj_patch (s : State) (b : Bank) (h : Header) : (s.setProj b h).patch = s.patch := rfl
@[simp] theorem setProj_eng (s : State) (b : Bank) (h : Header) : (s.setProj b h).eng = s.eng := rfl
@[simp] theorem setProj_slots (s : State) (b : Bank) (h : Header) : (s.setProj b h).slots = s.slots := rfl
@[simp] theorem setProj_merge (s : State) (b : Bank) (h : Header) : (s.setProj b h).merge = s.merge := rfl
@[simp] theorem setProj_outp (s : State) (b : Bank) (h : Header) : (s.setProj b h).outp = s.outp := rfl
@[simp] theorem setProj_cas (s : State) (b : Bank) (h : Header) : (s.setProj b h).cas = s.cas := rfl
@[simp] theorem setProj_inputs (s : State) (b : Bank) (h : Header) : (s.setProj b h).inputs = s.inputs := rfl
@[simp] theorem setProj_sup (s : State) (b : Bank) (h : Header) : (s.setProj b h).sup = s.sup := rfl
@[simp] theorem setProj_free (s : State) (b : Bank) (h : Header) : (s.setProj b h).free = s.free := rfl
@[simp] theorem setProj_wire (s : State) (b : Bank) (h : Header) : (s.setProj b h).wire = s.wire := rfl
@[simp] theorem setProj_pending (s : State) (b : Bank) (h : Header) : (s.setProj b h).pending = s.pending := rfl

@[simp] theorem emit_store (s : State) (o : Output) : (s.emit o).store = s.store := rfl
@[simp] theorem emit_ctl (s : State) (o : Output) : (s.emit o).ctl = s.ctl := rfl
@[simp] theorem emit_con (s : State) (o : Output) : (s.emit o).con = s.con := rfl
@[simp] theorem emit_aux (s : State) (o : Output) : (s.emit o).aux = s.aux := rfl
@[simp] theorem emit_link (s : State) (o : Output) : (s.emit o).link = s.link := rfl
@[simp] theorem emit_bank (s : State) (o : Output) : (s.emit o).bank = s.bank := rfl
@[simp] theorem emit_patch (s : State) (o : Output) : (s.emit o).patch = s.patch := rfl
@[simp] theorem emit_eng (s : State) (o : Output) : (s.emit o).eng = s.eng := rfl
@[simp] theorem emit_slots (s : State) (o : Output) : (s.emit o).slots = s.slots := rfl
@[simp] theorem emit_merge (s : State) (o : Output) : (s.emit o).merge = s.merge := rfl
@[simp] theorem emit_outp (s : State) (o : Output) : (s.emit o).outp = s.outp := rfl
@[simp] theorem emit_cas (s : State) (o : Output) : (s.emit o).cas = s.cas := rfl
@[simp] theorem emit_inputs (s : State) (o : Output) : (s.emit o).inputs = s.inputs := rfl
@[simp] theorem emit_sup (s : State) (o : Output) : (s.emit o).sup = s.sup := rfl
@[simp] theorem emit_free (s : State) (o : Output) : (s.emit o).free = s.free := rfl
@[simp] theorem emit_pending (s : State) (o : Output) : (s.emit o).pending = s.pending := rfl

@[simp] theorem freePort_store (s : State)  : (s.freePort).store = s.store := rfl
@[simp] theorem freePort_con (s : State)  : (s.freePort).con = s.con := rfl
@[simp] theorem freePort_aux (s : State)  : (s.freePort).aux = s.aux := rfl
@[simp] theorem freePort_link (s : State)  : (s.freePort).link = s.link := rfl
@[simp] theorem freePort_bank (s : State)  : (s.freePort).bank = s.bank := rfl
@[simp] theorem freePort_patch (s : State)  : (s.freePort).patch = s.patch := rfl
@[simp] theorem freePort_eng (s : State)  : (s.freePort).eng = s.eng := rfl
@[simp] theorem freePort_slots (s : State)  : (s.freePort).slots = s.slots := rfl
@[simp] theorem freePort_merge (s : State)  : (s.freePort).merge = s.merge := rfl
@[simp] theorem freePort_outp (s : State)  : (s.freePort).outp = s.outp := rfl
@[simp] theorem freePort_cas (s : State)  : (s.freePort).cas = s.cas := rfl
@[simp] theorem freePort_inputs (s : State)  : (s.freePort).inputs = s.inputs := rfl
@[simp] theorem freePort_sup (s : State)  : (s.freePort).sup = s.sup := rfl
@[simp] theorem freePort_free (s : State)  : (s.freePort).free = s.free := rfl
@[simp] theorem freePort_wire (s : State)  : (s.freePort).wire = s.wire := rfl
@[simp] theorem freePort_pending (s : State)  : (s.freePort).pending = s.pending := rfl

@[simp] theorem takeOff_store (s : State) (p : PortId) (rest : List Request) : (s.takeOff p rest).store = s.store := by cases p <;> rfl
@[simp] theorem takeOff_ctl (s : State) (p : PortId) (rest : List Request) : (s.takeOff p rest).ctl = s.ctl := by cases p <;> rfl
@[simp] theorem takeOff_link (s : State) (p : PortId) (rest : List Request) : (s.takeOff p rest).link = s.link := by cases p <;> rfl
@[simp] theorem takeOff_bank (s : State) (p : PortId) (rest : List Request) : (s.takeOff p rest).bank = s.bank := by cases p <;> rfl
@[simp] theorem takeOff_patch (s : State) (p : PortId) (rest : List Request) : (s.takeOff p rest).patch = s.patch := by cases p <;> rfl
@[simp] theorem takeOff_eng (s : State) (p : PortId) (rest : List Request) : (s.takeOff p rest).eng = s.eng := by cases p <;> rfl
@[simp] theorem takeOff_slots (s : State) (p : PortId) (rest : List Request) : (s.takeOff p rest).slots = s.slots := by cases p <;> rfl
@[simp] theorem takeOff_merge (s : State) (p : PortId) (rest : List Request) : (s.takeOff p rest).merge = s.merge := by cases p <;> rfl
@[simp] theorem takeOff_outp (s : State) (p : PortId) (rest : List Request) : (s.takeOff p rest).outp = s.outp := by cases p <;> rfl
@[simp] theorem takeOff_cas (s : State) (p : PortId) (rest : List Request) : (s.takeOff p rest).cas = s.cas := by cases p <;> rfl
@[simp] theorem takeOff_inputs (s : State) (p : PortId) (rest : List Request) : (s.takeOff p rest).inputs = s.inputs := by cases p <;> rfl
@[simp] theorem takeOff_sup (s : State) (p : PortId) (rest : List Request) : (s.takeOff p rest).sup = s.sup := by cases p <;> rfl
@[simp] theorem takeOff_free (s : State) (p : PortId) (rest : List Request) : (s.takeOff p rest).free = s.free := by cases p <;> rfl
@[simp] theorem takeOff_wire (s : State) (p : PortId) (rest : List Request) : (s.takeOff p rest).wire = s.wire := by cases p <;> rfl
@[simp] theorem takeOff_pending (s : State) (p : PortId) (rest : List Request) : (s.takeOff p rest).pending = s.pending := by cases p <;> rfl

@[simp] theorem setPaused_store (s : State) (p : PbId) (x : Bool) : (s.setPaused p x).store = s.store := rfl
@[simp] theorem setPaused_ctl (s : State) (p : PbId) (x : Bool) : (s.setPaused p x).ctl = s.ctl := rfl
@[simp] theorem setPaused_con (s : State) (p : PbId) (x : Bool) : (s.setPaused p x).con = s.con := rfl
@[simp] theorem setPaused_aux (s : State) (p : PbId) (x : Bool) : (s.setPaused p x).aux = s.aux := rfl
@[simp] theorem setPaused_link (s : State) (p : PbId) (x : Bool) : (s.setPaused p x).link = s.link := rfl
@[simp] theorem setPaused_bank (s : State) (p : PbId) (x : Bool) : (s.setPaused p x).bank = s.bank := rfl
@[simp] theorem setPaused_patch (s : State) (p : PbId) (x : Bool) : (s.setPaused p x).patch = s.patch := rfl
@[simp] theorem setPaused_eng (s : State) (p : PbId) (x : Bool) : (s.setPaused p x).eng = s.eng := rfl
@[simp] theorem setPaused_merge (s : State) (p : PbId) (x : Bool) : (s.setPaused p x).merge = s.merge := rfl
@[simp] theorem setPaused_outp (s : State) (p : PbId) (x : Bool) : (s.setPaused p x).outp = s.outp := rfl
@[simp] theorem setPaused_cas (s : State) (p : PbId) (x : Bool) : (s.setPaused p x).cas = s.cas := rfl
@[simp] theorem setPaused_inputs (s : State) (p : PbId) (x : Bool) : (s.setPaused p x).inputs = s.inputs := rfl
@[simp] theorem setPaused_sup (s : State) (p : PbId) (x : Bool) : (s.setPaused p x).sup = s.sup := rfl
@[simp] theorem setPaused_free (s : State) (p : PbId) (x : Bool) : (s.setPaused p x).free = s.free := rfl
@[simp] theorem setPaused_wire (s : State) (p : PbId) (x : Bool) : (s.setPaused p x).wire = s.wire := rfl
@[simp] theorem setPaused_pending (s : State) (p : PbId) (x : Bool) : (s.setPaused p x).pending = s.pending := rfl

@[simp] theorem dropSlots_store (s : State) (p : PbId) : (s.dropSlots p).store = s.store := rfl
@[simp] theorem dropSlots_ctl (s : State) (p : PbId) : (s.dropSlots p).ctl = s.ctl := rfl
@[simp] theorem dropSlots_con (s : State) (p : PbId) : (s.dropSlots p).con = s.con := rfl
@[simp] theorem dropSlots_aux (s : State) (p : PbId) : (s.dropSlots p).aux = s.aux := rfl
@[simp] theorem dropSlots_link (s : State) (p : PbId) : (s.dropSlots p).link = s.link := rfl
@[simp] theorem dropSlots_bank (s : State) (p : PbId) : (s.dropSlots p).bank = s.bank := rfl
@[simp] theorem dropSlots_patch (s : State) (p : PbId) : (s.dropSlots p).patch = s.patch := rfl
@[simp] theorem dropSlots_eng (s : State) (p : PbId) : (s.dropSlots p).eng = s.eng := rfl
@[simp] theorem dropSlots_slots (s : State) (p : PbId) : (s.dropSlots p).slots = withoutSlotsOf p s.slots := rfl
@[simp] theorem dropSlots_merge (s : State) (p : PbId) : (s.dropSlots p).merge = s.merge := rfl
@[simp] theorem dropSlots_outp (s : State) (p : PbId) : (s.dropSlots p).outp = s.outp := rfl
@[simp] theorem dropSlots_cas (s : State) (p : PbId) : (s.dropSlots p).cas = s.cas := rfl
@[simp] theorem dropSlots_inputs (s : State) (p : PbId) : (s.dropSlots p).inputs = s.inputs := rfl
@[simp] theorem dropSlots_sup (s : State) (p : PbId) : (s.dropSlots p).sup = s.sup := rfl
@[simp] theorem dropSlots_free (s : State) (p : PbId) : (s.dropSlots p).free = s.free := rfl
@[simp] theorem dropSlots_wire (s : State) (p : PbId) : (s.dropSlots p).wire = s.wire := rfl
@[simp] theorem dropSlots_pending (s : State) (p : PbId) : (s.dropSlots p).pending = s.pending := rfl

@[simp] theorem enterHeld_store (s : State) (p : PbId) : (s.enterHeld p).store = s.store := rfl
@[simp] theorem enterHeld_ctl (s : State) (p : PbId) : (s.enterHeld p).ctl = s.ctl := rfl
@[simp] theorem enterHeld_con (s : State) (p : PbId) : (s.enterHeld p).con = s.con := rfl
@[simp] theorem enterHeld_aux (s : State) (p : PbId) : (s.enterHeld p).aux = s.aux := rfl
@[simp] theorem enterHeld_link (s : State) (p : PbId) : (s.enterHeld p).link = s.link := rfl
@[simp] theorem enterHeld_bank (s : State) (p : PbId) : (s.enterHeld p).bank = s.bank := rfl
@[simp] theorem enterHeld_patch (s : State) (p : PbId) : (s.enterHeld p).patch = s.patch := rfl
@[simp] theorem enterHeld_merge (s : State) (p : PbId) : (s.enterHeld p).merge = s.merge := rfl
@[simp] theorem enterHeld_outp (s : State) (p : PbId) : (s.enterHeld p).outp = s.outp := rfl
@[simp] theorem enterHeld_cas (s : State) (p : PbId) : (s.enterHeld p).cas = s.cas := rfl
@[simp] theorem enterHeld_inputs (s : State) (p : PbId) : (s.enterHeld p).inputs = s.inputs := rfl
@[simp] theorem enterHeld_sup (s : State) (p : PbId) : (s.enterHeld p).sup = s.sup := rfl
@[simp] theorem enterHeld_free (s : State) (p : PbId) : (s.enterHeld p).free = s.free := rfl
@[simp] theorem enterHeld_wire (s : State) (p : PbId) : (s.enterHeld p).wire = s.wire := rfl
@[simp] theorem enterHeld_pending (s : State) (p : PbId) : (s.enterHeld p).pending = s.pending := rfl

@[simp] theorem unhold_store (s : State) (p : PbId) : (s.unhold p).store = s.store := rfl
@[simp] theorem unhold_ctl (s : State) (p : PbId) : (s.unhold p).ctl = s.ctl := rfl
@[simp] theorem unhold_con (s : State) (p : PbId) : (s.unhold p).con = s.con := rfl
@[simp] theorem unhold_aux (s : State) (p : PbId) : (s.unhold p).aux = s.aux := rfl
@[simp] theorem unhold_link (s : State) (p : PbId) : (s.unhold p).link = s.link := rfl
@[simp] theorem unhold_bank (s : State) (p : PbId) : (s.unhold p).bank = s.bank := rfl
@[simp] theorem unhold_patch (s : State) (p : PbId) : (s.unhold p).patch = s.patch := rfl
@[simp] theorem unhold_merge (s : State) (p : PbId) : (s.unhold p).merge = s.merge := rfl
@[simp] theorem unhold_outp (s : State) (p : PbId) : (s.unhold p).outp = s.outp := rfl
@[simp] theorem unhold_cas (s : State) (p : PbId) : (s.unhold p).cas = s.cas := rfl
@[simp] theorem unhold_inputs (s : State) (p : PbId) : (s.unhold p).inputs = s.inputs := rfl
@[simp] theorem unhold_sup (s : State) (p : PbId) : (s.unhold p).sup = s.sup := rfl
@[simp] theorem unhold_free (s : State) (p : PbId) : (s.unhold p).free = s.free := rfl
@[simp] theorem unhold_wire (s : State) (p : PbId) : (s.unhold p).wire = s.wire := rfl
@[simp] theorem unhold_pending (s : State) (p : PbId) : (s.unhold p).pending = s.pending := rfl

@[simp] theorem createSlot_store (s : State) (sl : Slot) : (s.createSlot sl).store = s.store := rfl
@[simp] theorem createSlot_ctl (s : State) (sl : Slot) : (s.createSlot sl).ctl = s.ctl := rfl
@[simp] theorem createSlot_con (s : State) (sl : Slot) : (s.createSlot sl).con = s.con := rfl
@[simp] theorem createSlot_aux (s : State) (sl : Slot) : (s.createSlot sl).aux = s.aux := rfl
@[simp] theorem createSlot_link (s : State) (sl : Slot) : (s.createSlot sl).link = s.link := rfl
@[simp] theorem createSlot_bank (s : State) (sl : Slot) : (s.createSlot sl).bank = s.bank := rfl
@[simp] theorem createSlot_patch (s : State) (sl : Slot) : (s.createSlot sl).patch = s.patch := rfl
@[simp] theorem createSlot_merge (s : State) (sl : Slot) : (s.createSlot sl).merge = s.merge := rfl
@[simp] theorem createSlot_outp (s : State) (sl : Slot) : (s.createSlot sl).outp = s.outp := rfl
@[simp] theorem createSlot_cas (s : State) (sl : Slot) : (s.createSlot sl).cas = s.cas := rfl
@[simp] theorem createSlot_inputs (s : State) (sl : Slot) : (s.createSlot sl).inputs = s.inputs := rfl
@[simp] theorem createSlot_sup (s : State) (sl : Slot) : (s.createSlot sl).sup = s.sup := rfl
@[simp] theorem createSlot_free (s : State) (sl : Slot) : (s.createSlot sl).free = s.free := rfl
@[simp] theorem createSlot_wire (s : State) (sl : Slot) : (s.createSlot sl).wire = s.wire := rfl
@[simp] theorem createSlot_pending (s : State) (sl : Slot) : (s.createSlot sl).pending = s.pending := rfl

@[simp] theorem answer_store (s : State) (q : Requester) (st : Status) (fields : List Byte) : (s.answer q st fields).store = s.store := by
  cases q with | mk p _ _ => cases p <;> rfl
@[simp] theorem answer_ctl (s : State) (q : Requester) (st : Status) (fields : List Byte) : (s.answer q st fields).ctl = s.ctl := by
  cases q with | mk p _ _ => cases p <;> rfl
@[simp] theorem answer_link (s : State) (q : Requester) (st : Status) (fields : List Byte) : (s.answer q st fields).link = s.link := by
  cases q with | mk p _ _ => cases p <;> rfl
@[simp] theorem answer_bank (s : State) (q : Requester) (st : Status) (fields : List Byte) : (s.answer q st fields).bank = s.bank := by
  cases q with | mk p _ _ => cases p <;> rfl
@[simp] theorem answer_patch (s : State) (q : Requester) (st : Status) (fields : List Byte) : (s.answer q st fields).patch = s.patch := by
  cases q with | mk p _ _ => cases p <;> rfl
@[simp] theorem answer_eng (s : State) (q : Requester) (st : Status) (fields : List Byte) : (s.answer q st fields).eng = s.eng := by
  cases q with | mk p _ _ => cases p <;> rfl
@[simp] theorem answer_slots (s : State) (q : Requester) (st : Status) (fields : List Byte) : (s.answer q st fields).slots = s.slots := by
  cases q with | mk p _ _ => cases p <;> rfl
@[simp] theorem answer_merge (s : State) (q : Requester) (st : Status) (fields : List Byte) : (s.answer q st fields).merge = s.merge := by
  cases q with | mk p _ _ => cases p <;> rfl
@[simp] theorem answer_outp (s : State) (q : Requester) (st : Status) (fields : List Byte) : (s.answer q st fields).outp = s.outp := by
  cases q with | mk p _ _ => cases p <;> rfl
@[simp] theorem answer_cas (s : State) (q : Requester) (st : Status) (fields : List Byte) : (s.answer q st fields).cas = s.cas := by
  cases q with | mk p _ _ => cases p <;> rfl
@[simp] theorem answer_inputs (s : State) (q : Requester) (st : Status) (fields : List Byte) : (s.answer q st fields).inputs = s.inputs := by
  cases q with | mk p _ _ => cases p <;> rfl
@[simp] theorem answer_sup (s : State) (q : Requester) (st : Status) (fields : List Byte) : (s.answer q st fields).sup = s.sup := by
  cases q with | mk p _ _ => cases p <;> rfl
@[simp] theorem answer_free (s : State) (q : Requester) (st : Status) (fields : List Byte) : (s.answer q st fields).free = s.free := by
  cases q with | mk p _ _ => cases p <;> rfl
@[simp] theorem answer_wire (s : State) (q : Requester) (st : Status) (fields : List Byte) : (s.answer q st fields).wire = s.wire := by
  cases q with | mk p _ _ => cases p <;> rfl
@[simp] theorem answer_pending (s : State) (q : Requester) (st : Status) (fields : List Byte) : (s.answer q st fields).pending = s.pending := by
  cases q with | mk p _ _ => cases p <;> rfl

@[simp] theorem port_setPort_same (s : State) (p : PortId) (x : Port) : (s.setPort p x).port p = x := by cases p <;> rfl

@[simp] theorem port_setPort_other (s : State) (x : Port) :
    (s.setPort .console x).port .aux = s.port .aux ∧ (s.setPort .aux x).port .console = s.port .console := ⟨rfl, rfl⟩

@[simp] theorem pb_setPb_same (s : State) (p : PbId) (x : Playback) : (s.setPb p x).pb p = x := by
  simp [setPb, pb]

theorem pb_setPb_other (s : State) (p q : PbId) (x : Playback) (h : q ≠ p) : (s.setPb p x).pb q = s.pb q := by
  simp [setPb, pb, Four.get_set_other _ _ _ _ h]

@[simp] theorem line_setLine_same (s : State) (l : Fin 6) (x : Line) : (s.setLine l x).line l = x := by
  simp [setLine, line]

theorem line_setLine_other (s : State) (l m : Fin 6) (x : Line) (h : m ≠ l) : (s.setLine l x).line m = s.line m := by
  simp [setLine, line, Six.get_set_other _ _ _ _ h]

@[simp] theorem ram_setRam_same (s : State) (b : Bank) (h : Header) : (s.setRam b h).ram b = h := by
  simp [setRam, ram]

@[simp] theorem proj_setProj_same (s : State) (b : Bank) (h : Header) : (s.setProj b h).proj b = h := by
  simp [setProj, proj]

@[simp] theorem port_setPb (s : State) (p : PbId) (x : Playback) (q : PortId) : (s.setPb p x).port q = s.port q := by
  cases q <;> rfl

@[simp] theorem pb_setPort (s : State) (p : PortId) (x : Port) (q : PbId) : (s.setPort p x).pb q = s.pb q := by
  cases p <;> rfl

@[simp] theorem eng_setPb_notices (s : State) (p : PbId) (x : Playback) : (s.setPb p x).eng.notices = s.eng.notices := rfl

@[simp] theorem eng_setPb_backTime (s : State) (p : PbId) (x : Playback) : (s.setPb p x).eng.backTime = s.eng.backTime := rfl

end State

end Sys2Proof.Machine
end

