-- ==== Sys2Proof/Laws/Ops.lean ====
section
/-! SUPPORT. What the shared operations can do: replies, reports, raised faults, the transmitters, the taking of a request. -/

namespace Sys2Proof.Machine

/-! ### Cascade frames in their ranges -/

theorem rangeValue_of {lo hi n : Nat} (h : lo ≤ n ∧ n ≤ hi) (k : Nat) : rangeValue lo hi n k = n := if_pos h

/-- A value taken for one outside its range lies in the range (log 33). -/
theorem rangeValue_mem {lo hi : Nat} (n k : Nat) (h : lo ≤ hi) : lo ≤ rangeValue lo hi n k ∧ rangeValue lo hi n k ≤ hi := by
  unfold rangeValue; split_ifs with hn
  · exact hn
  · have := Nat.mod_lt (Config.freeNumber k) (show 0 < hi - lo + 1 by omega); omega

theorem stageSettled_of {f : StageFrame} (h : f.wf = true) (k : Nat) : stageSettled f k = f ∧ stageOpens f = 0 := by
  simp only [StageFrame.wf, Bool.and_eq_true, decide_eq_true_eq] at h
  have hb : f.blend ≤ 1000 := h.1.2
  exact ⟨by simp [stageSettled, rangeValue_of ⟨Nat.zero_le _, hb⟩], by simp [stageOpens, hb]⟩

theorem setupSettled_of {f : SetupFrame} (h : f.inRange = true) (k : Nat) : setupSettled f k = f ∧ setupOpens f = 0 := by
  have h' := h
  simp only [SetupFrame.inRange, Bool.and_eq_true, decide_eq_true_eq] at h'
  obtain ⟨⟨⟨⟨h1, h2⟩, h3⟩, h4⟩, h5⟩ := h'
  exact ⟨by simp [setupSettled, rangeValue_of ⟨Nat.zero_le _, h1⟩, rangeValue_of ⟨h2, h3⟩, h4, h5], by simp [setupOpens, h]⟩

theorem upSettled_of {f : UpFrame} (h : f.inRange = true) (k : Nat) : upSettled f k = f ∧ upOpens f = 0 := by
  have h' := h
  simp only [UpFrame.inRange, Bool.and_eq_true, List.all_eq_true, LineReport.wf, CircuitEvent.wf, decide_eq_true_eq] at h'
  refine ⟨?_, by simp [upOpens, h]⟩
  have hl : f.lines.zipIdx.map (fun e => { e.1 with count := rangeValue 0 96 e.1.count (k + e.2) }) = f.lines := by
    conv_rhs => rw [← List.zipIdx_map_fst 0 f.lines]
    refine List.map_congr_left fun e he => ?_
    rw [rangeValue_of ⟨Nat.zero_le _, h'.1 _ (List.fst_mem_of_mem_zipIdx he)⟩]
  have hv : f.events.zipIdx.map (fun e => { e.1 with circuit := rangeValue 1 2304 e.1.circuit (k + 6 + e.2) }) = f.events := by
    conv_rhs => rw [← List.zipIdx_map_fst 0 f.events]
    refine List.map_congr_left fun e he => ?_
    rw [rangeValue_of (h'.2 _ (List.fst_mem_of_mem_zipIdx he))]
  unfold upSettled; rw [hl, hv]

/-- An up frame as the leader takes it has every value in its range (log 33). -/
theorem upSettled_wf {f : UpFrame} (h : f.fits = true) (k : Nat) : (upSettled f k).wf = true := by
  unfold UpFrame.fits at h
  simp only [Bool.and_eq_true, decide_eq_true_eq, List.all_eq_true] at h
  obtain ⟨⟨⟨⟨⟨h1, h2⟩, h3⟩, h4⟩, h5⟩, -⟩ := h
  have hc : ∀ y i, 1 ≤ rangeValue 1 2304 y i ∧ rangeValue 1 2304 y i ≤ 2304 := fun y i => rangeValue_mem y i (by decide)
  have hn : ∀ y i, rangeValue 0 96 y i ≤ 96 := fun y i => (rangeValue_mem y i (by decide)).2
  simp only [UpFrame.wf, UpFrame.fits, UpFrame.inRange, upSettled, Bool.and_eq_true, decide_eq_true_eq, List.all_eq_true,
    LineReport.wf, CircuitEvent.wf, List.length_map, List.length_zipIdx, List.mem_map, forall_exists_index, and_imp]
  refine ⟨⟨⟨⟨⟨⟨decide_eq_true h1, decide_eq_true h2⟩, h3⟩, ?_⟩, h5⟩, ?_⟩, ?_, ?_⟩
  · rintro x y hy rfl
    exact ⟨(h4 y.1 (List.fst_mem_of_mem_zipIdx hy)).1, (hn _ _).trans (by decide)⟩
  · rintro x y - rfl
    exact (hc _ _).2.trans (by decide)
  · rintro x y - rfl
    exact hn _ _
  · rintro x y - rfl
    exact hc _ _

/-- A strictly rising list passes the check for it. -/
theorem risesStrictly_of_pairwise : ∀ {l : List Nat}, l.Pairwise (· < ·) → risesStrictly l = true
  | [], _ => rfl
  | [_], _ => rfl
  | a :: b :: l, h => by
    rw [List.pairwise_cons] at h
    simp only [risesStrictly, Bool.and_eq_true, decide_eq_true_eq]
    exact ⟨h.1 b (by simp), risesStrictly_of_pairwise h.2⟩

/-- Free circuits of a stage rise, lie in 1 to 576, and are no more than asked for (log 33). -/
theorem freeCircuits_spec (k n : Nat) : risesStrictly (freeCircuits k n) = true ∧ (freeCircuits k n).length ≤ n
    ∧ ∀ x ∈ freeCircuits k n, 1 ≤ x ∧ x ≤ 576 := by
  refine ⟨risesStrictly_of_pairwise ?_, ?_, ?_⟩
  · unfold freeCircuits
    refine List.Pairwise.sublist (List.take_sublist _ _) (List.Pairwise.sublist List.filter_sublist ?_)
    exact List.pairwise_lt_range.map _ (by intros; omega)
  · unfold freeCircuits
    simp only [List.length_take]
    omega
  · intro x hx
    obtain ⟨y, hy, rfl⟩ := List.mem_map.1 (List.mem_filter.1 (List.mem_of_mem_take hx)).1
    rw [List.mem_range] at hy
    omega

theorem isHouseList_freeHouse (k : Nat) : isHouseList (freeHouse k) = true := by
  obtain ⟨h1, h2, h3⟩ := freeCircuits_spec k 48
  simp only [isHouseList, freeHouse, Bool.and_eq_true, decide_eq_true_eq, List.all_eq_true]
  exact ⟨⟨decide_eq_true h2, h3⟩, h1⟩

theorem isSafeList_freeSafe (k : Nat) : isSafeList (freeSafe k) = true := by
  obtain ⟨h1, h2, h3⟩ := freeCircuits_spec k 128
  simp only [isSafeList, freeSafe, Bool.and_eq_true, decide_eq_true_eq, List.all_eq_true, List.length_map, List.mem_map,
    forall_exists_index, and_imp, List.map_map, Function.comp_def, List.map_id']
  refine ⟨⟨h2, ?_⟩, h1⟩
  rintro x y hy rfl
  have := Nat.mod_lt (Config.freeNumber (k + y)) (show 1001 > 0 by omega)
  exact ⟨h3 y hy, by omega⟩

/-- A setup frame as it is applied has every value in its range (log 33). -/
theorem setupSettled_inRange (f : SetupFrame) (k : Nat) : (setupSettled f k).inRange = true := by
  have h1 := rangeValue_mem (lo := 0) (hi := 600) f.safeFade k (by decide)
  have h2 := rangeValue_mem (lo := 50) (hi := 500) f.lamp (k + 1) (by decide)
  simp only [SetupFrame.inRange, setupSettled, Bool.and_eq_true]
  refine ⟨⟨⟨⟨decide_eq_true h1.2, decide_eq_true h2.1⟩, decide_eq_true h2.2⟩, ?_⟩, ?_⟩
  · split_ifs with h
    · exact h
    · exact isHouseList_freeHouse _
  · split_ifs with h
    · exact h
    · exact isSafeList_freeSafe _

namespace State

@[simp] theorem report_store (s : State) (k : Nat) (u : Bool) (b : List Byte) : (s.report k u b).store = s.store := by unfold report; dsimp only; split_ifs <;> rfl
@[simp] theorem report_ctl (s : State) (k : Nat) (u : Bool) (b : List Byte) : (s.report k u b).ctl = s.ctl := by unfold report; dsimp only; split_ifs <;> rfl
@[simp] theorem report_con (s : State) (k : Nat) (u : Bool) (b : List Byte) : (s.report k u b).con = s.con := by unfold report; dsimp only; split_ifs <;> rfl
@[simp] theorem report_aux (s : State) (k : Nat) (u : Bool) (b : List Byte) : (s.report k u b).aux = s.aux := by unfold report; dsimp only; split_ifs <;> rfl
@[simp] theorem report_bank (s : State) (k : Nat) (u : Bool) (b : List Byte) : (s.report k u b).bank = s.bank := by unfold report; dsimp only; split_ifs <;> rfl
@[simp] theorem report_patch (s : State) (k : Nat) (u : Bool) (b : List Byte) : (s.report k u b).patch = s.patch := by unfold report; dsimp only; split_ifs <;> rfl
@[simp] theorem report_eng (s : State) (k : Nat) (u : Bool) (b : List Byte) : (s.report k u b).eng = s.eng := by unfold report; dsimp only; split_ifs <;> rfl
@[simp] theorem report_slots (s : State) (k : Nat) (u : Bool) (b : List Byte) : (s.report k u b).slots = s.slots := by unfold report; dsimp only; split_ifs <;> rfl
@[simp] theorem report_merge (s : State) (k : Nat) (u : Bool) (b : List Byte) : (s.report k u b).merge = s.merge := by unfold report; dsimp only; split_ifs <;> rfl
@[simp] theorem report_outp (s : State) (k : Nat) (u : Bool) (b : List Byte) : (s.report k u b).outp = s.outp := by unfold report; dsimp only; split_ifs <;> rfl
@[simp] theorem report_cas (s : State) (k : Nat) (u : Bool) (b : List Byte) : (s.report k u b).cas = s.cas := by unfold report; dsimp only; split_ifs <;> rfl
@[simp] theorem report_inputs (s : State) (k : Nat) (u : Bool) (b : List Byte) : (s.report k u b).inputs = s.inputs := by unfold report; dsimp only; split_ifs <;> rfl
@[simp] theorem report_sup (s : State) (k : Nat) (u : Bool) (b : List Byte) : (s.report k u b).sup = s.sup := by unfold report; dsimp only; split_ifs <;> rfl
@[simp] theorem report_free (s : State) (k : Nat) (u : Bool) (b : List Byte) : (s.report k u b).free = s.free := by unfold report; dsimp only; split_ifs <;> rfl
@[simp] theorem report_wire (s : State) (k : Nat) (u : Bool) (b : List Byte) : (s.report k u b).wire = s.wire := by unfold report; dsimp only; split_ifs <;> rfl
@[simp] theorem report_pending (s : State) (k : Nat) (u : Bool) (b : List Byte) : (s.report k u b).pending = s.pending := by unfold report; dsimp only; split_ifs <;> rfl

@[simp] theorem raise_store (s : State) (f : EngineFault) : (s.raise f).store = s.store := by unfold raise; split_ifs <;> rfl
@[simp] theorem raise_ctl (s : State) (f : EngineFault) : (s.raise f).ctl = s.ctl := by unfold raise; split_ifs <;> rfl
@[simp] theorem raise_con (s : State) (f : EngineFault) : (s.raise f).con = s.con := by unfold raise; split_ifs <;> rfl
@[simp] theorem raise_aux (s : State) (f : EngineFault) : (s.raise f).aux = s.aux := by unfold raise; split_ifs <;> rfl
@[simp] theorem raise_link (s : State) (f : EngineFault) : (s.raise f).link = s.link := by unfold raise; split_ifs <;> rfl
@[simp] theorem raise_bank (s : State) (f : EngineFault) : (s.raise f).bank = s.bank := by unfold raise; split_ifs <;> rfl
@[simp] theorem raise_patch (s : State) (f : EngineFault) : (s.raise f).patch = s.patch := by unfold raise; split_ifs <;> rfl
@[simp] theorem raise_eng (s : State) (f : EngineFault) : (s.raise f).eng = s.eng := by unfold raise; split_ifs <;> rfl
@[simp] theorem raise_slots (s : State) (f : EngineFault) : (s.raise f).slots = s.slots := by unfold raise; split_ifs <;> rfl
@[simp] theorem raise_merge (s : State) (f : EngineFault) : (s.raise f).merge = s.merge := by unfold raise; split_ifs <;> rfl
@[simp] theorem raise_outp (s : State) (f : EngineFault) : (s.raise f).outp = s.outp := by unfold raise; split_ifs <;> rfl
@[simp] theorem raise_cas (s : State) (f : EngineFault) : (s.raise f).cas = s.cas := by unfold raise; split_ifs <;> rfl
@[simp] theorem raise_inputs (s : State) (f : EngineFault) : (s.raise f).inputs = s.inputs := by unfold raise; split_ifs <;> rfl
@[simp] theorem raise_free (s : State) (f : EngineFault) : (s.raise f).free = s.free := by unfold raise; split_ifs <;> rfl
@[simp] theorem raise_wire (s : State) (f : EngineFault) : (s.raise f).wire = s.wire := by unfold raise; split_ifs <;> rfl
@[simp] theorem raise_pending (s : State) (f : EngineFault) : (s.raise f).pending = s.pending := by unfold raise; split_ifs <;> rfl

@[simp] theorem startReply_store (s : State) (p : PortId) : (s.startReply p).store = s.store := by unfold startReply; split <;> simp
@[simp] theorem startReply_ctl (s : State) (p : PortId) : (s.startReply p).ctl = s.ctl := by unfold startReply; split <;> simp
@[simp] theorem startReply_link (s : State) (p : PortId) : (s.startReply p).link = s.link := by unfold startReply; split <;> simp
@[simp] theorem startReply_bank (s : State) (p : PortId) : (s.startReply p).bank = s.bank := by unfold startReply; split <;> simp
@[simp] theorem startReply_patch (s : State) (p : PortId) : (s.startReply p).patch = s.patch := by unfold startReply; split <;> simp
@[simp] theorem startReply_eng (s : State) (p : PortId) : (s.startReply p).eng = s.eng := by unfold startReply; split <;> simp
@[simp] theorem startReply_slots (s : State) (p : PortId) : (s.startReply p).slots = s.slots := by unfold startReply; split <;> simp
@[simp] theorem startReply_merge (s : State) (p : PortId) : (s.startReply p).merge = s.merge := by unfold startReply; split <;> simp
@[simp] theorem startReply_outp (s : State) (p : PortId) : (s.startReply p).outp = s.outp := by unfold startReply; split <;> simp
@[simp] theorem startReply_cas (s : State) (p : PortId) : (s.startReply p).cas = s.cas := by unfold startReply; split <;> simp
@[simp] theorem startReply_inputs (s : State) (p : PortId) : (s.startReply p).inputs = s.inputs := by unfold startReply; split <;> simp
@[simp] theorem startReply_sup (s : State) (p : PortId) : (s.startReply p).sup = s.sup := by unfold startReply; split <;> simp
@[simp] theorem startReply_free (s : State) (p : PortId) : (s.startReply p).free = s.free := by unfold startReply; split <;> simp
@[simp] theorem startReply_wire (s : State) (p : PortId) : (s.startReply p).wire = s.wire := by unfold startReply; split <;> simp
@[simp] theorem startReply_pending (s : State) (p : PortId) : (s.startReply p).pending = s.pending := by unfold startReply; split <;> simp

@[simp] theorem startReport_store (s : State)  : (s.startReport).store = s.store := by unfold startReport; split <;> rfl
@[simp] theorem startReport_ctl (s : State)  : (s.startReport).ctl = s.ctl := by unfold startReport; split <;> rfl
@[simp] theorem startReport_bank (s : State)  : (s.startReport).bank = s.bank := by unfold startReport; split <;> rfl
@[simp] theorem startReport_patch (s : State)  : (s.startReport).patch = s.patch := by unfold startReport; split <;> rfl
@[simp] theorem startReport_eng (s : State)  : (s.startReport).eng = s.eng := by unfold startReport; split <;> rfl
@[simp] theorem startReport_slots (s : State)  : (s.startReport).slots = s.slots := by unfold startReport; split <;> rfl
@[simp] theorem startReport_merge (s : State)  : (s.startReport).merge = s.merge := by unfold startReport; split <;> rfl
@[simp] theorem startReport_outp (s : State)  : (s.startReport).outp = s.outp := by unfold startReport; split <;> rfl
@[simp] theorem startReport_cas (s : State)  : (s.startReport).cas = s.cas := by unfold startReport; split <;> rfl
@[simp] theorem startReport_inputs (s : State)  : (s.startReport).inputs = s.inputs := by unfold startReport; split <;> rfl
@[simp] theorem startReport_sup (s : State)  : (s.startReport).sup = s.sup := by unfold startReport; split <;> rfl
@[simp] theorem startReport_free (s : State)  : (s.startReport).free = s.free := by unfold startReport; split <;> rfl
@[simp] theorem startReport_wire (s : State)  : (s.startReport).wire = s.wire := by unfold startReport; split <;> rfl
@[simp] theorem startReport_pending (s : State)  : (s.startReport).pending = s.pending := by unfold startReport; split <;> rfl

@[simp] theorem pump_store (s : State)  : (s.pump).store = s.store := by simp [pump, startReplies]
@[simp] theorem pump_ctl (s : State)  : (s.pump).ctl = s.ctl := by simp [pump, startReplies]
@[simp] theorem pump_bank (s : State)  : (s.pump).bank = s.bank := by simp [pump, startReplies]
@[simp] theorem pump_patch (s : State)  : (s.pump).patch = s.patch := by simp [pump, startReplies]
@[simp] theorem pump_eng (s : State)  : (s.pump).eng = s.eng := by simp [pump, startReplies]
@[simp] theorem pump_slots (s : State)  : (s.pump).slots = s.slots := by simp [pump, startReplies]
@[simp] theorem pump_merge (s : State)  : (s.pump).merge = s.merge := by simp [pump, startReplies]
@[simp] theorem pump_outp (s : State)  : (s.pump).outp = s.outp := by simp [pump, startReplies]
@[simp] theorem pump_cas (s : State)  : (s.pump).cas = s.cas := by simp [pump, startReplies]
@[simp] theorem pump_inputs (s : State)  : (s.pump).inputs = s.inputs := by simp [pump, startReplies]
@[simp] theorem pump_sup (s : State)  : (s.pump).sup = s.sup := by simp [pump, startReplies]
@[simp] theorem pump_free (s : State)  : (s.pump).free = s.free := by simp [pump, startReplies]
@[simp] theorem pump_wire (s : State)  : (s.pump).wire = s.wire := by simp [pump, startReplies]
@[simp] theorem pump_pending (s : State)  : (s.pump).pending = s.pending := by simp [pump, startReplies]


/-! ### Everything inside the ports and the report queue -/

@[simp] theorem inside_setPort (s : State) (p : PortId) (x : Port) : (s.setPort p x).inside = s.inside := by cases p <;> rfl

@[simp] theorem inside_answer (s : State) (q : Requester) (st : Status) (b : List Byte) :
    (s.answer q st b).inside = s.inside := inside_setPort _ _ _

@[simp] theorem inside_takeOff (s : State) (p : PortId) (rest : List Request) : (s.takeOff p rest).inside = s.inside :=
  inside_setPort _ _ _

@[simp] theorem inside_startReply (s : State) (p : PortId) : (s.startReply p).inside = s.inside := by
  unfold startReply; split <;> simp

@[simp] theorem inside_startReport (s : State) : s.startReport.inside = s.inside := by
  unfold startReport; split <;> rfl

@[simp] theorem inside_pump (s : State) : s.pump.inside = s.inside := by simp [pump, startReplies]

@[simp] theorem inside_report (s : State) (k : Nat) (u : Bool) (b : List Byte) : (s.report k u b).inside = s.inside := by
  unfold report; dsimp only; split_ifs <;> rfl

/-! ### The ports -/

@[simp] theorem port_report (s : State) (k : Nat) (u : Bool) (b : List Byte) (p : PortId) :
    (s.report k u b).port p = s.port p := by cases p <;> simp [port]

@[simp] theorem port_raise (s : State) (f : EngineFault) (p : PortId) : (s.raise f).port p = s.port p := by
  cases p <;> simp [port]

/-- Starting a frame keeps what a port has to send, and everything but its transmitter and reply queue. -/
theorem startReply_port (s : State) (p q : PortId) :
    ((s.startReply p).port q).outgoing = (s.port q).outgoing ∧ ((s.startReply p).port q).requests = (s.port q).requests
      ∧ ((s.startReply p).port q).owed = (s.port q).owed ∧ ((s.startReply p).port q).builder = (s.port q).builder
      ∧ ((s.startReply p).port q).errors = (s.port q).errors
      ∧ ((s.startReply p).port q).receiver = (s.port q).receiver := by
  unfold startReply
  split
  · rename_i h1 h2
    cases p <;> cases q <;> simp_all [port, setPort, Port.outgoing]
  · simp

theorem startReport_port (s : State) (q : PortId) :
    (s.startReport.port q).outgoing = (s.port q).outgoing ∧ (s.startReport.port q).requests = (s.port q).requests
      ∧ (s.startReport.port q).owed = (s.port q).owed ∧ (s.startReport.port q).builder = (s.port q).builder
      ∧ (s.startReport.port q).errors = (s.port q).errors ∧ (s.startReport.port q).receiver = (s.port q).receiver := by
  unfold startReport
  split
  · rename_i h1 h2 h3
    cases q <;> simp_all [port, Port.outgoing]
  · simp

theorem pump_port (s : State) (q : PortId) :
    (s.pump.port q).outgoing = (s.port q).outgoing ∧ (s.pump.port q).requests = (s.port q).requests
      ∧ (s.pump.port q).owed = (s.port q).owed ∧ (s.pump.port q).builder = (s.port q).builder
      ∧ (s.pump.port q).errors = (s.port q).errors ∧ (s.pump.port q).receiver = (s.port q).receiver := by
  have h1 := startReport_port s.startReplies q
  have h2 := startReply_port (s.startReply .console) .aux q
  have h3 := startReply_port s .console q
  unfold pump
  unfold startReplies at *
  simp_all

@[simp] theorem pump_outgoing (s : State) (q : PortId) : (s.pump.port q).outgoing = (s.port q).outgoing := (pump_port s q).1
@[simp] theorem pump_requests (s : State) (q : PortId) : (s.pump.port q).requests = (s.port q).requests := (pump_port s q).2.1
@[simp] theorem pump_owed (s : State) (q : PortId) : (s.pump.port q).owed = (s.port q).owed := (pump_port s q).2.2.1
@[simp] theorem pump_builder (s : State) (q : PortId) : (s.pump.port q).builder = (s.port q).builder :=
  (pump_port s q).2.2.2.1
@[simp] theorem pump_errors (s : State) (q : PortId) : (s.pump.port q).errors = (s.port q).errors :=
  (pump_port s q).2.2.2.2.1
@[simp] theorem pump_receiver (s : State) (q : PortId) : (s.pump.port q).receiver = (s.port q).receiver :=
  (pump_port s q).2.2.2.2.2

/-- A reply appended to what a port has to send; the other port is left alone (R168). -/
theorem answer_port (s : State) (p : PortId) (r : Request) (st : Status) (b : List Byte) :
    (s.answer (requesterOf p r) st b).port p =
      { s.port p with replies := (s.port p).replies ++ [replyTo r st b] } ∧
    (s.answer (requesterOf p r) st b).port (otherPort p) = s.port (otherPort p) := by
  cases p <;> exact ⟨rfl, rfl⟩

theorem outgoing_append (x : Port) (l : List Reply) :
    Port.outgoing { x with replies := x.replies ++ l } = x.outgoing ++ l := by
  unfold Port.outgoing
  split <;> rename_i h <;> simp_all

theorem takeOff_port (s : State) (p : PortId) (rest : List Request) :
    (s.takeOff p rest).port p = { s.port p with requests := rest, owed := (s.port p).owed + 1 } ∧
    (s.takeOff p rest).port (otherPort p) = s.port (otherPort p) := by
  cases p <;> exact ⟨rfl, rfl⟩

/-- A request taken off its queue, worked on without touching the ports, and answered. -/
theorem answered_of (s t : State) (p : PortId) (r : Request) (rest : List Request) (st : Status) (b : List Byte)
    (h1 : t.port p = (s.takeOff p rest).port p) (h2 : t.port (otherPort p) = s.port (otherPort p)) :
    s.Answered (t.answer (requesterOf p r) st b).pump p rest [replyTo r st b] := by
  have h := answer_port t p r st b
  have h3 := (takeOff_port s p rest).1
  unfold Answered
  simp only [pump_outgoing, pump_requests, pump_owed, pump_builder, pump_errors, pump_receiver, h.1, h.2, h1, h2, h3]
  exact ⟨trivial, trivial,
    outgoing_append { s.port p with requests := rest, owed := (s.port p).owed + 1 } [replyTo r st b], trivial, trivial,
    trivial, trivial, trivial, trivial, trivial, trivial, trivial⟩

/-- A request taken off its queue and worked on without touching the ports, its reply owed. -/
theorem answered_none (s t : State) (p : PortId) (rest : List Request)
    (h1 : t.port p = (s.takeOff p rest).port p) (h2 : t.port (otherPort p) = s.port (otherPort p)) :
    s.Answered t.pump p rest [] := by
  have h3 := (takeOff_port s p rest).1
  unfold Answered
  simp only [pump_outgoing, pump_requests, pump_owed, pump_builder, pump_errors, pump_receiver, h1, h2, h3]
  simp [Port.outgoing]

/-- The transmitters produce no report. -/
theorem keepsReports_pump (s t : State) (h1 : t.link.reports = s.link.reports) (h2 : t.link.lost = s.link.lost) :
    s.KeepsReports t.pump := by
  unfold KeepsReports pump startReport
  split
  · rename_i r h3 h4 h5
    right
    simp only [startReplies, startReply_link] at *
    exact ⟨r, by rw [← h1]; exact h5, by rw [← h2], by rw [← h1], trivial⟩
  · left; simp [startReplies, h1, h2]

/-! ### The taking of a request -/

theorem takes_head {s : State} {p : PortId} {code : Nat} {r : Request} {rest : List Request} (h : s.Takes p code r rest) :
    s.headRequest p = some (r, rest) := by
  obtain ⟨h1, -, h3, -, -⟩ := h
  simp [headRequest, h1, Config.owedReplies, h3]

/-- The first three general checks pass a request of a group the port may use (R169). -/
theorem gate_of (s : State) (p : PortId) (code : Nat) (g : Group) (h : Bool) (hu : s.MayUse p g)
    (hk : kindInfo code = some (g, h)) (hh : h = true ∨ s.sup.halted = false) : s.gate p code = none := by
  obtain ⟨h1, h2⟩ := hu
  have hp : permitted p s.link.mask code = true := by
    cases p
    · rfl
    · simp only [reduceCtorEq, false_or] at h1
      simp [permitted, hk, h1]
  have ht : takenHalted code = h := by simp [takenHalted, hk]
  rcases hh with hh | hh <;> simp [gate, hp, h2, ht, hh]

/-- The request at the head is taken: its group may be used, its kind is taken in the engine's state, it waits for nothing. -/
theorem takes_of {s : State} {p : PortId} {code : Nat} {r : Request} {rest : List Request} (g : Group) (h : Bool)
    (hd : s.Head p code r rest) (hu : s.MayUse p g) (hk : kindInfo code = some (g, h))
    (hh : h = true ∨ s.sup.halted = false) (hw : s.mustWait code = false) : s.Takes p code r rest :=
  ⟨hd.1, hd.2.1, hd.2.2, gate_of s p code g h hu hk hh, hw⟩

/-- A request that passes the general checks is handed to the work of its rule. -/
theorem takeRequest_takes {β : Type} {s : State} {p : PortId} {code : Nat} {r : Request} {rest : List Request}
    {parse : List Byte → Except Status β} {work : State → Requester → β → State} {v : β} (hc : code < 256)
    (h : s.Takes p code r rest) (hp : parse r.body = .ok v) :
    s.takeRequest p code parse work = (work (s.takeOff p rest) (requesterOf p r) v).pump := by
  have hh := takes_head h
  obtain ⟨-, h2, -, h4, h5⟩ := h
  have hk : r.kind.toNat = code := by simp [h2, BitVec.toNat_ofNat, Nat.mod_eq_of_lt hc]
  simp [takeRequest, hh, hk, h4, hp, h5, requesterOf]

/-- A request whose body fails its checks is answered with their status. -/
theorem takeRequest_bad {β : Type} {s : State} {p : PortId} {code : Nat} {r : Request} {rest : List Request}
    {parse : List Byte → Except Status β} {work : State → Requester → β → State} {st : Status} (hc : code < 256)
    (h : s.Takes p code r rest) (hp : parse r.body = .error st) :
    s.takeRequest p code parse work = ((s.takeOff p rest).answer (requesterOf p r) st []).pump := by
  have hh := takes_head h
  obtain ⟨-, h2, -, h4, -⟩ := h
  have hk : r.kind.toNat = code := by simp [h2, BitVec.toNat_ofNat, Nat.mod_eq_of_lt hc]
  simp [takeRequest, hh, hk, h4, hp, requesterOf]

/-- Everything a request can do: nothing, a refusal, or the work of its rule. -/
theorem takeRequest_cases {β : Type} (s : State) (p : PortId) (code : Nat) (parse : List Byte → Except Status β)
    (work : State → Requester → β → State) :
    s.takeRequest p code parse work = s
      ∨ (∃ r rest st, s.headRequest p = some (r, rest)
          ∧ s.takeRequest p code parse work = ((s.takeOff p rest).answer (requesterOf p r) st []).pump)
      ∨ ∃ r rest v, s.headRequest p = some (r, rest) ∧ parse r.body = .ok v
          ∧ s.takeRequest p code parse work = (work (s.takeOff p rest) (requesterOf p r) v).pump := by
  unfold takeRequest
  cases hh : s.headRequest p with
  | none => exact .inl rfl
  | some x =>
    obtain ⟨r, rest⟩ := x
    dsimp only
    by_cases hk : r.kind.toNat = code
    · rw [if_neg (not_not_intro hk)]
      cases hg : s.gate p code with
      | some st => exact .inr (.inl ⟨r, rest, st, rfl, rfl⟩)
      | none =>
        dsimp only
        cases hp : parse r.body with
        | error st => exact .inr (.inl ⟨r, rest, st, rfl, rfl⟩)
        | ok v =>
          dsimp only
          by_cases hw : s.mustWait code = true
          · rw [if_pos hw]; exact .inl rfl
          · rw [if_neg hw]; exact .inr (.inr ⟨r, rest, v, rfl, hp, rfl⟩)
    · rw [if_pos hk]; exact .inl rfl

end State

end Sys2Proof.Machine
end

