-- ==== Sys2Proof/Laws/Frames.lean ====
section
/-! SUPPORT. What the compound operations leave alone: one lemma for each field of the state an operation does not touch. -/

namespace Sys2Proof.Machine.State

@[simp] theorem endHeadWrite_store (s : State) (st : Status) (b : List Byte) : (s.endHeadWrite st b).store = s.store := by unfold endHeadWrite; (try dsimp only); (repeat' split) <;> simp
@[simp] theorem endHeadWrite_link (s : State) (st : Status) (b : List Byte) : (s.endHeadWrite st b).link = s.link := by unfold endHeadWrite; (try dsimp only); (repeat' split) <;> simp
@[simp] theorem endHeadWrite_bank (s : State) (st : Status) (b : List Byte) : (s.endHeadWrite st b).bank = s.bank := by unfold endHeadWrite; (try dsimp only); (repeat' split) <;> simp
@[simp] theorem endHeadWrite_patch (s : State) (st : Status) (b : List Byte) : (s.endHeadWrite st b).patch = s.patch := by unfold endHeadWrite; (try dsimp only); (repeat' split) <;> simp
@[simp] theorem endHeadWrite_eng (s : State) (st : Status) (b : List Byte) : (s.endHeadWrite st b).eng = s.eng := by unfold endHeadWrite; (try dsimp only); (repeat' split) <;> simp
@[simp] theorem endHeadWrite_slots (s : State) (st : Status) (b : List Byte) : (s.endHeadWrite st b).slots = s.slots := by unfold endHeadWrite; (try dsimp only); (repeat' split) <;> simp
@[simp] theorem endHeadWrite_merge (s : State) (st : Status) (b : List Byte) : (s.endHeadWrite st b).merge = s.merge := by unfold endHeadWrite; (try dsimp only); (repeat' split) <;> simp
@[simp] theorem endHeadWrite_outp (s : State) (st : Status) (b : List Byte) : (s.endHeadWrite st b).outp = s.outp := by unfold endHeadWrite; (try dsimp only); (repeat' split) <;> simp
@[simp] theorem endHeadWrite_cas (s : State) (st : Status) (b : List Byte) : (s.endHeadWrite st b).cas = s.cas := by unfold endHeadWrite; (try dsimp only); (repeat' split) <;> simp
@[simp] theorem endHeadWrite_inputs (s : State) (st : Status) (b : List Byte) : (s.endHeadWrite st b).inputs = s.inputs := by unfold endHeadWrite; (try dsimp only); (repeat' split) <;> simp
@[simp] theorem endHeadWrite_sup (s : State) (st : Status) (b : List Byte) : (s.endHeadWrite st b).sup = s.sup := by unfold endHeadWrite; (try dsimp only); (repeat' split) <;> simp
@[simp] theorem endHeadWrite_free (s : State) (st : Status) (b : List Byte) : (s.endHeadWrite st b).free = s.free := by unfold endHeadWrite; (try dsimp only); (repeat' split) <;> simp
@[simp] theorem endHeadWrite_wire (s : State) (st : Status) (b : List Byte) : (s.endHeadWrite st b).wire = s.wire := by unfold endHeadWrite; (try dsimp only); (repeat' split) <;> simp
@[simp] theorem endHeadWrite_pending (s : State) (st : Status) (b : List Byte) : (s.endHeadWrite st b).pending = s.pending := by unfold endHeadWrite; (try dsimp only); (repeat' split) <;> simp

@[simp] theorem grantWrite_store (n : Nat) (s : State) : (grantWrite n s).store = s.store := by
  induction n generalizing s with
  | zero => rfl
  | succ n ih => unfold grantWrite; (repeat' split) <;> simp [ih]
@[simp] theorem grantWrite_link (n : Nat) (s : State) : (grantWrite n s).link = s.link := by
  induction n generalizing s with
  | zero => rfl
  | succ n ih => unfold grantWrite; (repeat' split) <;> simp [ih]
@[simp] theorem grantWrite_bank (n : Nat) (s : State) : (grantWrite n s).bank = s.bank := by
  induction n generalizing s with
  | zero => rfl
  | succ n ih => unfold grantWrite; (repeat' split) <;> simp [ih]
@[simp] theorem grantWrite_patch (n : Nat) (s : State) : (grantWrite n s).patch = s.patch := by
  induction n generalizing s with
  | zero => rfl
  | succ n ih => unfold grantWrite; (repeat' split) <;> simp [ih]
@[simp] theorem grantWrite_eng (n : Nat) (s : State) : (grantWrite n s).eng = s.eng := by
  induction n generalizing s with
  | zero => rfl
  | succ n ih => unfold grantWrite; (repeat' split) <;> simp [ih]
@[simp] theorem grantWrite_slots (n : Nat) (s : State) : (grantWrite n s).slots = s.slots := by
  induction n generalizing s with
  | zero => rfl
  | succ n ih => unfold grantWrite; (repeat' split) <;> simp [ih]
@[simp] theorem grantWrite_merge (n : Nat) (s : State) : (grantWrite n s).merge = s.merge := by
  induction n generalizing s with
  | zero => rfl
  | succ n ih => unfold grantWrite; (repeat' split) <;> simp [ih]
@[simp] theorem grantWrite_outp (n : Nat) (s : State) : (grantWrite n s).outp = s.outp := by
  induction n generalizing s with
  | zero => rfl
  | succ n ih => unfold grantWrite; (repeat' split) <;> simp [ih]
@[simp] theorem grantWrite_cas (n : Nat) (s : State) : (grantWrite n s).cas = s.cas := by
  induction n generalizing s with
  | zero => rfl
  | succ n ih => unfold grantWrite; (repeat' split) <;> simp [ih]
@[simp] theorem grantWrite_inputs (n : Nat) (s : State) : (grantWrite n s).inputs = s.inputs := by
  induction n generalizing s with
  | zero => rfl
  | succ n ih => unfold grantWrite; (repeat' split) <;> simp [ih]
@[simp] theorem grantWrite_sup (n : Nat) (s : State) : (grantWrite n s).sup = s.sup := by
  induction n generalizing s with
  | zero => rfl
  | succ n ih => unfold grantWrite; (repeat' split) <;> simp [ih]
@[simp] theorem grantWrite_free (n : Nat) (s : State) : (grantWrite n s).free = s.free := by
  induction n generalizing s with
  | zero => rfl
  | succ n ih => unfold grantWrite; (repeat' split) <;> simp [ih]
@[simp] theorem grantWrite_wire (n : Nat) (s : State) : (grantWrite n s).wire = s.wire := by
  induction n generalizing s with
  | zero => rfl
  | succ n ih => unfold grantWrite; (repeat' split) <;> simp [ih]
@[simp] theorem grantWrite_pending (n : Nat) (s : State) : (grantWrite n s).pending = s.pending := by
  induction n generalizing s with
  | zero => rfl
  | succ n ih => unfold grantWrite; (repeat' split) <;> simp [ih]

@[simp] theorem arbitrate_store (s : State) : (s.arbitrate).store = s.store := by unfold arbitrate; (try dsimp only); (repeat' split) <;> simp
@[simp] theorem arbitrate_link (s : State) : (s.arbitrate).link = s.link := by unfold arbitrate; (try dsimp only); (repeat' split) <;> simp
@[simp] theorem arbitrate_bank (s : State) : (s.arbitrate).bank = s.bank := by unfold arbitrate; (try dsimp only); (repeat' split) <;> simp
@[simp] theorem arbitrate_patch (s : State) : (s.arbitrate).patch = s.patch := by unfold arbitrate; (try dsimp only); (repeat' split) <;> simp
@[simp] theorem arbitrate_eng (s : State) : (s.arbitrate).eng = s.eng := by unfold arbitrate; (try dsimp only); (repeat' split) <;> simp
@[simp] theorem arbitrate_slots (s : State) : (s.arbitrate).slots = s.slots := by unfold arbitrate; (try dsimp only); (repeat' split) <;> simp
@[simp] theorem arbitrate_merge (s : State) : (s.arbitrate).merge = s.merge := by unfold arbitrate; (try dsimp only); (repeat' split) <;> simp
@[simp] theorem arbitrate_outp (s : State) : (s.arbitrate).outp = s.outp := by unfold arbitrate; (try dsimp only); (repeat' split) <;> simp
@[simp] theorem arbitrate_cas (s : State) : (s.arbitrate).cas = s.cas := by unfold arbitrate; (try dsimp only); (repeat' split) <;> simp
@[simp] theorem arbitrate_inputs (s : State) : (s.arbitrate).inputs = s.inputs := by unfold arbitrate; (try dsimp only); (repeat' split) <;> simp
@[simp] theorem arbitrate_sup (s : State) : (s.arbitrate).sup = s.sup := by unfold arbitrate; (try dsimp only); (repeat' split) <;> simp
@[simp] theorem arbitrate_free (s : State) : (s.arbitrate).free = s.free := by unfold arbitrate; (try dsimp only); (repeat' split) <;> simp
@[simp] theorem arbitrate_wire (s : State) : (s.arbitrate).wire = s.wire := by unfold arbitrate; (try dsimp only); (repeat' split) <;> simp
@[simp] theorem arbitrate_pending (s : State) : (s.arbitrate).pending = s.pending := by unfold arbitrate; (try dsimp only); (repeat' split) <;> simp

@[simp] theorem settle_store (s : State) : (s.settle).store = s.store := by simp [settle]
@[simp] theorem settle_bank (s : State) : (s.settle).bank = s.bank := by simp [settle]
@[simp] theorem settle_patch (s : State) : (s.settle).patch = s.patch := by simp [settle]
@[simp] theorem settle_eng (s : State) : (s.settle).eng = s.eng := by simp [settle]
@[simp] theorem settle_slots (s : State) : (s.settle).slots = s.slots := by simp [settle]
@[simp] theorem settle_merge (s : State) : (s.settle).merge = s.merge := by simp [settle]
@[simp] theorem settle_outp (s : State) : (s.settle).outp = s.outp := by simp [settle]
@[simp] theorem settle_cas (s : State) : (s.settle).cas = s.cas := by simp [settle]
@[simp] theorem settle_inputs (s : State) : (s.settle).inputs = s.inputs := by simp [settle]
@[simp] theorem settle_sup (s : State) : (s.settle).sup = s.sup := by simp [settle]
@[simp] theorem settle_free (s : State) : (s.settle).free = s.free := by simp [settle]
@[simp] theorem settle_wire (s : State) : (s.settle).wire = s.wire := by simp [settle]
@[simp] theorem settle_pending (s : State) : (s.settle).pending = s.pending := by simp [settle]

@[simp] theorem projectAnew_store (s : State) (b : Bank) : (s.projectAnew b).store = s.store := by rfl
@[simp] theorem projectAnew_con (s : State) (b : Bank) : (s.projectAnew b).con = s.con := by rfl
@[simp] theorem projectAnew_aux (s : State) (b : Bank) : (s.projectAnew b).aux = s.aux := by rfl
@[simp] theorem projectAnew_link (s : State) (b : Bank) : (s.projectAnew b).link = s.link := by rfl
@[simp] theorem projectAnew_bank (s : State) (b : Bank) : (s.projectAnew b).bank = s.bank := by rfl
@[simp] theorem projectAnew_patch (s : State) (b : Bank) : (s.projectAnew b).patch = s.patch := by rfl
@[simp] theorem projectAnew_eng (s : State) (b : Bank) : (s.projectAnew b).eng = s.eng := by rfl
@[simp] theorem projectAnew_slots (s : State) (b : Bank) : (s.projectAnew b).slots = s.slots := by rfl
@[simp] theorem projectAnew_merge (s : State) (b : Bank) : (s.projectAnew b).merge = s.merge := by rfl
@[simp] theorem projectAnew_outp (s : State) (b : Bank) : (s.projectAnew b).outp = s.outp := by rfl
@[simp] theorem projectAnew_cas (s : State) (b : Bank) : (s.projectAnew b).cas = s.cas := by rfl
@[simp] theorem projectAnew_inputs (s : State) (b : Bank) : (s.projectAnew b).inputs = s.inputs := by rfl
@[simp] theorem projectAnew_sup (s : State) (b : Bank) : (s.projectAnew b).sup = s.sup := by rfl
@[simp] theorem projectAnew_free (s : State) (b : Bank) : (s.projectAnew b).free = s.free := by rfl
@[simp] theorem projectAnew_wire (s : State) (b : Bank) : (s.projectAnew b).wire = s.wire := by rfl
@[simp] theorem projectAnew_pending (s : State) (b : Bank) : (s.projectAnew b).pending = s.pending := by rfl

@[simp] theorem enqueue_store (s : State) (w : WriteEntry) : (s.enqueue w).store = s.store := by unfold enqueue; dsimp only; split <;> rfl
@[simp] theorem enqueue_con (s : State) (w : WriteEntry) : (s.enqueue w).con = s.con := by unfold enqueue; dsimp only; split <;> rfl
@[simp] theorem enqueue_aux (s : State) (w : WriteEntry) : (s.enqueue w).aux = s.aux := by unfold enqueue; dsimp only; split <;> rfl
@[simp] theorem enqueue_link (s : State) (w : WriteEntry) : (s.enqueue w).link = s.link := by unfold enqueue; dsimp only; split <;> rfl
@[simp] theorem enqueue_bank (s : State) (w : WriteEntry) : (s.enqueue w).bank = s.bank := by unfold enqueue; dsimp only; split <;> rfl
@[simp] theorem enqueue_patch (s : State) (w : WriteEntry) : (s.enqueue w).patch = s.patch := by unfold enqueue; dsimp only; split <;> rfl
@[simp] theorem enqueue_eng (s : State) (w : WriteEntry) : (s.enqueue w).eng = s.eng := by unfold enqueue; dsimp only; split <;> rfl
@[simp] theorem enqueue_slots (s : State) (w : WriteEntry) : (s.enqueue w).slots = s.slots := by unfold enqueue; dsimp only; split <;> rfl
@[simp] theorem enqueue_merge (s : State) (w : WriteEntry) : (s.enqueue w).merge = s.merge := by unfold enqueue; dsimp only; split <;> rfl
@[simp] theorem enqueue_outp (s : State) (w : WriteEntry) : (s.enqueue w).outp = s.outp := by unfold enqueue; dsimp only; split <;> rfl
@[simp] theorem enqueue_cas (s : State) (w : WriteEntry) : (s.enqueue w).cas = s.cas := by unfold enqueue; dsimp only; split <;> rfl
@[simp] theorem enqueue_inputs (s : State) (w : WriteEntry) : (s.enqueue w).inputs = s.inputs := by unfold enqueue; dsimp only; split <;> rfl
@[simp] theorem enqueue_sup (s : State) (w : WriteEntry) : (s.enqueue w).sup = s.sup := by unfold enqueue; dsimp only; split <;> rfl
@[simp] theorem enqueue_free (s : State) (w : WriteEntry) : (s.enqueue w).free = s.free := by unfold enqueue; dsimp only; split <;> rfl
@[simp] theorem enqueue_wire (s : State) (w : WriteEntry) : (s.enqueue w).wire = s.wire := by unfold enqueue; dsimp only; split <;> rfl
@[simp] theorem enqueue_pending (s : State) (w : WriteEntry) : (s.enqueue w).pending = s.pending := by unfold enqueue; dsimp only; split <;> rfl

@[simp] theorem inputResult_store (s : State) (i : Fin 4) (p : PbId) (a : InputCommand) (r : InputResult) (n : Nat) : (s.inputResult i p a r n).store = s.store := by unfold inputResult; (try dsimp only); (repeat' split) <;> simp
@[simp] theorem inputResult_ctl (s : State) (i : Fin 4) (p : PbId) (a : InputCommand) (r : InputResult) (n : Nat) : (s.inputResult i p a r n).ctl = s.ctl := by unfold inputResult; (try dsimp only); (repeat' split) <;> simp
@[simp] theorem inputResult_con (s : State) (i : Fin 4) (p : PbId) (a : InputCommand) (r : InputResult) (n : Nat) : (s.inputResult i p a r n).con = s.con := by unfold inputResult; (try dsimp only); (repeat' split) <;> simp
@[simp] theorem inputResult_aux (s : State) (i : Fin 4) (p : PbId) (a : InputCommand) (r : InputResult) (n : Nat) : (s.inputResult i p a r n).aux = s.aux := by unfold inputResult; (try dsimp only); (repeat' split) <;> simp
@[simp] theorem inputResult_bank (s : State) (i : Fin 4) (p : PbId) (a : InputCommand) (r : InputResult) (n : Nat) : (s.inputResult i p a r n).bank = s.bank := by unfold inputResult; (try dsimp only); (repeat' split) <;> simp
@[simp] theorem inputResult_patch (s : State) (i : Fin 4) (p : PbId) (a : InputCommand) (r : InputResult) (n : Nat) : (s.inputResult i p a r n).patch = s.patch := by unfold inputResult; (try dsimp only); (repeat' split) <;> simp
@[simp] theorem inputResult_eng (s : State) (i : Fin 4) (p : PbId) (a : InputCommand) (r : InputResult) (n : Nat) : (s.inputResult i p a r n).eng = s.eng := by unfold inputResult; (try dsimp only); (repeat' split) <;> simp
@[simp] theorem inputResult_slots (s : State) (i : Fin 4) (p : PbId) (a : InputCommand) (r : InputResult) (n : Nat) : (s.inputResult i p a r n).slots = s.slots := by unfold inputResult; (try dsimp only); (repeat' split) <;> simp
@[simp] theorem inputResult_merge (s : State) (i : Fin 4) (p : PbId) (a : InputCommand) (r : InputResult) (n : Nat) : (s.inputResult i p a r n).merge = s.merge := by unfold inputResult; (try dsimp only); (repeat' split) <;> simp
@[simp] theorem inputResult_outp (s : State) (i : Fin 4) (p : PbId) (a : InputCommand) (r : InputResult) (n : Nat) : (s.inputResult i p a r n).outp = s.outp := by unfold inputResult; (try dsimp only); (repeat' split) <;> simp
@[simp] theorem inputResult_cas (s : State) (i : Fin 4) (p : PbId) (a : InputCommand) (r : InputResult) (n : Nat) : (s.inputResult i p a r n).cas = s.cas := by unfold inputResult; (try dsimp only); (repeat' split) <;> simp
@[simp] theorem inputResult_free (s : State) (i : Fin 4) (p : PbId) (a : InputCommand) (r : InputResult) (n : Nat) : (s.inputResult i p a r n).free = s.free := by unfold inputResult; (try dsimp only); (repeat' split) <;> simp
@[simp] theorem inputResult_wire (s : State) (i : Fin 4) (p : PbId) (a : InputCommand) (r : InputResult) (n : Nat) : (s.inputResult i p a r n).wire = s.wire := by unfold inputResult; (try dsimp only); (repeat' split) <;> simp
@[simp] theorem inputResult_pending (s : State) (i : Fin 4) (p : PbId) (a : InputCommand) (r : InputResult) (n : Nat) : (s.inputResult i p a r n).pending = s.pending := by unfold inputResult; (try dsimp only); (repeat' split) <;> simp

@[simp] theorem standbyChanged_store (s : State) (p : PbId) : (s.standbyChanged p).store = s.store := by simp [standbyChanged]
@[simp] theorem standbyChanged_ctl (s : State) (p : PbId) : (s.standbyChanged p).ctl = s.ctl := by simp [standbyChanged]
@[simp] theorem standbyChanged_con (s : State) (p : PbId) : (s.standbyChanged p).con = s.con := by simp [standbyChanged]
@[simp] theorem standbyChanged_aux (s : State) (p : PbId) : (s.standbyChanged p).aux = s.aux := by simp [standbyChanged]
@[simp] theorem standbyChanged_bank (s : State) (p : PbId) : (s.standbyChanged p).bank = s.bank := by simp [standbyChanged]
@[simp] theorem standbyChanged_patch (s : State) (p : PbId) : (s.standbyChanged p).patch = s.patch := by simp [standbyChanged]
@[simp] theorem standbyChanged_eng (s : State) (p : PbId) : (s.standbyChanged p).eng = s.eng := by simp [standbyChanged]
@[simp] theorem standbyChanged_slots (s : State) (p : PbId) : (s.standbyChanged p).slots = s.slots := by simp [standbyChanged]
@[simp] theorem standbyChanged_merge (s : State) (p : PbId) : (s.standbyChanged p).merge = s.merge := by simp [standbyChanged]
@[simp] theorem standbyChanged_outp (s : State) (p : PbId) : (s.standbyChanged p).outp = s.outp := by simp [standbyChanged]
@[simp] theorem standbyChanged_cas (s : State) (p : PbId) : (s.standbyChanged p).cas = s.cas := by simp [standbyChanged]
@[simp] theorem standbyChanged_inputs (s : State) (p : PbId) : (s.standbyChanged p).inputs = s.inputs := by simp [standbyChanged]
@[simp] theorem standbyChanged_sup (s : State) (p : PbId) : (s.standbyChanged p).sup = s.sup := by simp [standbyChanged]
@[simp] theorem standbyChanged_free (s : State) (p : PbId) : (s.standbyChanged p).free = s.free := by simp [standbyChanged]
@[simp] theorem standbyChanged_wire (s : State) (p : PbId) : (s.standbyChanged p).wire = s.wire := by simp [standbyChanged]
@[simp] theorem standbyChanged_pending (s : State) (p : PbId) : (s.standbyChanged p).pending = s.pending := by simp [standbyChanged]

@[simp] theorem endAtOnce_store (s : State) (p : PbId) (x y : Standby) : (s.endAtOnce p x y).store = s.store := by unfold endAtOnce; (try dsimp only); (repeat' split) <;> simp
@[simp] theorem endAtOnce_ctl (s : State) (p : PbId) (x y : Standby) : (s.endAtOnce p x y).ctl = s.ctl := by unfold endAtOnce; (try dsimp only); (repeat' split) <;> simp
@[simp] theorem endAtOnce_con (s : State) (p : PbId) (x y : Standby) : (s.endAtOnce p x y).con = s.con := by unfold endAtOnce; (try dsimp only); (repeat' split) <;> simp
@[simp] theorem endAtOnce_aux (s : State) (p : PbId) (x y : Standby) : (s.endAtOnce p x y).aux = s.aux := by unfold endAtOnce; (try dsimp only); (repeat' split) <;> simp
@[simp] theorem endAtOnce_bank (s : State) (p : PbId) (x y : Standby) : (s.endAtOnce p x y).bank = s.bank := by unfold endAtOnce; (try dsimp only); (repeat' split) <;> simp
@[simp] theorem endAtOnce_patch (s : State) (p : PbId) (x y : Standby) : (s.endAtOnce p x y).patch = s.patch := by unfold endAtOnce; (try dsimp only); (repeat' split) <;> simp
@[simp] theorem endAtOnce_slots (s : State) (p : PbId) (x y : Standby) : (s.endAtOnce p x y).slots = s.slots := by unfold endAtOnce; (try dsimp only); (repeat' split) <;> simp
@[simp] theorem endAtOnce_merge (s : State) (p : PbId) (x y : Standby) : (s.endAtOnce p x y).merge = s.merge := by unfold endAtOnce; (try dsimp only); (repeat' split) <;> simp
@[simp] theorem endAtOnce_outp (s : State) (p : PbId) (x y : Standby) : (s.endAtOnce p x y).outp = s.outp := by unfold endAtOnce; (try dsimp only); (repeat' split) <;> simp
@[simp] theorem endAtOnce_cas (s : State) (p : PbId) (x y : Standby) : (s.endAtOnce p x y).cas = s.cas := by unfold endAtOnce; (try dsimp only); (repeat' split) <;> simp
@[simp] theorem endAtOnce_inputs (s : State) (p : PbId) (x y : Standby) : (s.endAtOnce p x y).inputs = s.inputs := by unfold endAtOnce; (try dsimp only); (repeat' split) <;> simp
@[simp] theorem endAtOnce_sup (s : State) (p : PbId) (x y : Standby) : (s.endAtOnce p x y).sup = s.sup := by unfold endAtOnce; (try dsimp only); (repeat' split) <;> simp
@[simp] theorem endAtOnce_free (s : State) (p : PbId) (x y : Standby) : (s.endAtOnce p x y).free = s.free := by unfold endAtOnce; (try dsimp only); (repeat' split) <;> simp
@[simp] theorem endAtOnce_wire (s : State) (p : PbId) (x y : Standby) : (s.endAtOnce p x y).wire = s.wire := by unfold endAtOnce; (try dsimp only); (repeat' split) <;> simp
@[simp] theorem endAtOnce_pending (s : State) (p : PbId) (x y : Standby) : (s.endAtOnce p x y).pending = s.pending := by unfold endAtOnce; (try dsimp only); (repeat' split) <;> simp

@[simp] theorem takeStandby_store (s : State) (p : PbId) (y : Standby) : (s.takeStandby p y).store = s.store := by simp [takeStandby]
@[simp] theorem takeStandby_ctl (s : State) (p : PbId) (y : Standby) : (s.takeStandby p y).ctl = s.ctl := by simp [takeStandby]
@[simp] theorem takeStandby_con (s : State) (p : PbId) (y : Standby) : (s.takeStandby p y).con = s.con := by simp [takeStandby]
@[simp] theorem takeStandby_aux (s : State) (p : PbId) (y : Standby) : (s.takeStandby p y).aux = s.aux := by simp [takeStandby]
@[simp] theorem takeStandby_bank (s : State) (p : PbId) (y : Standby) : (s.takeStandby p y).bank = s.bank := by simp [takeStandby]
@[simp] theorem takeStandby_patch (s : State) (p : PbId) (y : Standby) : (s.takeStandby p y).patch = s.patch := by simp [takeStandby]
@[simp] theorem takeStandby_slots (s : State) (p : PbId) (y : Standby) : (s.takeStandby p y).slots = s.slots := by simp [takeStandby]
@[simp] theorem takeStandby_merge (s : State) (p : PbId) (y : Standby) : (s.takeStandby p y).merge = s.merge := by simp [takeStandby]
@[simp] theorem takeStandby_outp (s : State) (p : PbId) (y : Standby) : (s.takeStandby p y).outp = s.outp := by simp [takeStandby]
@[simp] theorem takeStandby_cas (s : State) (p : PbId) (y : Standby) : (s.takeStandby p y).cas = s.cas := by simp [takeStandby]
@[simp] theorem takeStandby_inputs (s : State) (p : PbId) (y : Standby) : (s.takeStandby p y).inputs = s.inputs := by simp [takeStandby]
@[simp] theorem takeStandby_sup (s : State) (p : PbId) (y : Standby) : (s.takeStandby p y).sup = s.sup := by simp [takeStandby]
@[simp] theorem takeStandby_free (s : State) (p : PbId) (y : Standby) : (s.takeStandby p y).free = s.free := by simp [takeStandby]
@[simp] theorem takeStandby_wire (s : State) (p : PbId) (y : Standby) : (s.takeStandby p y).wire = s.wire := by simp [takeStandby]
@[simp] theorem takeStandby_pending (s : State) (p : PbId) (y : Standby) : (s.takeStandby p y).pending = s.pending := by simp [takeStandby]

@[simp] theorem dropFetch_store (s : State) (p : PbId) : (s.dropFetch p).store = s.store := by rfl
@[simp] theorem dropFetch_con (s : State) (p : PbId) : (s.dropFetch p).con = s.con := by rfl
@[simp] theorem dropFetch_aux (s : State) (p : PbId) : (s.dropFetch p).aux = s.aux := by rfl
@[simp] theorem dropFetch_link (s : State) (p : PbId) : (s.dropFetch p).link = s.link := by rfl
@[simp] theorem dropFetch_bank (s : State) (p : PbId) : (s.dropFetch p).bank = s.bank := by rfl
@[simp] theorem dropFetch_patch (s : State) (p : PbId) : (s.dropFetch p).patch = s.patch := by rfl
@[simp] theorem dropFetch_slots (s : State) (p : PbId) : (s.dropFetch p).slots = s.slots := by rfl
@[simp] theorem dropFetch_merge (s : State) (p : PbId) : (s.dropFetch p).merge = s.merge := by rfl
@[simp] theorem dropFetch_outp (s : State) (p : PbId) : (s.dropFetch p).outp = s.outp := by rfl
@[simp] theorem dropFetch_cas (s : State) (p : PbId) : (s.dropFetch p).cas = s.cas := by rfl
@[simp] theorem dropFetch_inputs (s : State) (p : PbId) : (s.dropFetch p).inputs = s.inputs := by rfl
@[simp] theorem dropFetch_sup (s : State) (p : PbId) : (s.dropFetch p).sup = s.sup := by rfl
@[simp] theorem dropFetch_free (s : State) (p : PbId) : (s.dropFetch p).free = s.free := by rfl
@[simp] theorem dropFetch_wire (s : State) (p : PbId) : (s.dropFetch p).wire = s.wire := by rfl
@[simp] theorem dropFetch_pending (s : State) (p : PbId) : (s.dropFetch p).pending = s.pending := by rfl

@[simp] theorem startFetchCore_store (s : State) (p : PbId) : (s.startFetchCore p).store = s.store := by unfold startFetchCore; (try dsimp only); (repeat' split) <;> simp
@[simp] theorem startFetchCore_con (s : State) (p : PbId) : (s.startFetchCore p).con = s.con := by unfold startFetchCore; (try dsimp only); (repeat' split) <;> simp
@[simp] theorem startFetchCore_aux (s : State) (p : PbId) : (s.startFetchCore p).aux = s.aux := by unfold startFetchCore; (try dsimp only); (repeat' split) <;> simp
@[simp] theorem startFetchCore_bank (s : State) (p : PbId) : (s.startFetchCore p).bank = s.bank := by unfold startFetchCore; (try dsimp only); (repeat' split) <;> simp
@[simp] theorem startFetchCore_patch (s : State) (p : PbId) : (s.startFetchCore p).patch = s.patch := by unfold startFetchCore; (try dsimp only); (repeat' split) <;> simp
@[simp] theorem startFetchCore_slots (s : State) (p : PbId) : (s.startFetchCore p).slots = s.slots := by unfold startFetchCore; (try dsimp only); (repeat' split) <;> simp
@[simp] theorem startFetchCore_merge (s : State) (p : PbId) : (s.startFetchCore p).merge = s.merge := by unfold startFetchCore; (try dsimp only); (repeat' split) <;> simp
@[simp] theorem startFetchCore_outp (s : State) (p : PbId) : (s.startFetchCore p).outp = s.outp := by unfold startFetchCore; (try dsimp only); (repeat' split) <;> simp
@[simp] theorem startFetchCore_cas (s : State) (p : PbId) : (s.startFetchCore p).cas = s.cas := by unfold startFetchCore; (try dsimp only); (repeat' split) <;> simp
@[simp] theorem startFetchCore_inputs (s : State) (p : PbId) : (s.startFetchCore p).inputs = s.inputs := by unfold startFetchCore; (try dsimp only); (repeat' split) <;> simp
@[simp] theorem startFetchCore_sup (s : State) (p : PbId) : (s.startFetchCore p).sup = s.sup := by unfold startFetchCore; (try dsimp only); (repeat' split) <;> simp
@[simp] theorem startFetchCore_free (s : State) (p : PbId) : (s.startFetchCore p).free = s.free := by unfold startFetchCore; (try dsimp only); (repeat' split) <;> simp
@[simp] theorem startFetchCore_wire (s : State) (p : PbId) : (s.startFetchCore p).wire = s.wire := by unfold startFetchCore; (try dsimp only); (repeat' split) <;> simp
@[simp] theorem startFetchCore_pending (s : State) (p : PbId) : (s.startFetchCore p).pending = s.pending := by unfold startFetchCore; (try dsimp only); (repeat' split) <;> simp

@[simp] theorem endGo_store (s : State) (p : PbId) (g : GoSource) (st : Status) : (s.endGo p g st).store = s.store := by unfold endGo; (try dsimp only); (repeat' split) <;> simp
@[simp] theorem endGo_ctl (s : State) (p : PbId) (g : GoSource) (st : Status) : (s.endGo p g st).ctl = s.ctl := by unfold endGo; (try dsimp only); (repeat' split) <;> simp
@[simp] theorem endGo_bank (s : State) (p : PbId) (g : GoSource) (st : Status) : (s.endGo p g st).bank = s.bank := by unfold endGo; (try dsimp only); (repeat' split) <;> simp
@[simp] theorem endGo_patch (s : State) (p : PbId) (g : GoSource) (st : Status) : (s.endGo p g st).patch = s.patch := by unfold endGo; (try dsimp only); (repeat' split) <;> simp
@[simp] theorem endGo_eng (s : State) (p : PbId) (g : GoSource) (st : Status) : (s.endGo p g st).eng = s.eng := by unfold endGo; (try dsimp only); (repeat' split) <;> simp
@[simp] theorem endGo_slots (s : State) (p : PbId) (g : GoSource) (st : Status) : (s.endGo p g st).slots = s.slots := by unfold endGo; (try dsimp only); (repeat' split) <;> simp
@[simp] theorem endGo_merge (s : State) (p : PbId) (g : GoSource) (st : Status) : (s.endGo p g st).merge = s.merge := by unfold endGo; (try dsimp only); (repeat' split) <;> simp
@[simp] theorem endGo_outp (s : State) (p : PbId) (g : GoSource) (st : Status) : (s.endGo p g st).outp = s.outp := by unfold endGo; (try dsimp only); (repeat' split) <;> simp
@[simp] theorem endGo_cas (s : State) (p : PbId) (g : GoSource) (st : Status) : (s.endGo p g st).cas = s.cas := by unfold endGo; (try dsimp only); (repeat' split) <;> simp
@[simp] theorem endGo_free (s : State) (p : PbId) (g : GoSource) (st : Status) : (s.endGo p g st).free = s.free := by unfold endGo; (try dsimp only); (repeat' split) <;> simp
@[simp] theorem endGo_wire (s : State) (p : PbId) (g : GoSource) (st : Status) : (s.endGo p g st).wire = s.wire := by unfold endGo; (try dsimp only); (repeat' split) <;> simp
@[simp] theorem endGo_pending (s : State) (p : PbId) (g : GoSource) (st : Status) : (s.endGo p g st).pending = s.pending := by unfold endGo; (try dsimp only); (repeat' split) <;> simp

@[simp] theorem goReply_store (s : State) (p : PbId) (g : GoSource) (o : Option Nat) (a : Bool) (c n : Nat) (k : Bool) : (s.goReply p g o a c n k).store = s.store := by unfold goReply; (repeat' split) <;> simp
@[simp] theorem goReply_ctl (s : State) (p : PbId) (g : GoSource) (o : Option Nat) (a : Bool) (c n : Nat) (k : Bool) : (s.goReply p g o a c n k).ctl = s.ctl := by unfold goReply; (repeat' split) <;> simp
@[simp] theorem goReply_link (s : State) (p : PbId) (g : GoSource) (o : Option Nat) (a : Bool) (c n : Nat) (k : Bool) : (s.goReply p g o a c n k).link = s.link := by unfold goReply; (repeat' split) <;> simp
@[simp] theorem goReply_bank (s : State) (p : PbId) (g : GoSource) (o : Option Nat) (a : Bool) (c n : Nat) (k : Bool) : (s.goReply p g o a c n k).bank = s.bank := by unfold goReply; (repeat' split) <;> simp
@[simp] theorem goReply_patch (s : State) (p : PbId) (g : GoSource) (o : Option Nat) (a : Bool) (c n : Nat) (k : Bool) : (s.goReply p g o a c n k).patch = s.patch := by unfold goReply; (repeat' split) <;> simp
@[simp] theorem goReply_eng (s : State) (p : PbId) (g : GoSource) (o : Option Nat) (a : Bool) (c n : Nat) (k : Bool) : (s.goReply p g o a c n k).eng = s.eng := by unfold goReply; (repeat' split) <;> simp
@[simp] theorem goReply_slots (s : State) (p : PbId) (g : GoSource) (o : Option Nat) (a : Bool) (c n : Nat) (k : Bool) : (s.goReply p g o a c n k).slots = s.slots := by unfold goReply; (repeat' split) <;> simp
@[simp] theorem goReply_merge (s : State) (p : PbId) (g : GoSource) (o : Option Nat) (a : Bool) (c n : Nat) (k : Bool) : (s.goReply p g o a c n k).merge = s.merge := by unfold goReply; (repeat' split) <;> simp
@[simp] theorem goReply_outp (s : State) (p : PbId) (g : GoSource) (o : Option Nat) (a : Bool) (c n : Nat) (k : Bool) : (s.goReply p g o a c n k).outp = s.outp := by unfold goReply; (repeat' split) <;> simp
@[simp] theorem goReply_cas (s : State) (p : PbId) (g : GoSource) (o : Option Nat) (a : Bool) (c n : Nat) (k : Bool) : (s.goReply p g o a c n k).cas = s.cas := by unfold goReply; (repeat' split) <;> simp
@[simp] theorem goReply_inputs (s : State) (p : PbId) (g : GoSource) (o : Option Nat) (a : Bool) (c n : Nat) (k : Bool) : (s.goReply p g o a c n k).inputs = s.inputs := by unfold goReply; (repeat' split) <;> simp
@[simp] theorem goReply_sup (s : State) (p : PbId) (g : GoSource) (o : Option Nat) (a : Bool) (c n : Nat) (k : Bool) : (s.goReply p g o a c n k).sup = s.sup := by unfold goReply; (repeat' split) <;> simp
@[simp] theorem goReply_free (s : State) (p : PbId) (g : GoSource) (o : Option Nat) (a : Bool) (c n : Nat) (k : Bool) : (s.goReply p g o a c n k).free = s.free := by unfold goReply; (repeat' split) <;> simp
@[simp] theorem goReply_wire (s : State) (p : PbId) (g : GoSource) (o : Option Nat) (a : Bool) (c n : Nat) (k : Bool) : (s.goReply p g o a c n k).wire = s.wire := by unfold goReply; (repeat' split) <;> simp
@[simp] theorem goReply_pending (s : State) (p : PbId) (g : GoSource) (o : Option Nat) (a : Bool) (c n : Nat) (k : Bool) : (s.goReply p g o a c n k).pending = s.pending := by unfold goReply; (repeat' split) <;> simp

@[simp] theorem goAction_store (s : State) (p : PbId) (g : GoSource) (c : Nat) : (s.goAction p g c).store = s.store := by unfold goAction; (repeat' split) <;> simp
@[simp] theorem goAction_ctl (s : State) (p : PbId) (g : GoSource) (c : Nat) : (s.goAction p g c).ctl = s.ctl := by unfold goAction; (repeat' split) <;> simp
@[simp] theorem goAction_con (s : State) (p : PbId) (g : GoSource) (c : Nat) : (s.goAction p g c).con = s.con := by unfold goAction; (repeat' split) <;> simp
@[simp] theorem goAction_aux (s : State) (p : PbId) (g : GoSource) (c : Nat) : (s.goAction p g c).aux = s.aux := by unfold goAction; (repeat' split) <;> simp
@[simp] theorem goAction_bank (s : State) (p : PbId) (g : GoSource) (c : Nat) : (s.goAction p g c).bank = s.bank := by unfold goAction; (repeat' split) <;> simp
@[simp] theorem goAction_patch (s : State) (p : PbId) (g : GoSource) (c : Nat) : (s.goAction p g c).patch = s.patch := by unfold goAction; (repeat' split) <;> simp
@[simp] theorem goAction_eng (s : State) (p : PbId) (g : GoSource) (c : Nat) : (s.goAction p g c).eng = s.eng := by unfold goAction; (repeat' split) <;> simp
@[simp] theorem goAction_slots (s : State) (p : PbId) (g : GoSource) (c : Nat) : (s.goAction p g c).slots = s.slots := by unfold goAction; (repeat' split) <;> simp
@[simp] theorem goAction_merge (s : State) (p : PbId) (g : GoSource) (c : Nat) : (s.goAction p g c).merge = s.merge := by unfold goAction; (repeat' split) <;> simp
@[simp] theorem goAction_outp (s : State) (p : PbId) (g : GoSource) (c : Nat) : (s.goAction p g c).outp = s.outp := by unfold goAction; (repeat' split) <;> simp
@[simp] theorem goAction_cas (s : State) (p : PbId) (g : GoSource) (c : Nat) : (s.goAction p g c).cas = s.cas := by unfold goAction; (repeat' split) <;> simp
@[simp] theorem goAction_free (s : State) (p : PbId) (g : GoSource) (c : Nat) : (s.goAction p g c).free = s.free := by unfold goAction; (repeat' split) <;> simp
@[simp] theorem goAction_wire (s : State) (p : PbId) (g : GoSource) (c : Nat) : (s.goAction p g c).wire = s.wire := by unfold goAction; (repeat' split) <;> simp
@[simp] theorem goAction_pending (s : State) (p : PbId) (g : GoSource) (c : Nat) : (s.goAction p g c).pending = s.pending := by unfold goAction; (repeat' split) <;> simp

@[simp] theorem goTake_store (s : State) (p : PbId) (g : GoSource) (o : Option Nat) (a : Bool) (c : Cue) : (s.goTake p g o a c).store = s.store := by unfold goTake; (try dsimp only); (repeat' split) <;> simp
@[simp] theorem goTake_bank (s : State) (p : PbId) (g : GoSource) (o : Option Nat) (a : Bool) (c : Cue) : (s.goTake p g o a c).bank = s.bank := by unfold goTake; (try dsimp only); (repeat' split) <;> simp
@[simp] theorem goTake_patch (s : State) (p : PbId) (g : GoSource) (o : Option Nat) (a : Bool) (c : Cue) : (s.goTake p g o a c).patch = s.patch := by unfold goTake; (try dsimp only); (repeat' split) <;> simp
@[simp] theorem goTake_merge (s : State) (p : PbId) (g : GoSource) (o : Option Nat) (a : Bool) (c : Cue) : (s.goTake p g o a c).merge = s.merge := by unfold goTake; (try dsimp only); (repeat' split) <;> simp
@[simp] theorem goTake_outp (s : State) (p : PbId) (g : GoSource) (o : Option Nat) (a : Bool) (c : Cue) : (s.goTake p g o a c).outp = s.outp := by unfold goTake; (try dsimp only); (repeat' split) <;> simp
@[simp] theorem goTake_cas (s : State) (p : PbId) (g : GoSource) (o : Option Nat) (a : Bool) (c : Cue) : (s.goTake p g o a c).cas = s.cas := by unfold goTake; (try dsimp only); (repeat' split) <;> simp
@[simp] theorem goTake_free (s : State) (p : PbId) (g : GoSource) (o : Option Nat) (a : Bool) (c : Cue) : (s.goTake p g o a c).free = s.free := by unfold goTake; (try dsimp only); (repeat' split) <;> simp
@[simp] theorem goTake_wire (s : State) (p : PbId) (g : GoSource) (o : Option Nat) (a : Bool) (c : Cue) : (s.goTake p g o a c).wire = s.wire := by unfold goTake; (try dsimp only); (repeat' split) <;> simp
@[simp] theorem goTake_pending (s : State) (p : PbId) (g : GoSource) (o : Option Nat) (a : Bool) (c : Cue) : (s.goTake p g o a c).pending = s.pending := by unfold goTake; (try dsimp only); (repeat' split) <;> simp

@[simp] theorem handPending_store (s : State) (p : PbId) : (s.handPending p).store = s.store := by unfold handPending; (try dsimp only); (repeat' split) <;> simp
@[simp] theorem handPending_bank (s : State) (p : PbId) : (s.handPending p).bank = s.bank := by unfold handPending; (try dsimp only); (repeat' split) <;> simp
@[simp] theorem handPending_patch (s : State) (p : PbId) : (s.handPending p).patch = s.patch := by unfold handPending; (try dsimp only); (repeat' split) <;> simp
@[simp] theorem handPending_merge (s : State) (p : PbId) : (s.handPending p).merge = s.merge := by unfold handPending; (try dsimp only); (repeat' split) <;> simp
@[simp] theorem handPending_outp (s : State) (p : PbId) : (s.handPending p).outp = s.outp := by unfold handPending; (try dsimp only); (repeat' split) <;> simp
@[simp] theorem handPending_cas (s : State) (p : PbId) : (s.handPending p).cas = s.cas := by unfold handPending; (try dsimp only); (repeat' split) <;> simp
@[simp] theorem handPending_free (s : State) (p : PbId) : (s.handPending p).free = s.free := by unfold handPending; (try dsimp only); (repeat' split) <;> simp
@[simp] theorem handPending_wire (s : State) (p : PbId) : (s.handPending p).wire = s.wire := by unfold handPending; (try dsimp only); (repeat' split) <;> simp
@[simp] theorem handPending_pending (s : State) (p : PbId) : (s.handPending p).pending = s.pending := by unfold handPending; (try dsimp only); (repeat' split) <;> simp

@[simp] theorem startFetch_store (s : State) (p : PbId) : (s.startFetch p).store = s.store := by simp [startFetch]
@[simp] theorem startFetch_bank (s : State) (p : PbId) : (s.startFetch p).bank = s.bank := by simp [startFetch]
@[simp] theorem startFetch_patch (s : State) (p : PbId) : (s.startFetch p).patch = s.patch := by simp [startFetch]
@[simp] theorem startFetch_merge (s : State) (p : PbId) : (s.startFetch p).merge = s.merge := by simp [startFetch]
@[simp] theorem startFetch_outp (s : State) (p : PbId) : (s.startFetch p).outp = s.outp := by simp [startFetch]
@[simp] theorem startFetch_cas (s : State) (p : PbId) : (s.startFetch p).cas = s.cas := by simp [startFetch]
@[simp] theorem startFetch_free (s : State) (p : PbId) : (s.startFetch p).free = s.free := by simp [startFetch]
@[simp] theorem startFetch_wire (s : State) (p : PbId) : (s.startFetch p).wire = s.wire := by simp [startFetch]
@[simp] theorem startFetch_pending (s : State) (p : PbId) : (s.startFetch p).pending = s.pending := by simp [startFetch]

@[simp] theorem endPending_store (s : State) (p : PbId) (st : Status) : (s.endPending p st).store = s.store := by unfold endPending; (try dsimp only); (repeat' split) <;> simp
@[simp] theorem endPending_ctl (s : State) (p : PbId) (st : Status) : (s.endPending p st).ctl = s.ctl := by unfold endPending; (try dsimp only); (repeat' split) <;> simp
@[simp] theorem endPending_bank (s : State) (p : PbId) (st : Status) : (s.endPending p st).bank = s.bank := by unfold endPending; (try dsimp only); (repeat' split) <;> simp
@[simp] theorem endPending_patch (s : State) (p : PbId) (st : Status) : (s.endPending p st).patch = s.patch := by unfold endPending; (try dsimp only); (repeat' split) <;> simp
@[simp] theorem endPending_slots (s : State) (p : PbId) (st : Status) : (s.endPending p st).slots = s.slots := by unfold endPending; (try dsimp only); (repeat' split) <;> simp
@[simp] theorem endPending_merge (s : State) (p : PbId) (st : Status) : (s.endPending p st).merge = s.merge := by unfold endPending; (try dsimp only); (repeat' split) <;> simp
@[simp] theorem endPending_outp (s : State) (p : PbId) (st : Status) : (s.endPending p st).outp = s.outp := by unfold endPending; (try dsimp only); (repeat' split) <;> simp
@[simp] theorem endPending_cas (s : State) (p : PbId) (st : Status) : (s.endPending p st).cas = s.cas := by unfold endPending; (try dsimp only); (repeat' split) <;> simp
@[simp] theorem endPending_free (s : State) (p : PbId) (st : Status) : (s.endPending p st).free = s.free := by unfold endPending; (try dsimp only); (repeat' split) <;> simp
@[simp] theorem endPending_wire (s : State) (p : PbId) (st : Status) : (s.endPending p st).wire = s.wire := by unfold endPending; (try dsimp only); (repeat' split) <;> simp
@[simp] theorem endPending_pending (s : State) (p : PbId) (st : Status) : (s.endPending p st).pending = s.pending := by unfold endPending; (try dsimp only); (repeat' split) <;> simp

@[simp] theorem makePending_store (s : State) (p : PbId) (g : GoSource) (o : Option Nat) (a : Bool) : (s.makePending p g o a).store = s.store := by unfold makePending; (try dsimp only); (repeat' split) <;> simp
@[simp] theorem makePending_ctl (s : State) (p : PbId) (g : GoSource) (o : Option Nat) (a : Bool) : (s.makePending p g o a).ctl = s.ctl := by unfold makePending; (try dsimp only); (repeat' split) <;> simp
@[simp] theorem makePending_con (s : State) (p : PbId) (g : GoSource) (o : Option Nat) (a : Bool) : (s.makePending p g o a).con = s.con := by unfold makePending; (try dsimp only); (repeat' split) <;> simp
@[simp] theorem makePending_aux (s : State) (p : PbId) (g : GoSource) (o : Option Nat) (a : Bool) : (s.makePending p g o a).aux = s.aux := by unfold makePending; (try dsimp only); (repeat' split) <;> simp
@[simp] theorem makePending_bank (s : State) (p : PbId) (g : GoSource) (o : Option Nat) (a : Bool) : (s.makePending p g o a).bank = s.bank := by unfold makePending; (try dsimp only); (repeat' split) <;> simp
@[simp] theorem makePending_patch (s : State) (p : PbId) (g : GoSource) (o : Option Nat) (a : Bool) : (s.makePending p g o a).patch = s.patch := by unfold makePending; (try dsimp only); (repeat' split) <;> simp
@[simp] theorem makePending_slots (s : State) (p : PbId) (g : GoSource) (o : Option Nat) (a : Bool) : (s.makePending p g o a).slots = s.slots := by unfold makePending; (try dsimp only); (repeat' split) <;> simp
@[simp] theorem makePending_merge (s : State) (p : PbId) (g : GoSource) (o : Option Nat) (a : Bool) : (s.makePending p g o a).merge = s.merge := by unfold makePending; (try dsimp only); (repeat' split) <;> simp
@[simp] theorem makePending_outp (s : State) (p : PbId) (g : GoSource) (o : Option Nat) (a : Bool) : (s.makePending p g o a).outp = s.outp := by unfold makePending; (try dsimp only); (repeat' split) <;> simp
@[simp] theorem makePending_cas (s : State) (p : PbId) (g : GoSource) (o : Option Nat) (a : Bool) : (s.makePending p g o a).cas = s.cas := by unfold makePending; (try dsimp only); (repeat' split) <;> simp
@[simp] theorem makePending_free (s : State) (p : PbId) (g : GoSource) (o : Option Nat) (a : Bool) : (s.makePending p g o a).free = s.free := by unfold makePending; (try dsimp only); (repeat' split) <;> simp
@[simp] theorem makePending_wire (s : State) (p : PbId) (g : GoSource) (o : Option Nat) (a : Bool) : (s.makePending p g o a).wire = s.wire := by unfold makePending; (try dsimp only); (repeat' split) <;> simp
@[simp] theorem makePending_pending (s : State) (p : PbId) (g : GoSource) (o : Option Nat) (a : Bool) : (s.makePending p g o a).pending = s.pending := by unfold makePending; (try dsimp only); (repeat' split) <;> simp

@[simp] theorem goCommand_store (s : State) (p : PbId) (g : GoSource) (o : Option Nat) (a : Bool) : (s.goCommand p g o a).store = s.store := by unfold goCommand; (repeat' split) <;> simp
@[simp] theorem goCommand_bank (s : State) (p : PbId) (g : GoSource) (o : Option Nat) (a : Bool) : (s.goCommand p g o a).bank = s.bank := by unfold goCommand; (repeat' split) <;> simp
@[simp] theorem goCommand_patch (s : State) (p : PbId) (g : GoSource) (o : Option Nat) (a : Bool) : (s.goCommand p g o a).patch = s.patch := by unfold goCommand; (repeat' split) <;> simp
@[simp] theorem goCommand_merge (s : State) (p : PbId) (g : GoSource) (o : Option Nat) (a : Bool) : (s.goCommand p g o a).merge = s.merge := by unfold goCommand; (repeat' split) <;> simp
@[simp] theorem goCommand_outp (s : State) (p : PbId) (g : GoSource) (o : Option Nat) (a : Bool) : (s.goCommand p g o a).outp = s.outp := by unfold goCommand; (repeat' split) <;> simp
@[simp] theorem goCommand_cas (s : State) (p : PbId) (g : GoSource) (o : Option Nat) (a : Bool) : (s.goCommand p g o a).cas = s.cas := by unfold goCommand; (repeat' split) <;> simp
@[simp] theorem goCommand_free (s : State) (p : PbId) (g : GoSource) (o : Option Nat) (a : Bool) : (s.goCommand p g o a).free = s.free := by unfold goCommand; (repeat' split) <;> simp
@[simp] theorem goCommand_wire (s : State) (p : PbId) (g : GoSource) (o : Option Nat) (a : Bool) : (s.goCommand p g o a).wire = s.wire := by unfold goCommand; (repeat' split) <;> simp
@[simp] theorem goCommand_pending (s : State) (p : PbId) (g : GoSource) (o : Option Nat) (a : Bool) : (s.goCommand p g o a).pending = s.pending := by unfold goCommand; (repeat' split) <;> simp

@[simp] theorem takeOutcome_store (s : State) (p : PbId) (f : Fetch) (r : Option Cue) : (s.takeOutcome p f r).store = s.store := by unfold takeOutcome; (try dsimp only); (repeat' split) <;> simp
@[simp] theorem takeOutcome_bank (s : State) (p : PbId) (f : Fetch) (r : Option Cue) : (s.takeOutcome p f r).bank = s.bank := by unfold takeOutcome; (try dsimp only); (repeat' split) <;> simp
@[simp] theorem takeOutcome_patch (s : State) (p : PbId) (f : Fetch) (r : Option Cue) : (s.takeOutcome p f r).patch = s.patch := by unfold takeOutcome; (try dsimp only); (repeat' split) <;> simp
@[simp] theorem takeOutcome_merge (s : State) (p : PbId) (f : Fetch) (r : Option Cue) : (s.takeOutcome p f r).merge = s.merge := by unfold takeOutcome; (try dsimp only); (repeat' split) <;> simp
@[simp] theorem takeOutcome_outp (s : State) (p : PbId) (f : Fetch) (r : Option Cue) : (s.takeOutcome p f r).outp = s.outp := by unfold takeOutcome; (try dsimp only); (repeat' split) <;> simp
@[simp] theorem takeOutcome_cas (s : State) (p : PbId) (f : Fetch) (r : Option Cue) : (s.takeOutcome p f r).cas = s.cas := by unfold takeOutcome; (try dsimp only); (repeat' split) <;> simp
@[simp] theorem takeOutcome_free (s : State) (p : PbId) (f : Fetch) (r : Option Cue) : (s.takeOutcome p f r).free = s.free := by unfold takeOutcome; (try dsimp only); (repeat' split) <;> simp
@[simp] theorem takeOutcome_wire (s : State) (p : PbId) (f : Fetch) (r : Option Cue) : (s.takeOutcome p f r).wire = s.wire := by unfold takeOutcome; (try dsimp only); (repeat' split) <;> simp
@[simp] theorem takeOutcome_pending (s : State) (p : PbId) (f : Fetch) (r : Option Cue) : (s.takeOutcome p f r).pending = s.pending := by unfold takeOutcome; (try dsimp only); (repeat' split) <;> simp

@[simp] theorem endSlot_store (s : State) (x : Slot) : (s.endSlot x).store = s.store := by unfold endSlot; (try dsimp only); (repeat' split) <;> simp
@[simp] theorem endSlot_ctl (s : State) (x : Slot) : (s.endSlot x).ctl = s.ctl := by unfold endSlot; (try dsimp only); (repeat' split) <;> simp
@[simp] theorem endSlot_con (s : State) (x : Slot) : (s.endSlot x).con = s.con := by unfold endSlot; (try dsimp only); (repeat' split) <;> simp
@[simp] theorem endSlot_aux (s : State) (x : Slot) : (s.endSlot x).aux = s.aux := by unfold endSlot; (try dsimp only); (repeat' split) <;> simp
@[simp] theorem endSlot_bank (s : State) (x : Slot) : (s.endSlot x).bank = s.bank := by unfold endSlot; (try dsimp only); (repeat' split) <;> simp
@[simp] theorem endSlot_patch (s : State) (x : Slot) : (s.endSlot x).patch = s.patch := by unfold endSlot; (try dsimp only); (repeat' split) <;> simp
@[simp] theorem endSlot_merge (s : State) (x : Slot) : (s.endSlot x).merge = s.merge := by unfold endSlot; (try dsimp only); (repeat' split) <;> simp
@[simp] theorem endSlot_outp (s : State) (x : Slot) : (s.endSlot x).outp = s.outp := by unfold endSlot; (try dsimp only); (repeat' split) <;> simp
@[simp] theorem endSlot_cas (s : State) (x : Slot) : (s.endSlot x).cas = s.cas := by unfold endSlot; (try dsimp only); (repeat' split) <;> simp
@[simp] theorem endSlot_inputs (s : State) (x : Slot) : (s.endSlot x).inputs = s.inputs := by unfold endSlot; (try dsimp only); (repeat' split) <;> simp
@[simp] theorem endSlot_sup (s : State) (x : Slot) : (s.endSlot x).sup = s.sup := by unfold endSlot; (try dsimp only); (repeat' split) <;> simp
@[simp] theorem endSlot_free (s : State) (x : Slot) : (s.endSlot x).free = s.free := by unfold endSlot; (try dsimp only); (repeat' split) <;> simp
@[simp] theorem endSlot_wire (s : State) (x : Slot) : (s.endSlot x).wire = s.wire := by unfold endSlot; (try dsimp only); (repeat' split) <;> simp
@[simp] theorem endSlot_pending (s : State) (x : Slot) : (s.endSlot x).pending = s.pending := by unfold endSlot; (try dsimp only); (repeat' split) <;> simp

@[simp] theorem advanceSlot_store (s : State) (n : Nat) : (s.advanceSlot n).store = s.store := by unfold advanceSlot; (try dsimp only); (repeat' split) <;> simp
@[simp] theorem advanceSlot_ctl (s : State) (n : Nat) : (s.advanceSlot n).ctl = s.ctl := by unfold advanceSlot; (try dsimp only); (repeat' split) <;> simp
@[simp] theorem advanceSlot_con (s : State) (n : Nat) : (s.advanceSlot n).con = s.con := by unfold advanceSlot; (try dsimp only); (repeat' split) <;> simp
@[simp] theorem advanceSlot_aux (s : State) (n : Nat) : (s.advanceSlot n).aux = s.aux := by unfold advanceSlot; (try dsimp only); (repeat' split) <;> simp
@[simp] theorem advanceSlot_bank (s : State) (n : Nat) : (s.advanceSlot n).bank = s.bank := by unfold advanceSlot; (try dsimp only); (repeat' split) <;> simp
@[simp] theorem advanceSlot_patch (s : State) (n : Nat) : (s.advanceSlot n).patch = s.patch := by unfold advanceSlot; (try dsimp only); (repeat' split) <;> simp
@[simp] theorem advanceSlot_merge (s : State) (n : Nat) : (s.advanceSlot n).merge = s.merge := by unfold advanceSlot; (try dsimp only); (repeat' split) <;> simp
@[simp] theorem advanceSlot_outp (s : State) (n : Nat) : (s.advanceSlot n).outp = s.outp := by unfold advanceSlot; (try dsimp only); (repeat' split) <;> simp
@[simp] theorem advanceSlot_cas (s : State) (n : Nat) : (s.advanceSlot n).cas = s.cas := by unfold advanceSlot; (try dsimp only); (repeat' split) <;> simp
@[simp] theorem advanceSlot_inputs (s : State) (n : Nat) : (s.advanceSlot n).inputs = s.inputs := by unfold advanceSlot; (try dsimp only); (repeat' split) <;> simp
@[simp] theorem advanceSlot_sup (s : State) (n : Nat) : (s.advanceSlot n).sup = s.sup := by unfold advanceSlot; (try dsimp only); (repeat' split) <;> simp
@[simp] theorem advanceSlot_free (s : State) (n : Nat) : (s.advanceSlot n).free = s.free := by unfold advanceSlot; (try dsimp only); (repeat' split) <;> simp
@[simp] theorem advanceSlot_wire (s : State) (n : Nat) : (s.advanceSlot n).wire = s.wire := by unfold advanceSlot; (try dsimp only); (repeat' split) <;> simp
@[simp] theorem advanceSlot_pending (s : State) (n : Nat) : (s.advanceSlot n).pending = s.pending := by unfold advanceSlot; (try dsimp only); (repeat' split) <;> simp

@[simp] theorem rackReport_store (s : State) (a b : Nat) (r : Nat × Nat) (x : RackNews) : (s.rackReport a b r x).store = s.store := by unfold rackReport; (repeat' split) <;> simp
@[simp] theorem rackReport_ctl (s : State) (a b : Nat) (r : Nat × Nat) (x : RackNews) : (s.rackReport a b r x).ctl = s.ctl := by unfold rackReport; (repeat' split) <;> simp
@[simp] theorem rackReport_con (s : State) (a b : Nat) (r : Nat × Nat) (x : RackNews) : (s.rackReport a b r x).con = s.con := by unfold rackReport; (repeat' split) <;> simp
@[simp] theorem rackReport_aux (s : State) (a b : Nat) (r : Nat × Nat) (x : RackNews) : (s.rackReport a b r x).aux = s.aux := by unfold rackReport; (repeat' split) <;> simp
@[simp] theorem rackReport_bank (s : State) (a b : Nat) (r : Nat × Nat) (x : RackNews) : (s.rackReport a b r x).bank = s.bank := by unfold rackReport; (repeat' split) <;> simp
@[simp] theorem rackReport_patch (s : State) (a b : Nat) (r : Nat × Nat) (x : RackNews) : (s.rackReport a b r x).patch = s.patch := by unfold rackReport; (repeat' split) <;> simp
@[simp] theorem rackReport_eng (s : State) (a b : Nat) (r : Nat × Nat) (x : RackNews) : (s.rackReport a b r x).eng = s.eng := by unfold rackReport; (repeat' split) <;> simp
@[simp] theorem rackReport_slots (s : State) (a b : Nat) (r : Nat × Nat) (x : RackNews) : (s.rackReport a b r x).slots = s.slots := by unfold rackReport; (repeat' split) <;> simp
@[simp] theorem rackReport_merge (s : State) (a b : Nat) (r : Nat × Nat) (x : RackNews) : (s.rackReport a b r x).merge = s.merge := by unfold rackReport; (repeat' split) <;> simp
@[simp] theorem rackReport_outp (s : State) (a b : Nat) (r : Nat × Nat) (x : RackNews) : (s.rackReport a b r x).outp = s.outp := by unfold rackReport; (repeat' split) <;> simp
@[simp] theorem rackReport_cas (s : State) (a b : Nat) (r : Nat × Nat) (x : RackNews) : (s.rackReport a b r x).cas = s.cas := by unfold rackReport; (repeat' split) <;> simp
@[simp] theorem rackReport_inputs (s : State) (a b : Nat) (r : Nat × Nat) (x : RackNews) : (s.rackReport a b r x).inputs = s.inputs := by unfold rackReport; (repeat' split) <;> simp
@[simp] theorem rackReport_sup (s : State) (a b : Nat) (r : Nat × Nat) (x : RackNews) : (s.rackReport a b r x).sup = s.sup := by unfold rackReport; (repeat' split) <;> simp
@[simp] theorem rackReport_free (s : State) (a b : Nat) (r : Nat × Nat) (x : RackNews) : (s.rackReport a b r x).free = s.free := by unfold rackReport; (repeat' split) <;> simp
@[simp] theorem rackReport_wire (s : State) (a b : Nat) (r : Nat × Nat) (x : RackNews) : (s.rackReport a b r x).wire = s.wire := by unfold rackReport; (repeat' split) <;> simp
@[simp] theorem rackReport_pending (s : State) (a b : Nat) (r : Nat × Nat) (x : RackNews) : (s.rackReport a b r x).pending = s.pending := by unfold rackReport; (repeat' split) <;> simp

@[simp] theorem circuitReport_store (s : State) (n : Nat) (e : CircuitEvent) (o : Option Nat) : (s.circuitReport n e o).store = s.store := by simp [circuitReport]
@[simp] theorem circuitReport_ctl (s : State) (n : Nat) (e : CircuitEvent) (o : Option Nat) : (s.circuitReport n e o).ctl = s.ctl := by simp [circuitReport]
@[simp] theorem circuitReport_con (s : State) (n : Nat) (e : CircuitEvent) (o : Option Nat) : (s.circuitReport n e o).con = s.con := by simp [circuitReport]
@[simp] theorem circuitReport_aux (s : State) (n : Nat) (e : CircuitEvent) (o : Option Nat) : (s.circuitReport n e o).aux = s.aux := by simp [circuitReport]
@[simp] theorem circuitReport_bank (s : State) (n : Nat) (e : CircuitEvent) (o : Option Nat) : (s.circuitReport n e o).bank = s.bank := by simp [circuitReport]
@[simp] theorem circuitReport_patch (s : State) (n : Nat) (e : CircuitEvent) (o : Option Nat) : (s.circuitReport n e o).patch = s.patch := by simp [circuitReport]
@[simp] theorem circuitReport_eng (s : State) (n : Nat) (e : CircuitEvent) (o : Option Nat) : (s.circuitReport n e o).eng = s.eng := by simp [circuitReport]
@[simp] theorem circuitReport_slots (s : State) (n : Nat) (e : CircuitEvent) (o : Option Nat) : (s.circuitReport n e o).slots = s.slots := by simp [circuitReport]
@[simp] theorem circuitReport_merge (s : State) (n : Nat) (e : CircuitEvent) (o : Option Nat) : (s.circuitReport n e o).merge = s.merge := by simp [circuitReport]
@[simp] theorem circuitReport_outp (s : State) (n : Nat) (e : CircuitEvent) (o : Option Nat) : (s.circuitReport n e o).outp = s.outp := by simp [circuitReport]
@[simp] theorem circuitReport_cas (s : State) (n : Nat) (e : CircuitEvent) (o : Option Nat) : (s.circuitReport n e o).cas = s.cas := by simp [circuitReport]
@[simp] theorem circuitReport_inputs (s : State) (n : Nat) (e : CircuitEvent) (o : Option Nat) : (s.circuitReport n e o).inputs = s.inputs := by simp [circuitReport]
@[simp] theorem circuitReport_sup (s : State) (n : Nat) (e : CircuitEvent) (o : Option Nat) : (s.circuitReport n e o).sup = s.sup := by simp [circuitReport]
@[simp] theorem circuitReport_free (s : State) (n : Nat) (e : CircuitEvent) (o : Option Nat) : (s.circuitReport n e o).free = s.free := by simp [circuitReport]
@[simp] theorem circuitReport_wire (s : State) (n : Nat) (e : CircuitEvent) (o : Option Nat) : (s.circuitReport n e o).wire = s.wire := by simp [circuitReport]
@[simp] theorem circuitReport_pending (s : State) (n : Nat) (e : CircuitEvent) (o : Option Nat) : (s.circuitReport n e o).pending = s.pending := by simp [circuitReport]

@[simp] theorem markFault_store (s : State) (c : Nat) (k : FaultKind) (b : Bool) : (s.markFault c k b).store = s.store := by rfl
@[simp] theorem markFault_ctl (s : State) (c : Nat) (k : FaultKind) (b : Bool) : (s.markFault c k b).ctl = s.ctl := by rfl
@[simp] theorem markFault_con (s : State) (c : Nat) (k : FaultKind) (b : Bool) : (s.markFault c k b).con = s.con := by rfl
@[simp] theorem markFault_aux (s : State) (c : Nat) (k : FaultKind) (b : Bool) : (s.markFault c k b).aux = s.aux := by rfl
@[simp] theorem markFault_link (s : State) (c : Nat) (k : FaultKind) (b : Bool) : (s.markFault c k b).link = s.link := by rfl
@[simp] theorem markFault_bank (s : State) (c : Nat) (k : FaultKind) (b : Bool) : (s.markFault c k b).bank = s.bank := by rfl
@[simp] theorem markFault_patch (s : State) (c : Nat) (k : FaultKind) (b : Bool) : (s.markFault c k b).patch = s.patch := by rfl
@[simp] theorem markFault_eng (s : State) (c : Nat) (k : FaultKind) (b : Bool) : (s.markFault c k b).eng = s.eng := by rfl
@[simp] theorem markFault_slots (s : State) (c : Nat) (k : FaultKind) (b : Bool) : (s.markFault c k b).slots = s.slots := by rfl
@[simp] theorem markFault_merge (s : State) (c : Nat) (k : FaultKind) (b : Bool) : (s.markFault c k b).merge = s.merge := by rfl
@[simp] theorem markFault_cas (s : State) (c : Nat) (k : FaultKind) (b : Bool) : (s.markFault c k b).cas = s.cas := by rfl
@[simp] theorem markFault_inputs (s : State) (c : Nat) (k : FaultKind) (b : Bool) : (s.markFault c k b).inputs = s.inputs := by rfl
@[simp] theorem markFault_sup (s : State) (c : Nat) (k : FaultKind) (b : Bool) : (s.markFault c k b).sup = s.sup := by rfl
@[simp] theorem markFault_free (s : State) (c : Nat) (k : FaultKind) (b : Bool) : (s.markFault c k b).free = s.free := by rfl
@[simp] theorem markFault_wire (s : State) (c : Nat) (k : FaultKind) (b : Bool) : (s.markFault c k b).wire = s.wire := by rfl
@[simp] theorem markFault_pending (s : State) (c : Nat) (k : FaultKind) (b : Bool) : (s.markFault c k b).pending = s.pending := by rfl

@[simp] theorem tableEvent_store (s : State) (n : Nat) (e : CircuitEvent) : (s.tableEvent n e).store = s.store := by unfold tableEvent; (try dsimp only); (repeat' split) <;> simp
@[simp] theorem tableEvent_ctl (s : State) (n : Nat) (e : CircuitEvent) : (s.tableEvent n e).ctl = s.ctl := by unfold tableEvent; (try dsimp only); (repeat' split) <;> simp
@[simp] theorem tableEvent_con (s : State) (n : Nat) (e : CircuitEvent) : (s.tableEvent n e).con = s.con := by unfold tableEvent; (try dsimp only); (repeat' split) <;> simp
@[simp] theorem tableEvent_aux (s : State) (n : Nat) (e : CircuitEvent) : (s.tableEvent n e).aux = s.aux := by unfold tableEvent; (try dsimp only); (repeat' split) <;> simp
@[simp] theorem tableEvent_bank (s : State) (n : Nat) (e : CircuitEvent) : (s.tableEvent n e).bank = s.bank := by unfold tableEvent; (try dsimp only); (repeat' split) <;> simp
@[simp] theorem tableEvent_patch (s : State) (n : Nat) (e : CircuitEvent) : (s.tableEvent n e).patch = s.patch := by unfold tableEvent; (try dsimp only); (repeat' split) <;> simp
@[simp] theorem tableEvent_eng (s : State) (n : Nat) (e : CircuitEvent) : (s.tableEvent n e).eng = s.eng := by unfold tableEvent; (try dsimp only); (repeat' split) <;> simp
@[simp] theorem tableEvent_slots (s : State) (n : Nat) (e : CircuitEvent) : (s.tableEvent n e).slots = s.slots := by unfold tableEvent; (try dsimp only); (repeat' split) <;> simp
@[simp] theorem tableEvent_merge (s : State) (n : Nat) (e : CircuitEvent) : (s.tableEvent n e).merge = s.merge := by unfold tableEvent; (try dsimp only); (repeat' split) <;> simp
@[simp] theorem tableEvent_cas (s : State) (n : Nat) (e : CircuitEvent) : (s.tableEvent n e).cas = s.cas := by unfold tableEvent; (try dsimp only); (repeat' split) <;> simp
@[simp] theorem tableEvent_inputs (s : State) (n : Nat) (e : CircuitEvent) : (s.tableEvent n e).inputs = s.inputs := by unfold tableEvent; (try dsimp only); (repeat' split) <;> simp
@[simp] theorem tableEvent_sup (s : State) (n : Nat) (e : CircuitEvent) : (s.tableEvent n e).sup = s.sup := by unfold tableEvent; (try dsimp only); (repeat' split) <;> simp
@[simp] theorem tableEvent_free (s : State) (n : Nat) (e : CircuitEvent) : (s.tableEvent n e).free = s.free := by unfold tableEvent; (try dsimp only); (repeat' split) <;> simp
@[simp] theorem tableEvent_wire (s : State) (n : Nat) (e : CircuitEvent) : (s.tableEvent n e).wire = s.wire := by unfold tableEvent; (try dsimp only); (repeat' split) <;> simp
@[simp] theorem tableEvent_pending (s : State) (n : Nat) (e : CircuitEvent) : (s.tableEvent n e).pending = s.pending := by unfold tableEvent; (try dsimp only); (repeat' split) <;> simp

@[simp] theorem setDebounce_store (s : State) (l : Fin 6) (i : Nat) (d : Debounce) : (s.setDebounce l i d).store = s.store := by simp [setDebounce]
@[simp] theorem setDebounce_ctl (s : State) (l : Fin 6) (i : Nat) (d : Debounce) : (s.setDebounce l i d).ctl = s.ctl := by simp [setDebounce]
@[simp] theorem setDebounce_con (s : State) (l : Fin 6) (i : Nat) (d : Debounce) : (s.setDebounce l i d).con = s.con := by simp [setDebounce]
@[simp] theorem setDebounce_aux (s : State) (l : Fin 6) (i : Nat) (d : Debounce) : (s.setDebounce l i d).aux = s.aux := by simp [setDebounce]
@[simp] theorem setDebounce_link (s : State) (l : Fin 6) (i : Nat) (d : Debounce) : (s.setDebounce l i d).link = s.link := by simp [setDebounce]
@[simp] theorem setDebounce_bank (s : State) (l : Fin 6) (i : Nat) (d : Debounce) : (s.setDebounce l i d).bank = s.bank := by simp [setDebounce]
@[simp] theorem setDebounce_patch (s : State) (l : Fin 6) (i : Nat) (d : Debounce) : (s.setDebounce l i d).patch = s.patch := by simp [setDebounce]
@[simp] theorem setDebounce_eng (s : State) (l : Fin 6) (i : Nat) (d : Debounce) : (s.setDebounce l i d).eng = s.eng := by simp [setDebounce]
@[simp] theorem setDebounce_slots (s : State) (l : Fin 6) (i : Nat) (d : Debounce) : (s.setDebounce l i d).slots = s.slots := by simp [setDebounce]
@[simp] theorem setDebounce_merge (s : State) (l : Fin 6) (i : Nat) (d : Debounce) : (s.setDebounce l i d).merge = s.merge := by simp [setDebounce]
@[simp] theorem setDebounce_cas (s : State) (l : Fin 6) (i : Nat) (d : Debounce) : (s.setDebounce l i d).cas = s.cas := by simp [setDebounce]
@[simp] theorem setDebounce_inputs (s : State) (l : Fin 6) (i : Nat) (d : Debounce) : (s.setDebounce l i d).inputs = s.inputs := by simp [setDebounce]
@[simp] theorem setDebounce_sup (s : State) (l : Fin 6) (i : Nat) (d : Debounce) : (s.setDebounce l i d).sup = s.sup := by simp [setDebounce]
@[simp] theorem setDebounce_free (s : State) (l : Fin 6) (i : Nat) (d : Debounce) : (s.setDebounce l i d).free = s.free := by simp [setDebounce]
@[simp] theorem setDebounce_wire (s : State) (l : Fin 6) (i : Nat) (d : Debounce) : (s.setDebounce l i d).wire = s.wire := by simp [setDebounce]
@[simp] theorem setDebounce_pending (s : State) (l : Fin 6) (i : Nat) (d : Debounce) : (s.setDebounce l i d).pending = s.pending := by simp [setDebounce]

@[simp] theorem releaseParks_store (s : State) : (s.releaseParks).store = s.store := by unfold releaseParks; (try dsimp only); (repeat' split) <;> simp
@[simp] theorem releaseParks_ctl (s : State) : (s.releaseParks).ctl = s.ctl := by unfold releaseParks; (try dsimp only); (repeat' split) <;> simp
@[simp] theorem releaseParks_con (s : State) : (s.releaseParks).con = s.con := by unfold releaseParks; (try dsimp only); (repeat' split) <;> simp
@[simp] theorem releaseParks_aux (s : State) : (s.releaseParks).aux = s.aux := by unfold releaseParks; (try dsimp only); (repeat' split) <;> simp
@[simp] theorem releaseParks_bank (s : State) : (s.releaseParks).bank = s.bank := by unfold releaseParks; (try dsimp only); (repeat' split) <;> simp
@[simp] theorem releaseParks_patch (s : State) : (s.releaseParks).patch = s.patch := by unfold releaseParks; (try dsimp only); (repeat' split) <;> simp
@[simp] theorem releaseParks_eng (s : State) : (s.releaseParks).eng = s.eng := by unfold releaseParks; (try dsimp only); (repeat' split) <;> simp
@[simp] theorem releaseParks_slots (s : State) : (s.releaseParks).slots = s.slots := by unfold releaseParks; (try dsimp only); (repeat' split) <;> simp
@[simp] theorem releaseParks_outp (s : State) : (s.releaseParks).outp = s.outp := by unfold releaseParks; (try dsimp only); (repeat' split) <;> simp
@[simp] theorem releaseParks_cas (s : State) : (s.releaseParks).cas = s.cas := by unfold releaseParks; (try dsimp only); (repeat' split) <;> simp
@[simp] theorem releaseParks_inputs (s : State) : (s.releaseParks).inputs = s.inputs := by unfold releaseParks; (try dsimp only); (repeat' split) <;> simp
@[simp] theorem releaseParks_sup (s : State) : (s.releaseParks).sup = s.sup := by unfold releaseParks; (try dsimp only); (repeat' split) <;> simp
@[simp] theorem releaseParks_free (s : State) : (s.releaseParks).free = s.free := by unfold releaseParks; (try dsimp only); (repeat' split) <;> simp
@[simp] theorem releaseParks_wire (s : State) : (s.releaseParks).wire = s.wire := by unfold releaseParks; (try dsimp only); (repeat' split) <;> simp
@[simp] theorem releaseParks_pending (s : State) : (s.releaseParks).pending = s.pending := by unfold releaseParks; (try dsimp only); (repeat' split) <;> simp

@[simp] theorem showActive_store (s : State) (b : Option Bank) (c : Change) : (s.showActive b c).store = s.store := by simp [showActive]
@[simp] theorem showActive_ctl (s : State) (b : Option Bank) (c : Change) : (s.showActive b c).ctl = s.ctl := by simp [showActive]
@[simp] theorem showActive_con (s : State) (b : Option Bank) (c : Change) : (s.showActive b c).con = s.con := by simp [showActive]
@[simp] theorem showActive_aux (s : State) (b : Option Bank) (c : Change) : (s.showActive b c).aux = s.aux := by simp [showActive]
@[simp] theorem showActive_bank (s : State) (b : Option Bank) (c : Change) : (s.showActive b c).bank = s.bank := by simp [showActive]
@[simp] theorem showActive_patch (s : State) (b : Option Bank) (c : Change) : (s.showActive b c).patch = s.patch := by simp [showActive]
@[simp] theorem showActive_eng (s : State) (b : Option Bank) (c : Change) : (s.showActive b c).eng = s.eng := by simp [showActive]
@[simp] theorem showActive_slots (s : State) (b : Option Bank) (c : Change) : (s.showActive b c).slots = s.slots := by simp [showActive]
@[simp] theorem showActive_merge (s : State) (b : Option Bank) (c : Change) : (s.showActive b c).merge = s.merge := by simp [showActive]
@[simp] theorem showActive_outp (s : State) (b : Option Bank) (c : Change) : (s.showActive b c).outp = s.outp := by simp [showActive]
@[simp] theorem showActive_cas (s : State) (b : Option Bank) (c : Change) : (s.showActive b c).cas = s.cas := by simp [showActive]
@[simp] theorem showActive_inputs (s : State) (b : Option Bank) (c : Change) : (s.showActive b c).inputs = s.inputs := by simp [showActive]
@[simp] theorem showActive_sup (s : State) (b : Option Bank) (c : Change) : (s.showActive b c).sup = s.sup := by simp [showActive]
@[simp] theorem showActive_free (s : State) (b : Option Bank) (c : Change) : (s.showActive b c).free = s.free := by simp [showActive]
@[simp] theorem showActive_wire (s : State) (b : Option Bank) (c : Change) : (s.showActive b c).wire = s.wire := by simp [showActive]
@[simp] theorem showActive_pending (s : State) (b : Option Bank) (c : Change) : (s.showActive b c).pending = s.pending := by simp [showActive]

@[simp] theorem withdrawFetches_store (s : State) : (s.withdrawFetches).store = s.store := by rfl
@[simp] theorem withdrawFetches_con (s : State) : (s.withdrawFetches).con = s.con := by rfl
@[simp] theorem withdrawFetches_aux (s : State) : (s.withdrawFetches).aux = s.aux := by rfl
@[simp] theorem withdrawFetches_link (s : State) : (s.withdrawFetches).link = s.link := by rfl
@[simp] theorem withdrawFetches_bank (s : State) : (s.withdrawFetches).bank = s.bank := by rfl
@[simp] theorem withdrawFetches_patch (s : State) : (s.withdrawFetches).patch = s.patch := by rfl
@[simp] theorem withdrawFetches_eng (s : State) : (s.withdrawFetches).eng = s.eng := by rfl
@[simp] theorem withdrawFetches_slots (s : State) : (s.withdrawFetches).slots = s.slots := by rfl
@[simp] theorem withdrawFetches_merge (s : State) : (s.withdrawFetches).merge = s.merge := by rfl
@[simp] theorem withdrawFetches_outp (s : State) : (s.withdrawFetches).outp = s.outp := by rfl
@[simp] theorem withdrawFetches_cas (s : State) : (s.withdrawFetches).cas = s.cas := by rfl
@[simp] theorem withdrawFetches_inputs (s : State) : (s.withdrawFetches).inputs = s.inputs := by rfl
@[simp] theorem withdrawFetches_sup (s : State) : (s.withdrawFetches).sup = s.sup := by rfl
@[simp] theorem withdrawFetches_free (s : State) : (s.withdrawFetches).free = s.free := by rfl
@[simp] theorem withdrawFetches_wire (s : State) : (s.withdrawFetches).wire = s.wire := by rfl
@[simp] theorem withdrawFetches_pending (s : State) : (s.withdrawFetches).pending = s.pending := by rfl

@[simp] theorem commitPlayback_store (s : State) (p : PbId) : (s.commitPlayback p).store = s.store := by simp [commitPlayback]
@[simp] theorem commitPlayback_ctl (s : State) (p : PbId) : (s.commitPlayback p).ctl = s.ctl := by simp [commitPlayback]
@[simp] theorem commitPlayback_bank (s : State) (p : PbId) : (s.commitPlayback p).bank = s.bank := by simp [commitPlayback]
@[simp] theorem commitPlayback_patch (s : State) (p : PbId) : (s.commitPlayback p).patch = s.patch := by simp [commitPlayback]
@[simp] theorem commitPlayback_merge (s : State) (p : PbId) : (s.commitPlayback p).merge = s.merge := by simp [commitPlayback]
@[simp] theorem commitPlayback_outp (s : State) (p : PbId) : (s.commitPlayback p).outp = s.outp := by simp [commitPlayback]
@[simp] theorem commitPlayback_cas (s : State) (p : PbId) : (s.commitPlayback p).cas = s.cas := by simp [commitPlayback]
@[simp] theorem commitPlayback_free (s : State) (p : PbId) : (s.commitPlayback p).free = s.free := by simp [commitPlayback]
@[simp] theorem commitPlayback_wire (s : State) (p : PbId) : (s.commitPlayback p).wire = s.wire := by simp [commitPlayback]
@[simp] theorem commitPlayback_pending (s : State) (p : PbId) : (s.commitPlayback p).pending = s.pending := by simp [commitPlayback]

@[simp] theorem endChangeover_store (s : State) : (s.endChangeover).store = s.store := by rfl
@[simp] theorem endChangeover_con (s : State) : (s.endChangeover).con = s.con := by rfl
@[simp] theorem endChangeover_aux (s : State) : (s.endChangeover).aux = s.aux := by rfl
@[simp] theorem endChangeover_link (s : State) : (s.endChangeover).link = s.link := by rfl
@[simp] theorem endChangeover_eng (s : State) : (s.endChangeover).eng = s.eng := by rfl
@[simp] theorem endChangeover_slots (s : State) : (s.endChangeover).slots = s.slots := by rfl
@[simp] theorem endChangeover_merge (s : State) : (s.endChangeover).merge = s.merge := by rfl
@[simp] theorem endChangeover_outp (s : State) : (s.endChangeover).outp = s.outp := by rfl
@[simp] theorem endChangeover_cas (s : State) : (s.endChangeover).cas = s.cas := by rfl
@[simp] theorem endChangeover_inputs (s : State) : (s.endChangeover).inputs = s.inputs := by rfl
@[simp] theorem endChangeover_sup (s : State) : (s.endChangeover).sup = s.sup := by rfl
@[simp] theorem endChangeover_free (s : State) : (s.endChangeover).free = s.free := by rfl
@[simp] theorem endChangeover_wire (s : State) : (s.endChangeover).wire = s.wire := by rfl
@[simp] theorem endChangeover_pending (s : State) : (s.endChangeover).pending = s.pending := by rfl

@[simp] theorem answerOwed_store (s : State) (o : Option Byte) (st : Status) (b : List Byte) : (s.answerOwed o st b).store = s.store := by unfold answerOwed; (repeat' split) <;> simp
@[simp] theorem answerOwed_ctl (s : State) (o : Option Byte) (st : Status) (b : List Byte) : (s.answerOwed o st b).ctl = s.ctl := by unfold answerOwed; (repeat' split) <;> simp
@[simp] theorem answerOwed_link (s : State) (o : Option Byte) (st : Status) (b : List Byte) : (s.answerOwed o st b).link = s.link := by unfold answerOwed; (repeat' split) <;> simp
@[simp] theorem answerOwed_bank (s : State) (o : Option Byte) (st : Status) (b : List Byte) : (s.answerOwed o st b).bank = s.bank := by unfold answerOwed; (repeat' split) <;> simp
@[simp] theorem answerOwed_patch (s : State) (o : Option Byte) (st : Status) (b : List Byte) : (s.answerOwed o st b).patch = s.patch := by unfold answerOwed; (repeat' split) <;> simp
@[simp] theorem answerOwed_eng (s : State) (o : Option Byte) (st : Status) (b : List Byte) : (s.answerOwed o st b).eng = s.eng := by unfold answerOwed; (repeat' split) <;> simp
@[simp] theorem answerOwed_slots (s : State) (o : Option Byte) (st : Status) (b : List Byte) : (s.answerOwed o st b).slots = s.slots := by unfold answerOwed; (repeat' split) <;> simp
@[simp] theorem answerOwed_merge (s : State) (o : Option Byte) (st : Status) (b : List Byte) : (s.answerOwed o st b).merge = s.merge := by unfold answerOwed; (repeat' split) <;> simp
@[simp] theorem answerOwed_outp (s : State) (o : Option Byte) (st : Status) (b : List Byte) : (s.answerOwed o st b).outp = s.outp := by unfold answerOwed; (repeat' split) <;> simp
@[simp] theorem answerOwed_cas (s : State) (o : Option Byte) (st : Status) (b : List Byte) : (s.answerOwed o st b).cas = s.cas := by unfold answerOwed; (repeat' split) <;> simp
@[simp] theorem answerOwed_inputs (s : State) (o : Option Byte) (st : Status) (b : List Byte) : (s.answerOwed o st b).inputs = s.inputs := by unfold answerOwed; (repeat' split) <;> simp
@[simp] theorem answerOwed_sup (s : State) (o : Option Byte) (st : Status) (b : List Byte) : (s.answerOwed o st b).sup = s.sup := by unfold answerOwed; (repeat' split) <;> simp
@[simp] theorem answerOwed_free (s : State) (o : Option Byte) (st : Status) (b : List Byte) : (s.answerOwed o st b).free = s.free := by unfold answerOwed; (repeat' split) <;> simp
@[simp] theorem answerOwed_wire (s : State) (o : Option Byte) (st : Status) (b : List Byte) : (s.answerOwed o st b).wire = s.wire := by unfold answerOwed; (repeat' split) <;> simp
@[simp] theorem answerOwed_pending (s : State) (o : Option Byte) (st : Status) (b : List Byte) : (s.answerOwed o st b).pending = s.pending := by unfold answerOwed; (repeat' split) <;> simp

end Sys2Proof.Machine.State
end

