-- ==== Sys2Proof/Laws/Operands.lean ====
section
/-! SUPPORT. The body checks: each parser gives BAD_LENGTH exactly for a body that is not of the size of its fields, and
BAD_VALUE exactly for one of that size with a field outside its range (R169). -/

namespace Sys2Proof.Machine

/-- A parser makes the BAD_LENGTH and BAD_VALUE checks of a kind, in that order, and no other. -/
def Checks {β : Type} (code : Nat) (parse : List Byte → Except Status β) : Prop :=
  ∀ b, (bodyFits code b = false → parse b = .error .badLength)
    ∧ (bodyFits code b = true → fieldOutOfRange code b = true → parse b = .error .badValue)
    ∧ (bodyPasses code b = true → ∃ v, parse b = .ok v)

/-- A parser of a body of one size makes the checks, where its value is missing exactly for a field outside its range. -/
theorem checks_of {β : Type} {code : Nat} {parse : List Byte → Except Status β} (size : List Byte → Nat)
    (value : List Byte → Option β) (hs : ∀ b, bodyFits code b = decide (size b = b.length))
    (hp : ∀ b, parse b = sized (size b) b (value b)) (hv : ∀ b, (value b).isNone = fieldOutOfRange code b) :
    Checks code parse := by
  intro b
  have := hv b
  simp only [bodyPasses, hs, hp, sized]
  by_cases h : size b = b.length
  · cases hx : value b <;> simp_all
  · simp [h, Ne.symm h]

theorem bodyFits_fixed {code n : Nat} (hn : bodySize code = some n) (hc : ∀ b, countedSize code b = none) (b : List Byte) :
    bodyFits code b = decide (n = b.length) := by
  simp [bodyFits, hn, hc]

theorem bodyFits_counted {code : Nat} {size : List Byte → Nat} (hn : bodySize code = none)
    (hc : ∀ b, countedSize code b = some (size b)) (b : List Byte) : bodyFits code b = decide (size b = b.length) := by
  simp [bodyFits, hn, hc]

/-! ### The ranges of the fields -/

theorem isChannel_iff (n : Nat) : isChannel n = true ↔ 1 ≤ n ∧ n ≤ 1536 := by
  rw [isChannel, Bool.and_eq_true, decide_eq_true_eq, decide_eq_true_eq]; rfl

theorem isCircuit_iff (n : Nat) : isCircuit n = true ↔ 1 ≤ n ∧ n ≤ 2304 := by
  rw [isCircuit, Bool.and_eq_true, decide_eq_true_eq, decide_eq_true_eq]; rfl

theorem isChannel_eq (n : Nat) : isChannel n = !outside 1 1536 n := by
  rw [Bool.eq_iff_iff, isChannel_iff]; simp [outside]; omega

theorem isCircuit_eq (n : Nat) : isCircuit n = !outside 1 2304 n := by
  rw [Bool.eq_iff_iff, isCircuit_iff]; simp [outside]; omega

theorem not_and_le {x y : Bool} (h : x = !y) (l : Nat) : (!(x && decide (l ≤ 1000))) = (y || decide (1000 < l)) := by
  subst h
  rw [Bool.not_and, Bool.not_not, ← decide_not]; simp only [Nat.not_le]

theorem isCueNumber_iff (n : Nat) : isCueNumber n = true ↔ 1 ≤ n ∧ n ≤ 9999 := by
  rw [isCueNumber, Bool.and_eq_true, decide_eq_true_eq, decide_eq_true_eq]

theorem isTime_iff (n : Nat) : isTime n = true ↔ n ≤ 6000 := by simp [isTime]

theorem isOptTime_iff (n : Nat) : isOptTime n = true ↔ n ≤ 6000 ∨ n = 65535 := by
  rw [isOptTime, Bool.or_eq_true, decide_eq_true_eq, decide_eq_true_eq]; rfl

theorem isOptCueNumber_iff (n : Nat) : isOptCueNumber n = true ↔ (1 ≤ n ∧ n ≤ 9999) ∨ n = 65535 := by
  rw [isOptCueNumber, Bool.or_eq_true, isCueNumber_iff, decide_eq_true_eq]; rfl

theorem isText_iff (t : List Byte) : isText t = true ↔ unprintable t = false := by
  simp only [isText, unprintable, List.all_eq_true, List.any_eq_false, outside, Bool.and_eq_true, decide_eq_true_eq, Bool.or_eq_true]
  exact forall_congr' fun x => forall_congr' fun _ => by omega

theorem isNone_idx4 (n : Nat) : (idx4 n).isNone = outside 1 4 n := by
  unfold idx4 outside; split <;> simp <;> omega

theorem isNone_bank (n : Nat) : (bank? n).isNone = outside 0 3 n := by
  unfold bank? outside; split <;> simp <;> omega

theorem isNone_line (n : Nat) : (line? n).isNone = outside 1 6 n := by
  unfold line? outside; split <;> simp <;> omega

theorem isNone_stage (n : Nat) : (stage? n).isNone = outside 1 3 n := by
  unfold stage? outside; split <;> simp <;> omega

theorem isNone_policy (n : Nat) : (policy? n).isNone = decide (2 < n) := by
  rcases n with _ | _ | _ | n <;> simp [policy?]

theorem isNone_faultKind (n : Nat) : (faultKind? n).isNone = outside 1 4 n := by
  rcases n with _ | _ | _ | _ | _ | n <;> simp [faultKind?, outside]

theorem isNone_inputSetting (n : Nat) : (inputSetting? n).isNone = decide (2 < n) := by
  rcases n with _ | _ | _ | n <;> simp [inputSetting?]

theorem isNone_bankList (b : List Byte) : (bankList b).isNone = (outside 0 3 (byteAt b 0) || outside 1 4 (byteAt b 1)) := by
  rw [← isNone_bank, ← isNone_idx4]; unfold bankList
  cases bank? (byteAt b 0) <;> cases idx4 (byteAt b 1) <;> rfl

theorem isNone_window (b : List Byte) (i : Nat) : (windowAt b i).isNone = (decide (1 < byteAt b i)
    || (byteAt b i = 1 && (outside 1 2304 (wordAt b (i + 1)) || outside 1 2304 (wordAt b (i + 3))
      || wordAt b (i + 3) < wordAt b (i + 1) || outside 1 1536 (wordAt b (i + 5))))) := by
  unfold windowAt
  simp only [isCircuit_iff, isChannel_iff, outside]
  rw [Bool.eq_iff_iff]
  split_ifs <;> simp_all <;> omega

theorem isNone_patchPair (b : List Byte) (i : Nat) : (patchPairAt b i).isNone = (outside 1 2304 (wordAt b i)
    || (wordAt b (i + 2) != 65535 && (outside 1 1536 (wordAt b (i + 2)) || 100 < byteAt b (i + 4)
      || 7 < byteAt b (i + 5)))) := by
  unfold patchPairAt
  simp only [isCircuit_iff, isChannel_iff, outside, Config.absent]
  rw [Bool.eq_iff_iff]
  split_ifs <;> simp_all <;> omega

theorem isNone_ite {α : Type} (c : Prop) [Decidable c] (a : α) : (if c then some a else none).isNone = !decide c := by
  by_cases h : c <;> simp [h]

theorem isNone_bind {α β : Type} (x : Option α) (c : Prop) [Decidable c] (f : α → β) :
    (x.bind fun a => if c then some (f a) else none).isNone = (x.isNone || !decide c) := by
  cases x <;> by_cases h : c <;> simp [h]

theorem isNone_map {α β : Type} (x : Option α) (f : α → β) : (x.map f).isNone = x.isNone := by cases x <;> rfl

/-- Numbers in a row rise strictly when each is below the next. -/
theorem risesStrictly_range (n : Nat) (f : Nat → Nat) :
    risesStrictly ((List.range n).map f) = true ↔ ∀ i, i < n - 1 → f i < f (i + 1) := by
  induction n generalizing f with
  | zero => simp [risesStrictly]
  | succ n ih =>
    rw [List.range_succ_eq_map, List.map_cons, List.map_map]
    cases n with
    | zero => simp [risesStrictly]
    | succ n =>
      have h := ih (f ∘ Nat.succ)
      rw [List.range_succ_eq_map, List.map_cons] at h ⊢
      simp only [risesStrictly, Bool.and_eq_true, decide_eq_true_eq, h]
      constructor
      · rintro ⟨h0, h1⟩ i hi
        cases i with
        | zero => exact h0
        | succ i => exact h1 i (by omega)
      · exact fun hh => ⟨hh 0 (by omega), fun i hi => hh (i + 1) (by omega)⟩

/-! ### The parsers of bodies of one fixed size -/

theorem checks_none (code : Nat) (h : code ∈ [0x02, 0x0C, 0x0D, 0x22, 0x23, 0x49, 0x51, 0x5D, 0x5E]) :
    Checks code parseNone := by
  refine checks_of (fun _ => 0) (fun _ => some ()) (bodyFits_fixed ?_ ?_) (fun _ => rfl) ?_
  · fin_cases h <;> rfl
  · intro b; fin_cases h <;> rfl
  · intro b; fin_cases h <;> rfl

theorem checks_playback (code : Nat) (h : code ∈ [0x05, 0x31, 0x32, 0x33]) : Checks code parsePlayback := by
  refine checks_of (fun _ => 1) (fun b => idx4 (byteAt b 0)) (bodyFits_fixed ?_ ?_) (fun _ => rfl) ?_
  · fin_cases h <;> rfl
  · intro b; fin_cases h <;> rfl
  · intro b; rw [isNone_idx4]; fin_cases h <;> rfl

theorem checks_bank (code : Nat) (h : code = 0x0A ∨ code = 0x52) : Checks code parseBank := by
  rcases h with rfl | rfl <;>
    exact checks_of (fun _ => 1) _ (bodyFits_fixed rfl fun _ => rfl) (fun _ => rfl) fun _ => isNone_bank _

theorem checks_levelsRead : Checks 0x03 parseLevelsRead :=
  checks_of (fun _ => 5) _ (bodyFits_fixed rfl fun _ => rfl) (fun _ => rfl) fun b => by
    by_cases h : byteAt b 0 = 5
    · simp [fieldOutOfRange, h]
    · simp only [h, if_false, isNone_ite, isChannel_iff, Config.channels]
      rw [Bool.eq_iff_iff]; simp [fieldOutOfRange, outside, h]; omega

theorem checks_circuitRead : Checks 0x04 parseCircuitRead :=
  checks_of (fun _ => 3) _ (bodyFits_fixed rfl fun _ => rfl) (fun _ => rfl) fun b => by
    simp only [isNone_ite, isCircuit_iff, Config.circuits]
    rw [Bool.eq_iff_iff]; simp [fieldOutOfRange, outside]; omega

theorem checks_rackRead : Checks 0x06 parseRackRead :=
  checks_of (fun _ => 1) _ (bodyFits_fixed rfl fun _ => rfl) (fun _ => rfl) fun _ => isNone_line _

theorem checks_stageRead : Checks 0x07 parseStageRead :=
  checks_of (fun _ => 1) _ (bodyFits_fixed rfl fun _ => rfl) (fun _ => rfl) fun _ => isNone_stage _

theorem checks_cueRead : Checks 0x08 parseCueRead :=
  checks_of (fun _ => 6) _ (bodyFits_fixed rfl fun _ => rfl) (fun _ => rfl) fun b => by
    simp only [isNone_bind, isNone_bankList, isCueNumber_iff]
    rw [Bool.eq_iff_iff]; simp [fieldOutOfRange, outside]; omega

theorem checks_listRead : Checks 0x09 parseListRead :=
  checks_of (fun _ => 4) _ (bodyFits_fixed rfl fun _ => rfl) (fun _ => rfl) fun b => by
    rw [isNone_bind, isNone_bankList, Bool.eq_iff_iff]; simp [fieldOutOfRange, outside]

theorem checks_patchRead : Checks 0x0B parsePatchRead :=
  checks_of (fun _ => 4) _ (bodyFits_fixed rfl fun _ => rfl) (fun _ => rfl) fun b => by
    simp only [isNone_bind, isNone_bank, isCircuit_iff, Config.circuits]
    rw [Bool.eq_iff_iff]; simp [fieldOutOfRange, outside]; omega

theorem checks_houseRead : Checks 0x0E parseHouseRead :=
  checks_of (fun _ => 1) _ (bodyFits_fixed rfl fun _ => rfl) (fun _ => rfl) fun b => by
    rw [isNone_ite, Bool.eq_iff_iff]; simp [fieldOutOfRange]

theorem checks_slotRead : Checks 0x0F parseSlotRead :=
  checks_of (fun _ => 3) _ (bodyFits_fixed rfl fun _ => rfl) (fun _ => rfl) fun b => by
    rw [isNone_ite, Bool.eq_iff_iff, show Config.slots = 48 from rfl]; simp [fieldOutOfRange, outside]; omega

theorem checks_cueDelete : Checks 0x24 parseCueDelete :=
  checks_of (fun _ => 4) _ (bodyFits_fixed rfl fun _ => rfl) (fun _ => rfl) fun b => by
    simp only [isNone_bind, isNone_bankList, isCueNumber_iff]
    rw [Bool.eq_iff_iff]; simp [fieldOutOfRange, outside]

theorem checks_windowSet : Checks 0x26 parseWindowSet :=
  checks_of (fun _ => 29) _ (bodyFits_fixed rfl fun _ => rfl) (fun _ => rfl) fun b => by
    have e : fieldOutOfRange 0x26 b = ((bank? (byteAt b 0)).isNone || ((windowAt b 1).isNone || ((windowAt b 8).isNone
        || ((windowAt b 15).isNone || (windowAt b 22).isNone)))) := by
      rw [isNone_bank, isNone_window, isNone_window, isNone_window, isNone_window]
      simp [fieldOutOfRange, List.range_succ]
    rw [e]
    cases bank? (byteAt b 0) <;> cases windowAt b 1 <;> cases windowAt b 8 <;> cases windowAt b 15 <;>
      cases windowAt b 22 <;> rfl

theorem checks_go : Checks 0x30 parseGo :=
  checks_of (fun _ => 3) _ (bodyFits_fixed rfl fun _ => rfl) (fun _ => rfl) fun b => by
    rw [isNone_map, isNone_idx4]; rfl

theorem checks_jump : Checks 0x34 parseJump :=
  checks_of (fun _ => 3) _ (bodyFits_fixed rfl fun _ => rfl) (fun _ => rfl) fun b => by
    simp only [isNone_bind, isNone_idx4, isCueNumber_iff]
    rw [Bool.eq_iff_iff]; simp [fieldOutOfRange, outside]

theorem checks_release : Checks 0x35 parseRelease :=
  checks_of (fun _ => 3) _ (bodyFits_fixed rfl fun _ => rfl) (fun _ => rfl) fun b => by
    rw [isNone_map, isNone_idx4]; rfl

theorem checks_master : Checks 0x36 parseMaster :=
  checks_of (fun _ => 3) _ (bodyFits_fixed rfl fun _ => rfl) (fun _ => rfl) fun b => by
    rw [isNone_ite, Bool.eq_iff_iff]; simp [fieldOutOfRange]

theorem checks_park : Checks 0x40 parsePark :=
  checks_of (fun _ => 4) _ (bodyFits_fixed rfl fun _ => rfl) (fun _ => rfl) fun b => by
    simp only [isNone_ite, isChannel_iff]
    rw [Bool.eq_iff_iff]; simp [fieldOutOfRange, outside]

theorem checks_unpark : Checks 0x41 parseUnpark :=
  checks_of (fun _ => 2) _ (bodyFits_fixed rfl fun _ => rfl) (fun _ => rfl) fun b => by
    rw [isNone_ite, Bool.eq_iff_iff, show Config.channels = 1536 from rfl]; simp [fieldOutOfRange]

theorem checks_faultClear : Checks 0x48 parseFaultClear :=
  checks_of (fun _ => 3) _ (bodyFits_fixed rfl fun _ => rfl) (fun _ => rfl) fun b => by
    simp only [isCircuit_iff]
    split_ifs with h1 h2
    · simp [fieldOutOfRange, h1]
    · rw [isNone_map, isNone_faultKind, Bool.eq_iff_iff]; simp [fieldOutOfRange, outside]; omega
    · simp [fieldOutOfRange]; omega

theorem checks_changeover : Checks 0x50 parseChangeover :=
  checks_of (fun _ => 2) _ (bodyFits_fixed rfl fun _ => rfl) (fun _ => rfl) fun b => by
    rw [isNone_bind, isNone_bank, Bool.eq_iff_iff]; simp [fieldOutOfRange]

theorem checks_houseSet : Checks 0x53 parseHouseSet :=
  checks_of (fun _ => 3) _ (bodyFits_fixed rfl fun _ => rfl) (fun _ => rfl) fun b => by
    unfold houseSetItem
    split
    · split_ifs
      · simp [fieldOutOfRange, outside, *]
      · rw [isNone_map, isNone_bank, Bool.eq_iff_iff]; simp [fieldOutOfRange, outside, *]; omega
    all_goals simp [fieldOutOfRange, outside, isNone_policy, *]
    · split_ifs <;> rfl
    · rename_i h1 h2 h3 h4 h5 h6
      change ¬ _ at h1; change ¬ _ at h2; change ¬ _ at h3; change ¬ _ at h4; change ¬ _ at h5; change ¬ _ at h6
      omega

theorem checks_curveSet : Checks 0x54 parseCurveSet :=
  checks_of (fun _ => 43) _ (bodyFits_fixed rfl fun _ => rfl) (fun _ => rfl) fun b => by
    rw [isNone_ite, Bool.eq_iff_iff]; simp [fieldOutOfRange, outside]

theorem checks_lineSet : Checks 0x57 parseLineSet :=
  checks_of (fun _ => 5) _ (bodyFits_fixed rfl fun _ => rfl) (fun _ => rfl) fun b => by
    rw [isNone_ite, Bool.eq_iff_iff]; simp [fieldOutOfRange, outside, isLine]; omega

theorem checks_inputSet : Checks 0x58 parseInputSet :=
  checks_of (fun _ => 4) _ (bodyFits_fixed rfl fun _ => rfl) (fun _ => rfl) fun b => by
    have e : fieldOutOfRange 0x58 b = ((idx4 (byteAt b 0)).isNone || decide (1 < byteAt b 1) || (idx4 (byteAt b 2)).isNone
        || (inputSetting? (byteAt b 3)).isNone) := by
      rw [isNone_idx4, isNone_idx4, isNone_inputSetting]; rfl
    rw [e]
    cases idx4 (byteAt b 0) <;> cases idx4 (byteAt b 2) <;> cases inputSetting? (byteAt b 3) <;>
      by_cases h : byteAt b 1 ≤ 1 <;> simp [h]
    all_goals omega

theorem checks_houseFade : Checks 0x59 parseHouseFade :=
  checks_of (fun _ => 5) _ (bodyFits_fixed rfl fun _ => rfl) (fun _ => rfl) fun b => by
    rw [isNone_map, isNone_idx4]; rfl

theorem checks_blackout : Checks 0x5A parseBlackout :=
  checks_of (fun _ => 1) _ (bodyFits_fixed rfl fun _ => rfl) (fun _ => rfl) fun b => by
    rw [isNone_ite, Bool.eq_iff_iff]; simp [fieldOutOfRange]

theorem checks_lineHold : Checks 0x5B parseLineHold :=
  checks_of (fun _ => 2) _ (bodyFits_fixed rfl fun _ => rfl) (fun _ => rfl) fun b => by
    rw [isNone_ite, Bool.eq_iff_iff]; simp [fieldOutOfRange]

theorem checks_accessSet : Checks 0x5C parseAccessSet :=
  checks_of (fun _ => 1) _ (bodyFits_fixed rfl fun _ => rfl) (fun _ => rfl) fun b => by
    rw [isNone_ite, Bool.eq_iff_iff]; simp [fieldOutOfRange]

/-! ### The parsers of bodies that count their own size -/

theorem checks_cueOpen : Checks 0x20 parseCueOpen :=
  checks_of (fun b => 18 + byteAt b 17) _ (bodyFits_counted rfl fun _ => rfl) (fun _ => rfl) fun b => by
    simp only [isNone_bind, isNone_bankList, isCueNumber_iff, isTime_iff, isOptTime_iff, isOptCueNumber_iff, isText_iff]
    rw [Bool.eq_iff_iff]
    cases hg : unprintable (b.drop 18) <;> simp [fieldOutOfRange, outside, hg]
    all_goals omega

theorem byteAt_lt (b : List Byte) (i : Nat) : byteAt b i < 256 := (b.getD i 0).isLt

theorem checks_cueAdd : Checks 0x21 parseCueAdd :=
  checks_of (fun b => 1 + 3 * byteAt b 0) _ (bodyFits_counted rfl fun _ => rfl) (fun _ => rfl) fun b => by
    have hb := byteAt_lt b 0
    have e : ((List.range (byteAt b 0)).map (fun i => entryAt b (1 + 3 * i))).all (fun e => isChannel e.1 && e.2 ≤ 1000) =
        !(List.range (byteAt b 0)).any (fun i =>
          let n := byteAt b (1 + 3 * i) + 256 * byteAt b (2 + 3 * i) + 65536 * byteAt b (3 + 3 * i)
          outside 1 1536 (n % 2048) || 1000 < n / 2048) := by
      rw [List.all_map, List.all_eq_not_any_not]
      congr 2; funext i
      rw [Function.comp, not_and_le (isChannel_eq _)]
      simp only [entryAt, show 1 + 3 * i + 1 = 2 + 3 * i by omega, show 1 + 3 * i + 2 = 3 + 3 * i by omega]
    rw [e, isNone_ite, Bool.eq_iff_iff]
    change _ ↔ (decide (byteAt b 0 = 0) || (List.range (byteAt b 0)).any (fun i =>
          let n := byteAt b (1 + 3 * i) + 256 * byteAt b (2 + 3 * i) + 65536 * byteAt b (3 + 3 * i)
          outside 1 1536 (n % 2048) || 1000 < n / 2048)) = true
    generalize (List.range (byteAt b 0)).any _ = g
    cases g <;> simp
    omega

theorem length_filterMap_eq {α β : Type} (f : α → Option β) (l : List α) :
    (l.filterMap f).length = l.length ↔ l.any (fun a => (f a).isNone) = false := by
  induction l with
  | nil => simp
  | cons a l ih =>
    have := List.length_filterMap_le f l
    cases h : f a <;> simp [h] at ih ⊢
    · omega
    · exact ih

/-- Where every record of a PATCH_SET body is in range, its circuits are those of the body. -/
theorem patchPairs_circuits (b : List Byte) (n : Nat)
    (h : (List.range n).any (fun i => (patchPairAt b (2 + 6 * i)).isNone) = false) :
    ((List.range n).filterMap (fun i => patchPairAt b (2 + 6 * i))).map (·.1) =
      (List.range n).map (fun i => wordAt b (2 + 6 * i)) := by
  rw [List.map_filterMap, ← List.filterMap_eq_map]
  refine List.filterMap_congr fun i hi => ?_
  have hn : ¬ (patchPairAt b (2 + 6 * i)).isNone = true := by
    rw [List.any_eq_false] at h; exact h i hi
  unfold patchPairAt at hn ⊢
  dsimp only at hn ⊢
  split_ifs at hn ⊢ <;> simp_all

theorem checks_patchSet : Checks 0x25 parsePatchSet :=
  checks_of (fun b => 2 + 6 * byteAt b 1) _ (bodyFits_counted rfl fun _ => rfl) (fun _ => rfl) fun b => by
    have hl := length_filterMap_eq (fun i => patchPairAt b (2 + 6 * i)) (List.range (byteAt b 1))
    have hp := patchPairs_circuits b (byteAt b 1)
    have hr := risesStrictly_range (byteAt b 1) (fun i => wordAt b (2 + 6 * i))
    have e : fieldOutOfRange 0x25 b = (outside 0 3 (byteAt b 0) || outside 1 64 (byteAt b 1)
        || (List.range (byteAt b 1)).any (fun i => (patchPairAt b (2 + 6 * i)).isNone)
        || (List.range (byteAt b 1 - 1)).any (fun i => decide (wordAt b (8 + 6 * i) ≤ wordAt b (2 + 6 * i)))) := by
      simp only [isNone_patchPair, show ∀ i, 2 + 6 * i + 2 = 4 + 6 * i by omega, show ∀ i, 2 + 6 * i + 4 = 6 + 6 * i by omega,
        show ∀ i, 2 + 6 * i + 5 = 7 + 6 * i by omega]
      rfl
    have hx : (∀ i, i < byteAt b 1 - 1 → wordAt b (2 + 6 * i) < wordAt b (2 + 6 * (i + 1))) ↔
        (List.range (byteAt b 1 - 1)).any (fun i => decide (wordAt b (8 + 6 * i) ≤ wordAt b (2 + 6 * i))) = false := by
      simp only [List.any_eq_false, List.mem_range, decide_eq_true_eq, Nat.not_le, show ∀ i, 2 + 6 * (i + 1) = 8 + 6 * i by omega]
    rw [isNone_bind, isNone_bank, e, Bool.eq_iff_iff]
    rw [List.length_range] at hl
    rw [hx] at hr
    cases hg : (List.range (byteAt b 1)).any (fun i => (patchPairAt b (2 + 6 * i)).isNone)
    · simp only [hl, hp hg, hr, hg]
      generalize (List.range (byteAt b 1 - 1)).any _ = g
      cases g <;> simp [outside]
    · simp [hl, hg]

theorem checks_bankTitle : Checks 0x27 parseBankTitle :=
  checks_of (fun b => 2 + byteAt b 1) _ (bodyFits_counted rfl fun _ => rfl) (fun _ => rfl) fun b => by
    simp only [isNone_bind, isNone_bank, isText_iff]
    rw [Bool.eq_iff_iff]
    cases hg : unprintable (b.drop 2) <;> simp [fieldOutOfRange, outside, hg]

theorem checks_record : Checks 0x28 parseRecord :=
  checks_of (fun b => 8 + byteAt b 7) _ (bodyFits_counted rfl fun _ => rfl) (fun _ => rfl) fun b => by
    simp only [isNone_bind, isNone_idx4, isCueNumber_iff, isTime_iff, isOptTime_iff, isText_iff]
    rw [Bool.eq_iff_iff]
    cases hg : unprintable (b.drop 8) <;> simp [fieldOutOfRange, outside, hg]
    all_goals omega

theorem checks_houseCircuitsSet : Checks 0x55 parseHouseCircuitsSet :=
  checks_of _ _ (bodyFits_counted rfl fun _ => rfl) (fun _ => rfl) fun b => by
    let next := fun (i : Nat) => i + 2 + 2 * byteAt b (i + 1)
    let groups := [0, next 0, next (next 0), next (next (next 0))]
    let members := fun (i : Nat) => (List.range (byteAt b (i + 1))).map (fun j => wordAt b (i + 2 + 2 * j))
    have e : ∀ (l : List Nat), l.all isCircuit = !l.any (outside 1 2304) := fun l => by
      rw [List.all_eq_not_any_not]
      congr 2; funext n; rw [isCircuit_eq, Bool.not_not]
    change (if (groups.map (fun i => (groupAt b i).1)).all (fun g => g.curve ≤ 7 && risesStrictly g.members)
        ∧ (groups.flatMap members).all isCircuit ∧ (groups.flatMap members).Nodup ∧ (groups.flatMap members).length ≤ 48
        then some _ else none).isNone =
      (groups.any (fun i => 7 < byteAt b i || (members i).any (outside 1 2304) || !risesStrictly (members i))
        || !decide (groups.flatMap members).Nodup || 48 < (groups.flatMap members).length)
    have c : ∀ i, (groupAt b i).1 = { curve := byteAt b i, members := members i } := fun _ => rfl
    rw [isNone_ite, e, Bool.eq_iff_iff, ← not_iff_not]
    clear_value groups members
    simp only [List.all_map, Function.comp_def, c, List.any_flatMap]
    simp
    exact ⟨fun ⟨h1, h2, h3, h4⟩ => ⟨⟨fun i hi => ⟨⟨(h1 i hi).1, h2 i hi⟩, (h1 i hi).2⟩, h3⟩, h4⟩,
      fun ⟨⟨h1, h3⟩, h4⟩ => ⟨fun i hi => ⟨(h1 i hi).1.1, (h1 i hi).2⟩, fun i hi => (h1 i hi).1.2, h3, h4⟩⟩

theorem checks_safeLookSet : Checks 0x56 parseSafeLookSet :=
  checks_of (fun b => 1 + 4 * byteAt b 0) _ (bodyFits_counted rfl fun _ => rfl) (fun _ => rfl) fun b => by
    have hr := risesStrictly_range (byteAt b 0) (fun i => wordAt b (1 + 4 * i))
    have hx : (∀ i, i < byteAt b 0 - 1 → wordAt b (1 + 4 * i) < wordAt b (1 + 4 * (i + 1))) ↔
        (List.range (byteAt b 0 - 1)).any (fun i => decide (wordAt b (5 + 4 * i) ≤ wordAt b (1 + 4 * i))) = false := by
      simp only [List.any_eq_false, List.mem_range, decide_eq_true_eq, Nat.not_le, show ∀ i, 1 + 4 * (i + 1) = 5 + 4 * i by omega]
    have e : ((List.range (byteAt b 0)).map (fun i => (wordAt b (1 + 4 * i), wordAt b (3 + 4 * i)))).all
        (fun e => isCircuit e.1 && e.2 ≤ 1000) =
        !(List.range (byteAt b 0)).any (fun i => outside 1 2304 (wordAt b (1 + 4 * i)) || 1000 < wordAt b (3 + 4 * i)) := by
      rw [List.all_map, List.all_eq_not_any_not]
      congr 2; funext i
      rw [Function.comp, not_and_le (isCircuit_eq _)]
    rw [hx] at hr
    rw [e, isNone_ite, List.map_map, Bool.eq_iff_iff]
    change _ ↔ (decide (128 < byteAt b 0) || (List.range (byteAt b 0)).any _ || (List.range (byteAt b 0 - 1)).any _) = true
    simp only [Function.comp_def, hr]
    generalize (List.range (byteAt b 0)).any _ = g
    generalize (List.range (byteAt b 0 - 1)).any _ = g'
    cases g <;> cases g' <;> simp

end Sys2Proof.Machine
end

