-- ==== Sys2Proof/Laws/PerInstr.lean ====
section
/-! SUPPORT. Per command: a request row is well formed for either port, and its kind is in Table 10-2. -/

namespace Sys2Proof.Laws.RequestRow

open Sys2Proof.Machine

/-- A command that is the taking of a request is well formed, and its kind code is in Table 10-2 (R167, R169). -/
def Statement (c : Instr) : Prop :=
  ∀ p code, requestOf c = some (p, code) → c.wf = true ∧ (kindInfo code).isSome = true

theorem deviceReset (stepMade : Option (List Nat)) : Statement (.deviceReset stepMade) := by rintro _ _ ⟨⟩
theorem roleDecided (dinSeen : Bool) : Statement (.roleDecided dinSeen) := by rintro _ _ ⟨⟩
theorem startUpReadDone (answer : StoreAnswer) : Statement (.startUpReadDone answer) := by rintro _ _ ⟨⟩
theorem startUpDecision : Statement .startUpDecision := by rintro _ _ ⟨⟩
theorem showTimeTick : Statement .showTimeTick := by rintro _ _ ⟨⟩
theorem frameReceived (port : PortId) (kind : Byte) (tag : Byte) (body : List Byte) : Statement (.frameReceived port kind tag body) := by rintro _ _ ⟨⟩
theorem portFrameError (port : PortId) : Statement (.portFrameError port) := by rintro _ _ ⟨⟩
theorem portFrameGap (port : PortId) (lateSync : Bool) : Statement (.portFrameGap port lateSync) := by rintro _ _ ⟨⟩
theorem frameSent (port : PortId) : Statement (.frameSent port) := by rintro _ _ ⟨⟩
theorem consoleSilent : Statement .consoleSilent := by rintro _ _ ⟨⟩
theorem ping (port : PortId) : Statement (.ping port) := by rintro _ _ ⟨⟩; exact ⟨rfl, rfl⟩
theorem status (port : PortId) : Statement (.status port) := by rintro _ _ ⟨⟩; exact ⟨rfl, rfl⟩
theorem levelsRead (port : PortId) : Statement (.levelsRead port) := by rintro _ _ ⟨⟩; exact ⟨rfl, rfl⟩
theorem circuitRead (port : PortId) : Statement (.circuitRead port) := by rintro _ _ ⟨⟩; exact ⟨rfl, rfl⟩
theorem playbackRead (port : PortId) : Statement (.playbackRead port) := by rintro _ _ ⟨⟩; exact ⟨rfl, rfl⟩
theorem rackRead (port : PortId) : Statement (.rackRead port) := by rintro _ _ ⟨⟩; exact ⟨rfl, rfl⟩
theorem stageRead (port : PortId) : Statement (.stageRead port) := by rintro _ _ ⟨⟩; exact ⟨rfl, rfl⟩
theorem cueRead (port : PortId) : Statement (.cueRead port) := by rintro _ _ ⟨⟩; exact ⟨rfl, rfl⟩
theorem listRead (port : PortId) : Statement (.listRead port) := by rintro _ _ ⟨⟩; exact ⟨rfl, rfl⟩
theorem bankInfo (port : PortId) : Statement (.bankInfo port) := by rintro _ _ ⟨⟩; exact ⟨rfl, rfl⟩
theorem patchRead (port : PortId) : Statement (.patchRead port) := by rintro _ _ ⟨⟩; exact ⟨rfl, rfl⟩
theorem faultsRead (port : PortId) : Statement (.faultsRead port) := by rintro _ _ ⟨⟩; exact ⟨rfl, rfl⟩
theorem faultRecordRead (port : PortId) : Statement (.faultRecordRead port) := by rintro _ _ ⟨⟩; exact ⟨rfl, rfl⟩
theorem houseRead (port : PortId) : Statement (.houseRead port) := by rintro _ _ ⟨⟩; exact ⟨rfl, rfl⟩
theorem slotRead (port : PortId) : Statement (.slotRead port) := by rintro _ _ ⟨⟩; exact ⟨rfl, rfl⟩
theorem cueOpen (port : PortId) : Statement (.cueOpen port) := by rintro _ _ ⟨⟩; exact ⟨rfl, rfl⟩
theorem cueAdd (port : PortId) : Statement (.cueAdd port) := by rintro _ _ ⟨⟩; exact ⟨rfl, rfl⟩
theorem cueClose (port : PortId) : Statement (.cueClose port) := by rintro _ _ ⟨⟩; exact ⟨rfl, rfl⟩
theorem cueAbandon (port : PortId) : Statement (.cueAbandon port) := by rintro _ _ ⟨⟩; exact ⟨rfl, rfl⟩
theorem cueDelete (port : PortId) : Statement (.cueDelete port) := by rintro _ _ ⟨⟩; exact ⟨rfl, rfl⟩
theorem patchSet (port : PortId) : Statement (.patchSet port) := by rintro _ _ ⟨⟩; exact ⟨rfl, rfl⟩
theorem windowSet (port : PortId) : Statement (.windowSet port) := by rintro _ _ ⟨⟩; exact ⟨rfl, rfl⟩
theorem bankTitle (port : PortId) : Statement (.bankTitle port) := by rintro _ _ ⟨⟩; exact ⟨rfl, rfl⟩
theorem record (port : PortId) : Statement (.record port) := by rintro _ _ ⟨⟩; exact ⟨rfl, rfl⟩
theorem go (port : PortId) : Statement (.go port) := by rintro _ _ ⟨⟩; exact ⟨rfl, rfl⟩
theorem back (port : PortId) : Statement (.back port) := by rintro _ _ ⟨⟩; exact ⟨rfl, rfl⟩
theorem hold (port : PortId) : Statement (.hold port) := by rintro _ _ ⟨⟩; exact ⟨rfl, rfl⟩
theorem resume (port : PortId) : Statement (.resume port) := by rintro _ _ ⟨⟩; exact ⟨rfl, rfl⟩
theorem jump (port : PortId) : Statement (.jump port) := by rintro _ _ ⟨⟩; exact ⟨rfl, rfl⟩
theorem release (port : PortId) : Statement (.release port) := by rintro _ _ ⟨⟩; exact ⟨rfl, rfl⟩
theorem master (port : PortId) : Statement (.master port) := by rintro _ _ ⟨⟩; exact ⟨rfl, rfl⟩
theorem park (port : PortId) : Statement (.park port) := by rintro _ _ ⟨⟩; exact ⟨rfl, rfl⟩
theorem unpark (port : PortId) : Statement (.unpark port) := by rintro _ _ ⟨⟩; exact ⟨rfl, rfl⟩
theorem faultClear (port : PortId) : Statement (.faultClear port) := by rintro _ _ ⟨⟩; exact ⟨rfl, rfl⟩
theorem faultAck (port : PortId) : Statement (.faultAck port) := by rintro _ _ ⟨⟩; exact ⟨rfl, rfl⟩
theorem changeover (port : PortId) : Statement (.changeover port) := by rintro _ _ ⟨⟩; exact ⟨rfl, rfl⟩
theorem changeoverCancel (port : PortId) : Statement (.changeoverCancel port) := by rintro _ _ ⟨⟩; exact ⟨rfl, rfl⟩
theorem bankErase (port : PortId) : Statement (.bankErase port) := by rintro _ _ ⟨⟩; exact ⟨rfl, rfl⟩
theorem houseSet (port : PortId) : Statement (.houseSet port) := by rintro _ _ ⟨⟩; exact ⟨rfl, rfl⟩
theorem curveSet (port : PortId) : Statement (.curveSet port) := by rintro _ _ ⟨⟩; exact ⟨rfl, rfl⟩
theorem houseCircuitsSet (port : PortId) : Statement (.houseCircuitsSet port) := by rintro _ _ ⟨⟩; exact ⟨rfl, rfl⟩
theorem safeLookSet (port : PortId) : Statement (.safeLookSet port) := by rintro _ _ ⟨⟩; exact ⟨rfl, rfl⟩
theorem lineSet (port : PortId) : Statement (.lineSet port) := by rintro _ _ ⟨⟩; exact ⟨rfl, rfl⟩
theorem inputSet (port : PortId) : Statement (.inputSet port) := by rintro _ _ ⟨⟩; exact ⟨rfl, rfl⟩
theorem houseFade (port : PortId) : Statement (.houseFade port) := by rintro _ _ ⟨⟩; exact ⟨rfl, rfl⟩
theorem blackout (port : PortId) : Statement (.blackout port) := by rintro _ _ ⟨⟩; exact ⟨rfl, rfl⟩
theorem lineHold (port : PortId) : Statement (.lineHold port) := by rintro _ _ ⟨⟩; exact ⟨rfl, rfl⟩
theorem accessSet (port : PortId) : Statement (.accessSet port) := by rintro _ _ ⟨⟩; exact ⟨rfl, rfl⟩
theorem lossClear (port : PortId) : Statement (.lossClear port) := by rintro _ _ ⟨⟩; exact ⟨rfl, rfl⟩
theorem restart (port : PortId) : Statement (.restart port) := by rintro _ _ ⟨⟩; exact ⟨rfl, rfl⟩
theorem unknownKindRequest (port : PortId) : Statement (.unknownKindRequest port) := by rintro _ _ ⟨⟩
theorem fetchDone (answer : StoreAnswer) : Statement (.fetchDone answer) := by rintro _ _ ⟨⟩
theorem loadStepDone (answer : StoreAnswer) : Statement (.loadStepDone answer) := by rintro _ _ ⟨⟩
theorem hostReadDone (answer : StoreAnswer) : Statement (.hostReadDone answer) := by rintro _ _ ⟨⟩
theorem writeStepDone (answer : WriteAnswer) : Statement (.writeStepDone answer) := by rintro _ _ ⟨⟩
theorem storeTimeout : Statement .storeTimeout := by rintro _ _ ⟨⟩
theorem patchNotice : Statement .patchNotice := by rintro _ _ ⟨⟩
theorem listNotice : Statement .listNotice := by rintro _ _ ⟨⟩
theorem fadeStep : Statement .fadeStep := by rintro _ _ ⟨⟩
theorem followTimerCount : Statement .followTimerCount := by rintro _ _ ⟨⟩
theorem followExpiry (playback : Nat) : Statement (.followExpiry playback) := by rintro _ _ ⟨⟩
theorem houseFadeStep : Statement .houseFadeStep := by rintro _ _ ⟨⟩
theorem darkCheck : Statement .darkCheck := by rintro _ _ ⟨⟩
theorem blendStep : Statement .blendStep := by rintro _ _ ⟨⟩
theorem followerBlendStep : Statement .followerBlendStep := by rintro _ _ ⟨⟩
theorem lineClockExpiry (line : Nat) : Statement (.lineClockExpiry line) := by rintro _ _ ⟨⟩
theorem returnFrame (line : Nat) (cleanLine : Bool) (bytes : List Byte) : Statement (.returnFrame line cleanLine bytes) := by rintro _ _ ⟨⟩
theorem contactChange (input : Nat) (closed : Bool) : Statement (.contactChange input closed) := by rintro _ _ ⟨⟩
theorem debounceExpiry (input : Nat) : Statement (.debounceExpiry input) := by rintro _ _ ⟨⟩
theorem cascadeFrameExpiry : Statement .cascadeFrameExpiry := by rintro _ _ ⟨⟩
theorem stageFrame (frame : StageFrame) : Statement (.stageFrame frame) := by rintro _ _ ⟨⟩
theorem setupFrame (frame : SetupFrame) : Statement (.setupFrame frame) := by rintro _ _ ⟨⟩
theorem cascadeFrameError (input : CasInput) : Statement (.cascadeFrameError input) := by rintro _ _ ⟨⟩
theorem cascadeByteGap (input : CasInput) : Statement (.cascadeByteGap input) := by rintro _ _ ⟨⟩
theorem leaderLost : Statement .leaderLost := by rintro _ _ ⟨⟩
theorem upFrameSend : Statement .upFrameSend := by rintro _ _ ⟨⟩
theorem upFrame (frame : UpFrame) : Statement (.upFrame frame) := by rintro _ _ ⟨⟩
theorem stageLost (stage : Nat) : Statement (.stageLost stage) := by rintro _ _ ⟨⟩
theorem orphanWatchExpiry : Statement .orphanWatchExpiry := by rintro _ _ ⟨⟩
theorem engineFault (place : Nat) : Statement (.engineFault place) := by rintro _ _ ⟨⟩
theorem syncAfterBytesPassedOver (port : PortId) : Statement (.syncAfterBytesPassedOver port) := by rintro _ _ ⟨⟩

end Sys2Proof.Laws.RequestRow
end

