-- ==== Sys2Proof/Laws/Tables.lean ====
section
/-! SUPPORT. The sparse tables: what finding, inserting, erasing and writing do, and that each keeps the canonical form. -/

namespace Sys2Proof.Machine

variable {α : Type}

@[simp] theorem Assoc.find_nil (k : Nat) : Assoc.find ([] : Assoc α) k = none := rfl

theorem Assoc.find_cons (e : Nat × α) (m : Assoc α) (k : Nat) :
    Assoc.find (e :: m) k = if e.1 = k then some e.2 else Assoc.find m k := by
  unfold Assoc.find
  by_cases h : e.1 = k <;> simp [h]

/-- A value inserted is found under its number, and no other number is touched. -/
theorem Assoc.find_insert (m : Assoc α) (k j : Nat) (v : α) :
    Assoc.find (Assoc.insert k v m) j = if j = k then some v else Assoc.find m j := by
  induction m with
  | nil => simp [Assoc.insert, Assoc.find_cons, eq_comm]
  | cons e rest ih =>
    simp only [Assoc.insert]
    split
    · simp [Assoc.find_cons, eq_comm]
    · split
      · rename_i h1 h2
        simp only [Assoc.find_cons]
        by_cases h : j = k
        · simp [h]
        · have h3 : ¬ k = j := fun h' => h h'.symm
          have h4 : ¬ e.1 = j := fun h' => h (h'.symm.trans h2.symm)
          simp [h, h3, h4]
      · rename_i h1 h2
        simp only [Assoc.find_cons, ih]
        by_cases h : e.1 = j
        · have : ¬ j = k := fun h' => h2 (h'.symm.trans h.symm)
          simp [h, this]
        · simp [h]

/-- Nothing is found under a number erased, and no other number is touched. -/
theorem Assoc.find_erase (m : Assoc α) (k j : Nat) :
    Assoc.find (Assoc.erase k m) j = if j = k then none else Assoc.find m j := by
  induction m with
  | nil => simp [Assoc.erase]
  | cons e rest ih =>
    simp only [Assoc.erase, List.filter_cons] at *
    by_cases h : e.1 = k
    · simp only [h, ne_eq, not_true_eq_false, decide_false, Bool.false_eq_true, ↓reduceIte, ih, Assoc.find_cons]
      by_cases h' : j = k
      · simp [h']
      · have : ¬ k = j := fun h'' => h' h''.symm
        simp [h', this]
    · simp only [h, ne_eq, not_false_eq_true, decide_true, ↓reduceIte, Assoc.find_cons, ih]
      by_cases h' : e.1 = j
      · have : ¬ j = k := fun h'' => h (h'.trans h'')
        simp [h', this]
      · simp [h']

/-- A put sets or empties its number alone. -/
theorem Assoc.find_put (m : Assoc α) (k j : Nat) (v : Option α) :
    Assoc.find (Assoc.put k v m) j = if j = k then v else Assoc.find m j := by
  cases v <;> simp [Assoc.put, Assoc.find_insert, Assoc.find_erase]

/-! ### The canonical form -/

theorem risesStrictly_iff (l : List Nat) : risesStrictly l = true ↔ l.Pairwise (· < ·) := by
  induction l with
  | nil => simp [risesStrictly]
  | cons a t ih =>
    cases t with
    | nil => simp [risesStrictly]
    | cons b r =>
      simp only [risesStrictly, Bool.and_eq_true, decide_eq_true_eq, ih]
      constructor
      · intro ⟨h, hp⟩
        refine List.pairwise_cons.2 ⟨fun c hc => ?_, hp⟩
        rcases List.mem_cons.1 hc with rfl | hc
        · exact h
        · exact h.trans ((List.pairwise_cons.1 hp).1 c hc)
      · intro hp
        exact ⟨(List.pairwise_cons.1 hp).1 b (by simp), (List.pairwise_cons.1 hp).2⟩

theorem Assoc.wf_iff (m : Assoc α) : Assoc.wf m = true ↔ (m.map (·.1)).Pairwise (· < ·) := risesStrictly_iff _

theorem Assoc.mem_keys_insert (m : Assoc α) (k j : Nat) (v : α) :
    j ∈ (Assoc.insert k v m).map (·.1) → j = k ∨ j ∈ m.map (·.1) := by
  induction m with
  | nil => simp [Assoc.insert]
  | cons e rest ih =>
    simp only [Assoc.insert]
    split
    · simp
    · split
      · rename_i h; simp only [List.map_cons, List.mem_cons]; intro h'; rcases h' with h' | h' <;> simp [h']
      · simp only [List.map_cons, List.mem_cons]
        intro h'
        rcases h' with h' | h'
        · simp [h']
        · rcases ih h' with h'' | h'' <;> simp [h'']

/-- An insertion keeps the canonical form. -/
theorem Assoc.wf_insert (m : Assoc α) (k : Nat) (v : α) (h : Assoc.wf m = true) : Assoc.wf (Assoc.insert k v m) = true := by
  rw [Assoc.wf_iff] at *
  induction m with
  | nil => simp [Assoc.insert]
  | cons e rest ih =>
    simp only [List.map_cons, List.pairwise_cons] at h
    simp only [Assoc.insert]
    split
    · rename_i h1
      simp only [List.map_cons, List.pairwise_cons, List.mem_cons]
      refine ⟨fun j hj => ?_, h⟩
      rcases hj with rfl | hj
      · exact h1
      · exact h1.trans (h.1 j hj)
    · split
      · rename_i h1 h2
        simp only [List.map_cons, List.pairwise_cons]
        exact ⟨fun j hj => h2 ▸ h.1 j hj, h.2⟩
      · rename_i h1 h2
        simp only [List.map_cons, List.pairwise_cons]
        refine ⟨fun j hj => ?_, ih h.2⟩
        rcases Assoc.mem_keys_insert rest k j v hj with rfl | hj
        · omega
        · exact h.1 j hj

/-- An erasure keeps the canonical form. -/
theorem Assoc.wf_erase (m : Assoc α) (k : Nat) (h : Assoc.wf m = true) : Assoc.wf (Assoc.erase k m) = true := by
  rw [Assoc.wf_iff] at *
  exact h.sublist (List.filter_sublist.map _)

theorem Assoc.wf_put (m : Assoc α) (k : Nat) (v : Option α) (h : Assoc.wf m = true) : Assoc.wf (Assoc.put k v m) = true := by
  cases v
  · exact Assoc.wf_erase m k h
  · exact Assoc.wf_insert m k _ h

/-! ### Looks -/

@[simp] theorem Look.level_nil (c : Nat) : Look.level [] c = 0 := rfl

/-- A level written is read back, and no other channel is touched (R63). -/
theorem Look.level_write (l : Look) (c d v : Nat) : (l.write c v).level d = if d = c then v else l.level d := by
  unfold Look.write Look.level
  by_cases hv : v = 0
  · rw [if_pos hv]
    by_cases h : d = c <;> simp [Assoc.find_erase, h, hv]
  · rw [if_neg hv]
    by_cases h : d = c <;> simp [Assoc.find_insert, h]

theorem Look.wf_write (l : Look) (c v : Nat) (h : Assoc.wf l = true) : Assoc.wf (l.write c v) = true := by
  unfold Look.write
  split
  · exact Assoc.wf_erase l c h
  · exact Assoc.wf_insert l c v h

/-- A run of levels written leaves every channel it does not name. -/
theorem Look.level_writes_other (ms : List Move) (f : Move → Nat) (l : Look) (c : Nat)
    (h : ∀ m ∈ ms, m.channel ≠ c) : (ms.foldl (fun (l : Look) m => l.write m.channel (f m)) l).level c = l.level c := by
  induction ms generalizing l with
  | nil => rfl
  | cons m t ih =>
    simp only [List.foldl_cons]
    rw [ih _ (fun m' hm' => h m' (by simp [hm'])), Look.level_write,
      if_neg (fun h' => h m (by simp) h'.symm)]

/-- A run of levels written leaves on a channel the level of the one move that names it. -/
theorem Look.level_writes_mem (ms : List Move) (f : Move → Nat) (l : Look) (m : Move) (hm : m ∈ ms)
    (h : ∀ m' ∈ ms, m'.channel = m.channel → m' = m) :
    (ms.foldl (fun (l : Look) m => l.write m.channel (f m)) l).level m.channel = f m := by
  induction ms generalizing l with
  | nil => simp at hm
  | cons a t ih =>
    simp only [List.foldl_cons]
    by_cases hmt : m ∈ t
    · exact ih _ hmt (fun m' hm' => h m' (by simp [hm']))
    · have ha : a = m := by
        rcases List.mem_cons.1 hm with h' | h'
        · exact h'.symm
        · exact absurd h' hmt
      subst ha
      rw [Look.level_writes_other t f _ a.channel
        (fun m' hm' hc => hmt (h m' (by simp [hm']) hc ▸ hm')), Look.level_write, if_pos rfl]

/-! ### Patches -/

/-- Pairs of ascending circuits written into a patch: each circuit named takes its entry, and every other keeps its own
(R30). -/
theorem find_writePairs (pairs : List (Nat × Option PatchEntry)) (m : Assoc PatchEntry) (k : Nat) :
    Assoc.find (writePairs pairs m) k
      = match (pairs.reverse.find? (fun e => e.1 = k)) with
        | some e => e.2
        | none => Assoc.find m k := by
  unfold writePairs
  induction pairs generalizing m with
  | nil => simp
  | cons e t ih =>
    simp only [List.foldl_cons, List.reverse_cons, List.find?_append, ih]
    cases h : t.reverse.find? (fun e => decide (e.1 = k)) with
    | some x => simp
    | none =>
      simp only [Option.none_or, List.find?_singleton, Assoc.find_put]
      by_cases h' : e.1 = k
      · simp [h']
      · have : ¬ k = e.1 := fun h'' => h' h''.symm
        simp [h', this]

theorem wf_writePairs (pairs : List (Nat × Option PatchEntry)) (m : Assoc PatchEntry) (h : Assoc.wf m = true) :
    Assoc.wf (writePairs pairs m) = true := by
  unfold writePairs
  induction pairs generalizing m with
  | nil => exact h
  | cons e t ih => exact ih _ (Assoc.wf_put m _ _ h)

/-! ### Rising lists of channels -/

theorem mem_insertNat (n j : Nat) (l : List Nat) : j ∈ insertNat n l ↔ j = n ∨ j ∈ l := by
  induction l with
  | nil => simp [insertNat]
  | cons a t ih =>
    simp only [insertNat]
    split
    · simp
    · split
      · rename_i h; subst h; simp
      · simp only [List.mem_cons, ih]; tauto

theorem pairwise_insertNat (n : Nat) (l : List Nat) (h : l.Pairwise (· < ·)) : (insertNat n l).Pairwise (· < ·) := by
  induction l with
  | nil => simp [insertNat]
  | cons a t ih =>
    rw [List.pairwise_cons] at h
    simp only [insertNat]
    split
    · rename_i h1
      refine List.pairwise_cons.2 ⟨fun j hj => ?_, List.pairwise_cons.2 h⟩
      rcases List.mem_cons.1 hj with rfl | hj
      · exact h1
      · exact h1.trans (h.1 j hj)
    · split
      · exact List.pairwise_cons.2 h
      · rename_i h1 h2
        refine List.pairwise_cons.2 ⟨fun j hj => ?_, ih h.2⟩
        rcases (mem_insertNat n j t).1 hj with rfl | hj
        · omega
        · exact h.1 j hj

theorem mem_insertNats (l acc : List Nat) (j : Nat) :
    j ∈ l.foldl (fun a c => insertNat c a) acc ↔ j ∈ l ∨ j ∈ acc := by
  induction l generalizing acc with
  | nil => simp
  | cons a t ih => simp only [List.foldl_cons, ih, mem_insertNat, List.mem_cons]; tauto

theorem pairwise_insertNats (l acc : List Nat) (h : acc.Pairwise (· < ·)) :
    (l.foldl (fun a c => insertNat c a) acc).Pairwise (· < ·) := by
  induction l generalizing acc with
  | nil => exact h
  | cons a t ih => exact ih _ (pairwise_insertNat a acc h)

/-- The channels above 0 or held by a move, and no others (R68, R76). -/
theorem mem_litOrHeld (p : PbId) (look : Look) (slots : List Slot) (c : Nat) :
    c ∈ litOrHeld p look slots ↔
      (∃ e ∈ look, e.1 = c) ∨ ∃ x ∈ slots, x.playback = p ∧ ∃ m ∈ x.moves, m.channel = c := by
  unfold litOrHeld heldChannels
  rw [mem_insertNats]
  simp only [List.mem_flatMap, List.mem_filter, List.mem_map, decide_eq_true_eq]
  constructor
  · rintro (⟨x, ⟨h1, h2⟩, m, h3, h4⟩ | ⟨e, h1, h2⟩)
    · exact .inr ⟨x, h1, h2, m, h3, h4⟩
    · exact .inl ⟨e, h1, h2⟩
  · rintro (⟨e, h1, h2⟩ | ⟨x, h1, h2, m, h3, h4⟩)
    · exact .inr ⟨e, h1, h2⟩
    · exact .inl ⟨x, ⟨h1, h2⟩, m, h3, h4⟩

end Sys2Proof.Machine
end

