-- ==== Sys2Proof/Laws/Store.lean ====
section
/-! SUPPORT. The store port, the queues, the start-up reads and the slot table: what the arbiter leaves, and how the lengths
move. -/

namespace Sys2Proof.Machine

namespace State

/-- Whether the store port is calm depends on the Store Controller, the changeover record and the list notices alone. -/
theorem calm_congr {s t : State} (h1 : t.ctl = s.ctl) (h2 : t.bank = s.bank) (h3 : t.eng.notices = s.eng.notices) :
    t.Calm ↔ s.Calm := by
  simp only [Calm, loadWaiting, h1, h2, h3]

/-- Whether a notice goes first depends on the port's operation and the list notices alone. -/
theorem noticeGoesFirst_congr {s t : State} (h1 : t.ctl.op = s.ctl.op) (h2 : t.eng.notices = s.eng.notices) :
    t.NoticeGoesFirst ↔ s.NoticeGoesFirst := by
  simp only [NoticeGoesFirst, h1, h2]

/-- A free port waits while a list notice is to be taken, once the start-up reads have ended (R59; log 50). -/
theorem arbitrate_waits {s : State} (hs : s.ctl.startUp = none) (hn : s.eng.notices ≠ []) : s.arbitrate = s := by
  unfold arbitrate
  simp [hs, hn]

/-- A calm port grants nothing: it is busy, or waits for a notice, or has no claim (R9). -/
theorem arbitrate_of_calm {s : State} (h : s.Calm) : s.arbitrate = s := by
  rcases h with h | ⟨hs, hn⟩ | ⟨hs, hf, hl, hh, hq⟩
  · unfold arbitrate; rw [if_pos h]
  · exact arbitrate_waits hs hn
  · have hff : s.firstFetch = none := by simp [firstFetch, four, hf]
    unfold arbitrate; split
    · rfl
    · rw [hs]; dsimp only
      split
      · rfl
      · rw [hff, hl, hh, hq]; rfl

theorem firstFetch_none {s : State} (h : s.firstFetch = none) (p : PbId) : s.ctl.fetches.get p = none := by
  simp only [firstFetch, four, List.findSome?_eq_none_iff, Option.map_eq_none_iff] at h
  fin_cases p <;> exact h _ (by simp)

/-- The head writes tested one after another end in a granted write or an empty queue (R12). -/
theorem grantWrite_op (n : Nat) (s : State) (h : s.ctl.queue.length ≤ n) :
    (grantWrite n s).ctl.op = some .write ∨ ((grantWrite n s).ctl.queue = [] ∧ (grantWrite n s).ctl.op = s.ctl.op) := by
  induction n generalizing s with
  | zero => exact .inr ⟨List.length_eq_zero_iff.mp (Nat.le_zero.mp h), rfl⟩
  | succ n ih =>
    unfold grantWrite
    split
    · rename_i hq; exact .inr ⟨hq, rfl⟩
    · rename_i w rest hq
      split
      · rename_i st hs
        have he : (s.endHeadWrite st []).ctl.queue = rest ∧ (s.endHeadWrite st []).ctl.op = s.ctl.op := by
          unfold endHeadWrite; rw [hq]; constructor <;> simp [answer_ctl]
        have := ih (s.endHeadWrite st []) (by rw [he.1]; rw [hq] at h; simpa using h)
        rwa [he.2] at this
      · exact .inl rfl

/-- What the writes that end at the head leave of the rest of the Store Controller. -/
theorem grantWrite_ctl (n : Nat) (s : State) : (grantWrite n s).ctl.startUp = s.ctl.startUp
    ∧ (grantWrite n s).ctl.fetches = s.ctl.fetches ∧ (grantWrite n s).ctl.loadClaim = s.ctl.loadClaim
    ∧ (grantWrite n s).ctl.hostReads = s.ctl.hostReads ∧ (grantWrite n s).ctl.ram = s.ctl.ram
    ∧ (grantWrite n s).ctl.proj = s.ctl.proj ∧ (grantWrite n s).ctl.held = s.ctl.held
    ∧ (grantWrite n s).ctl.failed = s.ctl.failed ∧ (grantWrite n s).ctl.houseFailed = s.ctl.houseFailed
    ∧ (grantWrite n s).ctl.queue.length ≤ s.ctl.queue.length := by
  induction n generalizing s with
  | zero => simp [grantWrite]
  | succ n ih =>
    unfold grantWrite
    split
    · simp
    · rename_i w rest hq
      split
      · rename_i st hs
        have h := ih (s.endHeadWrite st [])
        have he : (s.endHeadWrite st []).ctl = { s.ctl with queue := rest, eraseStep := 0 } := by
          unfold endHeadWrite; rw [hq]; simp [answer_ctl]
        rw [he] at h
        refine ⟨h.1, h.2.1, h.2.2.1, h.2.2.2.1, h.2.2.2.2.1, h.2.2.2.2.2.1, h.2.2.2.2.2.2.1, h.2.2.2.2.2.2.2.1,
          h.2.2.2.2.2.2.2.2.1, ?_⟩
        have := h.2.2.2.2.2.2.2.2.2
        rw [hq]; exact Nat.le_succ_of_le this
      · simp

/-- After the arbiter the port is busy, or waits for a notice, or has no claim (R9). -/
theorem calm_arbitrate (s : State) : s.arbitrate.Calm := by
  unfold arbitrate
  split
  · rename_i h; exact .inl h
  · rename_i hop
    split
    · exact .inl rfl
    · rename_i hs
      split
      · rename_i hn; exact .inr (.inl ⟨hs, hn⟩)
      · split
        · exact .inl rfl
        · rename_i hf
          split
          · exact .inl rfl
          · rename_i hl
            split
            · exact .inl rfl
            · rename_i hh
              rcases grantWrite_op s.ctl.queue.length s (Nat.le_refl _) with h | ⟨h, -⟩
              · exact .inl (by simp [h])
              · have hg := grantWrite_ctl s.ctl.queue.length s
                refine .inr (.inr ⟨by rw [hg.1, hs], fun p => by rw [hg.2.1]; exact firstFetch_none hf p, ?_,
                  by rw [hg.2.2.2.1, hh], h⟩)
                simpa [loadWaiting, hg.2.2.1] using hl

/-- After the end of a command that may ask for the port or free it, the port is busy, or waits for a notice, or has no claim
(R9). -/
theorem calm_settle (s : State) : s.settle.Calm :=
  (calm_congr (by simp [settle]) (by simp [settle]) (by simp [settle])).mpr (calm_arbitrate s)

/-- The arbiter grants a write only where no list notice waits (R59). -/
theorem noticeGoesFirst_arbitrate {s : State} (h : s.NoticeGoesFirst) : s.arbitrate.NoticeGoesFirst := by
  refine ⟨?_, by rw [arbitrate_eng]; exact h.2⟩
  rw [arbitrate_eng]
  unfold arbitrate
  split
  · exact h.1
  · split
    · intro e; simp at e
    · split
      · exact h.1
      · rename_i hn; intro _; exact not_not.mp hn

/-- What a command leaves keeps its order of notice and write through the grant at its end. -/
theorem noticeGoesFirst_settle {s : State} (h : s.NoticeGoesFirst) : s.settle.NoticeGoesFirst :=
  (noticeGoesFirst_congr (by simp [settle]) (by simp [settle])).mpr (noticeGoesFirst_arbitrate h)

/-- The arbiter takes nothing into the store queue. -/
theorem arbitrate_queue_le (s : State) : s.arbitrate.ctl.queue.length ≤ s.ctl.queue.length := by
  unfold arbitrate
  (repeat' split) <;> first | exact Nat.le_refl _ | exact (grantWrite_ctl _ _).2.2.2.2.2.2.2.2.2

/-- A report joins a queue that never passes 16 (R173). -/
theorem report_length (s : State) (k : Nat) (u : Bool) (b : List Byte) (h : s.link.reports.length ≤ 16) :
    (s.report k u b).link.reports.length ≤ 16 := by
  unfold report; dsimp only
  split_ifs with h1 h2 h3
  · exact h
  · simp only [Config.reportQueue] at h2; simp only [List.length_append, List.length_singleton]; omega
  · have ha : s.link.reports.any (fun x => !x.urgent) = true := h3.2
    obtain ⟨x, hx, hp⟩ := List.any_eq_true.mp ha
    have hl := List.length_eraseP_of_mem (p := fun x : Report => !x.urgent) hx hp
    have : 0 < s.link.reports.length := List.length_pos_of_mem hx
    simp only [List.length_append, List.length_singleton, hl]; omega
  · exact h

/-- The transmitters take from the report queue and put nothing into it. -/
theorem pump_reports_le (s : State) : s.pump.link.reports.length ≤ s.link.reports.length := by
  unfold pump startReport
  split
  · simp only [startReplies, startReply_link, dropReport]
    split_ifs
    · exact (List.eraseP_sublist).length_le
    · simp
  · simp [startReplies]

/-- Working out a projection anew keeps the writes of the queue, in their order (R14). -/
theorem reproject_length (b : Bank) (h : Header) (q : List WriteEntry) : (reproject b h q).2.length = q.length := by
  induction q generalizing h with
  | nil => rfl
  | cons w rest ih =>
    unfold reproject
    (repeat' split) <;> rename_i he <;> exact congrArg (· + 1) ((congrArg (fun x => x.2.length) he).symm.trans (ih _))

/-- A free port goes on with the start-up read that is due (R2). -/
theorem arbitrate_startUp {s : State} {i : Nat} (h : s.ctl.op = none) (hs : s.ctl.startUp = some i) :
    s.arbitrate.ctl = { s.ctl with op := some (.startUp i) } := by
  unfold arbitrate; simp [h, hs]

/-- What the arbiter keeps of the Store Controller whatever it grants. -/
theorem arbitrate_kept (s : State) : s.arbitrate.ctl.held = s.ctl.held ∧ s.arbitrate.ctl.failed = s.ctl.failed
    ∧ s.arbitrate.ctl.ram = s.ctl.ram ∧ s.arbitrate.ctl.proj = s.ctl.proj ∧ s.arbitrate.ctl.startUp = s.ctl.startUp
    ∧ s.arbitrate.ctl.houseFailed = s.ctl.houseFailed := by
  unfold arbitrate
  (repeat' split) <;> first | exact ⟨rfl, rfl, rfl, rfl, rfl, rfl⟩ | skip
  · have := grantWrite_ctl s.ctl.queue.length s
    exact ⟨this.2.2.2.2.2.2.1, this.2.2.2.2.2.2.2.1, this.2.2.2.2.1, this.2.2.2.2.2.1, this.1, this.2.2.2.2.2.2.2.2.1⟩

/-- The end of a command changes nothing inside the ports and the report queue but the Store Controller. -/
theorem inside_settle (s : State) : s.settle.inside = ({ s with ctl := s.settle.ctl }).inside := by
  rw [show s.settle.inside = s.arbitrate.inside from inside_pump _]
  simp [inside, settle]

/-! ### Start-up reads -/

/-- A start-up read that does not pass hands over the default, and its item is listed as failed (R2). -/
theorem houseRead_fails (s : State) (i : Nat) : s.houseRead i false =
    ({ s with ctl := { s.ctl with failed := s.ctl.failed ++ [i] } } : State).handOver (.item (defaultItem i) false) := by
  unfold houseRead
  cases s.storedItem i <;> rfl

/-- The delivery of a house item leaves the Store Controller alone. -/
theorem deliver_ctl (s : State) (item : HouseItem) (c : Bool) : (s.deliver item c).ctl = s.ctl := by
  cases item
  case line =>
    simp only [deliver, deliverLine, startLines]
    (repeat' split) <;> rfl
  all_goals rfl

/-- A state that agrees inside with the delivery of a house item, but for the Store Controller, has been handed the item
(Table 1-1, R130). -/
theorem deliver_hasHanded (s : State) (item : HouseItem) (v w : State) (hw : w = s.deliver item false)
    (hv : v.inside = ({ w with ctl := v.ctl }).inside) : s.HasHanded item v := by
  cases item with
  | groups g =>
    have : v.patch = w.patch := by have := congrArg State.patch hv; exact this
    subst hw
    refine ⟨?_, ?_⟩
    · show v.inside = _
      rw [this, hv]; rfl
    · rw [this]; intro k; fin_cases k <;> rfl
  | line st l x =>
    simp only [deliver, deliverLine] at hw
    unfold HasHanded
    cases hl : line? l with
    | none => rw [hl] at hw; subst hw; simp only [hl]; exact hv
    | some i =>
      cases hst : stage? st with
      | some n => rw [hl, hst] at hw; subst hw; simp only [hl, hst]; exact hv
      | none =>
        rw [hl, hst] at hw
        simp only [Bool.false_eq_true, if_false] at hw
        generalize hg : s.outp.lines.set i { s.line i with settings := some x } = ls
        have hw : w = ({ s with outp := { s.outp with lines := ls } } : State).startLines := by rw [hw, ← hg]; rfl
        have hall : ({ s with outp := { s.outp with lines := ls } } : State).isLeader = true ∧ s.outp.started = false ∧ ls.toList.all (fun x => x.settings.isSome) = true ↔
          (s.isLeader = true ∧ s.outp.started = false ∧ ∀ k, (ls.get k).settings ≠ none) := by
          refine and_congr Iff.rfl (and_congr Iff.rfl ?_)
          constructor
          · intro h k hk
            simp [Six.toList] at h
            fin_cases k <;> simp_all [Six.get]
          · intro h
            simp [Six.toList, Option.isSome_iff_ne_none]
            exact ⟨h 0, h 1, h 2, h 3, h 4, h 5⟩
        simp only [hl, hst]
        rw [hg]
        constructor
        · intro hn
          rw [startLines, if_neg (fun h => hn (hall.mp h))] at hw
          subst hw; exact hv
        · intro ha
          rw [startLines, if_pos (hall.mpr ha)] at hw
          have ho : v.outp = w.outp := by have := congrArg (fun u : State => u.outp) hv; exact this
          have hol : v.outp.lines = ls.map Line.start := by rw [ho, hw]
          constructor
          · rw [hv, hol, hw]
          · intro k y hy
            have : v.line k = (ls.map Line.start).get k := by rw [State.line, hol]
            rw [this]
            have hm : ∀ (ls : Six Line), (ls.map Line.start).get k = (ls.get k).start := by intro ls; fin_cases k <;> rfl
            rw [hm, Line.start, hy]
            clear hw hv ho this hm hg hall
            cases he : y.enabled <;> simp [Line.enable, linePeriod, ← hy, he]
  | _ => subst hw; exact hv

/-! ### Requests that may ask for the store port -/

/-- A request that passes the general checks is handed to the work of its rule, and the port then grants (R9, R167). -/
theorem takeStoreRequest_takes {β : Type} {s : State} {p : PortId} {code : Nat} {r : Request} {rest : List Request}
    {parse : List Byte → Except Status β} {work : State → Requester → β → State} {v : β} (hc : code < 256)
    (h : s.Takes p code r rest) (hp : parse r.body = .ok v) :
    s.takeStoreRequest p code parse work = (work (s.takeOff p rest) (requesterOf p r) v).settle := by
  unfold takeStoreRequest; rw [takeRequest_takes hc h hp]; rfl

/-- A request taken off its queue and answered, before the transmitters act. -/
theorem answered_answer (s : State) (p : PortId) (r : Request) (rest : List Request) (st : Status) (b : List Byte) :
    s.Answered ((s.takeOff p rest).answer (requesterOf p r) st b) p rest [replyTo r st b] := by
  have h := answer_port (s.takeOff p rest) p r st b
  have h3 := takeOff_port s p rest
  unfold Answered
  rw [h.1, h.2, h3.1, h3.2]
  have ho := outgoing_append ({ s.port p with requests := rest, owed := (s.port p).owed + 1 }) [replyTo r st b]
  refine ⟨rfl, rfl, ?_, rfl, rfl, rfl, rfl, rfl, rfl, rfl, rfl, rfl⟩
  exact ho

/-- A request whose work ends in an answer is answered at once, with nothing else done (R168). -/
theorem answers_of {β : Type} {s : State} {p : PortId} {code : Nat} {r : Request} {rest : List Request}
    {parse : List Byte → Except Status β} {work : State → Requester → β → State} {v : β} {st : Status} {b : List Byte}
    {c : Instr} (hx : exec c s = .next (s.takeStoreRequest p code parse work)) (hc : code < 256)
    (h : s.Takes p code r rest) (hp : parse r.body = .ok v)
    (hw : work (s.takeOff p rest) (requesterOf p r) v = (s.takeOff p rest).answer (requesterOf p r) st b) :
    Answers c s p r rest st b s :=
  ⟨_, by rw [hx, takeStoreRequest_takes hc h hp, hw], answered_answer s p r rest st b, by simp, by simp⟩

end State

/-! ### The slot table -/

theorem mem_insertSlot (x y : Slot) (l : List Slot) : y ∈ insertSlot x l ↔ y = x ∨ y ∈ l := by
  induction l with
  | nil => simp [insertSlot]
  | cons z rest ih => unfold insertSlot; split_ifs <;> simp [ih]; tauto

theorem length_insertSlot (x : Slot) (l : List Slot) : (insertSlot x l).length = l.length + 1 := by
  induction l with
  | nil => rfl
  | cons z rest ih => unfold insertSlot; split_ifs <;> simp [ih]

/-- A slot put in its place is a permutation of the slots with it in front. -/
theorem insertSlot_perm (x : Slot) (l : List Slot) : (insertSlot x l).Perm (x :: l) := by
  induction l with
  | nil => exact List.Perm.refl _
  | cons z rest ih =>
    unfold insertSlot; split_ifs
    · exact List.Perm.refl _
    · exact (ih.cons z).trans (List.Perm.swap x z rest)

theorem poolUse_insertSlot (x : Slot) (l : List Slot) : poolUse (insertSlot x l) = x.moves.length + poolUse l := by
  unfold poolUse
  rw [((insertSlot_perm x l).map _).sum_eq]; simp

/-- A takeover leaves the slots of other playbacks as they are (R90). -/
theorem takeover_others (p : PbId) (ms : List Move) (l : List Slot) :
    (takeover p ms l).filter (fun x => x.playback ≠ p) = l.filter (fun x => x.playback ≠ p) := by
  unfold takeover
  induction l with
  | nil => rfl
  | cons x l ih =>
    by_cases hp : x.playback = p
    · by_cases hf : x.freedBy p ms = true
      · simp [hp, hf] at ih ⊢
        exact ih
      · have hl : (x.loses p ms).playback = p := by simp [Slot.loses, hp]
        simp [hp, hf, hl] at ih ⊢
        exact ih
    · have e : x.loses p ms = x := by simp [Slot.loses, hp]
      have hf : x.freedBy p ms = false := by
        unfold Slot.freedBy; rw [e]; cases x.moves.isEmpty <;> rfl
      simp [hp, hf, e] at ih ⊢
      exact ih

/-- A takeover of a playback that has no slots changes nothing, as at the creation of a RELEASE slot (R76, R90). -/
theorem takeover_withoutSlotsOf (p : PbId) (ms : List Move) (l : List Slot) :
    takeover p ms (withoutSlotsOf p l) = withoutSlotsOf p l := by
  have none_of_p : ∀ x ∈ withoutSlotsOf p l, x.playback ≠ p := by simp [withoutSlotsOf]
  have kept : ∀ x ∈ withoutSlotsOf p l, x.loses p ms = x := fun x hx => by simp [Slot.loses, none_of_p x hx]
  unfold takeover
  rw [List.filter_eq_self.mpr fun x hx => by simp [Slot.freedBy, kept x hx]]
  exact (List.map_congr_left kept).trans (List.map_id _)

/-- The moves of a RELEASE hold every channel that the slots of its playback move (R76). -/
theorem releaseMoves_all (p : PbId) (look : Look) (slots : List Slot) :
    ∀ y ∈ slots, y.playback = p → ∀ m ∈ y.moves, movesChannel (releaseMoves p look slots) m.channel = true := by
  intro y hy hp m hm
  simp only [movesChannel, releaseMoves, List.any_map, List.any_eq_true, Function.comp, decide_eq_true_eq]
  exact ⟨m.channel, (mem_litOrHeld _ _ _ _).mpr (.inr ⟨y, hy, hp, m, hm, rfl⟩), rfl⟩

/-- The takeover of a RELEASE's channels frees every older slot of the playback that holds a move, so that step 5 of R76 frees
beyond it only those that hold none (R76, R90; log 45). -/
theorem releaseMoves_free (p : PbId) (look : Look) (slots : List Slot) {y : Slot} (hy : y ∈ slots) (hp : y.playback = p)
    (hm : y.moves ≠ []) : y.freedBy p (releaseMoves p look slots) = true := by
  have lost : (y.loses p (releaseMoves p look slots)).moves = [] := by
    simp only [Slot.loses, hp, if_true, List.filter_eq_nil_iff]
    intro m hm; simp [releaseMoves_all p look slots y hy hp m hm]
  simp [Slot.freedBy, lost, hm]

/-- The capacity tests of a new slot, as their three outcomes (R68). -/
theorem capacityRefusal_spec (slots kept : List Slot) (room : Slot → Bool) (moves : List Move) :
    let full := 48 ≤ slots.length ∧ ∀ y ∈ slots, room y = false
    (full → capacityRefusal slots kept room moves = some .noSlot)
    ∧ (¬ full → 16384 < poolUse kept + moves.length → capacityRefusal slots kept room moves = some .poolFull)
    ∧ (¬ full → poolUse kept + moves.length ≤ 16384 → capacityRefusal slots kept room moves = none) := by
  intro full
  have tests : (Config.slots ≤ slots.length ∧ slots.all (fun sl => !room sl) = true) ↔ full := by
    simp [full, Config.slots]
  unfold capacityRefusal
  refine ⟨fun h => if_pos (tests.mpr h), fun h hp => ?_, fun h hp => ?_⟩
  · rw [if_neg (mt tests.mp h), if_pos]; exact hp
  · rw [if_neg (mt tests.mp h), if_neg]; exact Nat.not_lt.mpr hp

/-- The capacity tests of a RELEASE: NO_SLOT only where the table is full and the playback has no slot, then POOL_FULL over the
slots of the other playbacks (R68, R76; log 45). -/
theorem releaseRefusal_spec (p : PbId) (moves : List Move) (slots : List Slot) :
    let full := 48 ≤ slots.length ∧ ∀ y ∈ slots, y.playback ≠ p
    let others := withoutSlotsOf p slots
    (full → releaseRefusal p moves slots = some .noSlot)
    ∧ (¬ full → 16384 < poolUse others + moves.length → releaseRefusal p moves slots = some .poolFull)
    ∧ (¬ full → poolUse others + moves.length ≤ 16384 → releaseRefusal p moves slots = none) := by
  simpa [releaseRefusal] using capacityRefusal_spec slots (withoutSlotsOf p slots) (fun sl => sl.playback = p) moves

/-- A takeover only removes moves and frees slots: the numbers left are numbers of the table (R90). -/
theorem takeover_numbers (p : PbId) (ms : List Move) (l : List Slot) :
    ((takeover p ms l).map (fun x => x.number)).Sublist (l.map (fun x => x.number)) := by
  have h : (takeover p ms l).map (fun x => x.number) = (l.filter (fun sl => !sl.freedBy p ms)).map (fun x => x.number) := by
    unfold takeover
    rw [List.map_map]
    refine List.map_congr_left fun x _ => ?_
    simp only [Function.comp, Slot.loses]; split_ifs <;> rfl
  rw [h]
  exact List.Sublist.map _ List.filter_sublist

/-- The lowest free number is free and within 1 to 48, where one is free (R89). -/
theorem freeSlot_spec (l : List Slot) (h : ∃ n, 1 ≤ n ∧ n ≤ 48 ∧ ∀ x ∈ l, x.number ≠ n) :
    1 ≤ freeSlot l ∧ freeSlot l ≤ 48 ∧ ∀ x ∈ l, x.number ≠ freeSlot l := by
  obtain ⟨n, h1, h2, h3⟩ := h
  unfold freeSlot
  cases hf : ((List.range Config.slots).map (· + 1)).find? (fun n => l.all (fun sl => sl.number ≠ n)) with
  | none =>
    rw [List.find?_eq_none] at hf
    exfalso
    refine hf n (List.mem_map.mpr ⟨n - 1, List.mem_range.mpr (by simp [Config.slots]; omega), by omega⟩) ?_
    simpa using h3
  | some m =>
    obtain ⟨hm, hmem⟩ := And.intro (List.find?_some hf) (List.mem_of_find?_eq_some hf)
    obtain ⟨i, hi, rfl⟩ := List.mem_map.mp hmem
    have := List.mem_range.mp hi
    simp only [Config.slots] at this
    exact ⟨by simp, by simp; omega, by simpa using hm⟩

/-- With fewer than 48 slots of distinct numbers, a number from 1 to 48 is free. -/
theorem exists_free (l : List Slot) (h : l.length < 48) : ∃ n, 1 ≤ n ∧ n ≤ 48 ∧ ∀ x ∈ l, x.number ≠ n := by
  by_contra hc
  push Not at hc
  have hs : (List.range 48).map (· + 1) ⊆ l.map (fun x => x.number) := by
    intro n hn
    obtain ⟨i, hi, rfl⟩ := List.mem_map.mp hn
    obtain ⟨x, hx, he⟩ := hc (i + 1) (by omega) (by have := List.mem_range.mp hi; omega)
    exact List.mem_map.mpr ⟨x, hx, he⟩
  have hn : ((List.range 48).map (· + 1)).Nodup := by decide
  have := (hn.subperm hs).length_le
  simp at this; omega

end Sys2Proof.Machine
end

