-- ==== Sys2Proof/Tests/Slice0.lean ====
section
/-! SUPPORT. Tests: ill-formed commands, the worked examples of the spec, and for every obligation states and operands that
meet its hypotheses. -/

set_option Elab.async false

namespace Sys2Proof.Tests

open Sys2Proof.Machine

/-! ### Small states -/

def rq (kind : Nat) (body : List Byte) : Request := { kind := byte kind, tag := 7, body := body }

/-- A VALID header with cues 10 and 20 in list 1. -/
def header : Header := { valid := true, title := [], dir := ⟨[(10, ⟨[], 2⟩), (20, ⟨[65], 1⟩)], [], [], []⟩ }

/-- A leader past its start-up: banks A and C VALID, B and D BLANK, A active, every group in the access mask. -/
def lead : State :=
  { State.reset with
    ctl := { StoreCtl.reset with
      ram := ⟨header, .blank, header, .blank⟩, proj := ⟨header, .blank, header, .blank⟩, op := none, startUp := none }
    link := { ConsoleLink.reset with mask := ⟨true, true, true, true, true⟩ }
    bank := { active := some 0, change := none, resident := some 0, decided := true }
    cas := { Cascade.reset with role := .leader } }

def fol : State := { lead with cas := { lead.cas with role := .follower, stage := some 1 } }
def halted : State := { lead with sup := { lead.sup with halted := true } }
def noShow : State := { lead with bank := { lead.bank with active := none } }

/-- A request at the head of a port's queue. -/
def ask (s : State) (p : PortId) (kind : Nat) (body : List Byte) : State :=
  s.setPort p { s.port p with requests := [rq kind body] }

def desk (kind : Nat) (body : List Byte) : State := ask lead .console kind body

def withOp (s : State) (op : StoreOp) : State := { s with ctl := { s.ctl with op := some op } }
def withQueue (s : State) (q : List WriteEntry) : State := { s with ctl := { s.ctl with queue := q } }
def withPb (s : State) (p : PbId) (x : Playback) : State := s.setPb p x
def withSlots (s : State) (l : List Slot) : State := { s with slots := l }
def withFaults (s : State) (l : List CircuitFault) : State := { s with outp := { s.outp with faults := l } }
def withParks (s : State) (l : List Park) : State := { s with merge := { s.merge with parks := l } }
def withChange (s : State) (c : Change) : State := { s with bank := { s.bank with change := some c } }

def write (kind : WriteKind) (bank : Option Bank) : WriteEntry :=
  { kind := kind, bank := bank, req := ⟨.console, 7, 0x22⟩, status := .ok, doomed := none }

def eight : List WriteEntry := List.replicate 8 (write (.bankTitle []) (some 0))

def cue (n : Nat) (levels : List (Nat × Nat)) : Cue :=
  { number := n, label := [], up := 10, down := none, upDelay := 0, downDelay := 0, follow := none, link := none,
    block := false, levels := levels }

def slot (n : Nat) (p : PbId) (up down upDelay downDelay elapsed : Nat) (moves : List Move) : Slot :=
  { number := n, playback := p, kind := .cue, cue := some 10, up := up, down := down, upDelay := upDelay,
    downDelay := downDelay, elapsed := elapsed, paused := false, moves := moves }

/-- 48 slots of playback 4, each of one move. -/
def fullSlots : List Slot := (List.range 48).map (fun i => slot (i + 1) 3 100 100 0 0 0 [⟨i + 1, 0, 500⟩])

def ready (n : Nat) (levels : List (Nat × Nat)) : Standby := .ready 0 0 .order (cue n levels)

def loading (dark waiting : Bool) (position : Nat) (owed : Option Byte) : Change :=
  { target := 2, dark := dark, position := position, owed := owed, waiting := waiting, darkSteps := 0 }

def minor : EngineFault :=
  { kind := .stageLost, critical := false, value := 1, playback := none, cue := none, bank := none, stage := some 1,
    time := 5 }

def critical : EngineFault := { minor with kind := .standbyCheck, critical := true }

def report (n : Nat) (urgent : Bool) : Report := { kind := 0xE1, urgent := urgent, time := n, fields := [] }

/-- The reply a port has begun to send after a command. -/
def replied (c : Instr) (s : State) (p : PortId) : Option (Status × List Byte) :=
  match exec c s with
  | .next t => match (t.port p).sending with
    | some (.reply r) => some (r.status, r.fields)
    | _ => none
  | _ => none

/-- The state after a command. -/
def after (c : Instr) (s : State) : State :=
  match exec c s with
  | .next t => t
  | _ => s

/-- A command that is not well-formed, and what it leaves of a state is that state. -/
def passesOver (c : Instr) (s : State) : Bool :=
  !c.wf && match exec c s with
    | .next t => t = s
    | _ => false

/-- A value with its check value, as a write leaves it in the store. -/
def kept (item : HouseItem) : Checked HouseItem := .seal HouseItem.bytes item
def keptSegment (m : Assoc PatchEntry) : Option (Checked (Assoc PatchEntry)) := some (.seal segmentBytes m)

/-- The request at the head of a port's queue with the rest empty, on a part that is no follower, the port being allowed
the group: the hypotheses most statements about requests share. -/
def Asked (s : State) (p : PortId) (code : Nat) (g : Group) (body : List Byte) : Prop :=
  s.Head p code (rq code body) [] ∧ s.MayUse p g

theorem asked (s : State) (p : PortId) (code : Nat) (g : Group) (body : List Byte) (h : (s.port p).owed = 0)
    (hm : p = .console ∨ s.link.mask.holds g = true) (hf : s.isFollower = false) :
    Asked (ask s p code body) p code g body := by
  cases p <;> refine ⟨⟨rfl, rfl, ?_⟩, ?_, hf⟩ <;> first | exact hm | (show (State.port s _).owed < 13; omega)

/-- A request of the console on the leader of these tests. -/
theorem asked_desk (code : Nat) (g : Group) (body : List Byte) : Asked (desk code body) .console code g body :=
  asked _ _ _ _ _ rfl (.inl rfl) (by decide)

/-! ### Ill-formed commands -/

def badUp (stage : Nat) (lines : List LineReport) (events : List CircuitEvent) : UpFrame :=
  { stage := stage, orphan := false, leaderLost := false, gen := 1, lines := lines, events := events }

def stageFrame (target hop : Nat) (levels : List Nat) : StageFrame :=
  { target := target, hop := hop, seq := 3, blend := 0, policy := .safe, gen := 1, levels := levels }

def setupFrame (target gen : Nat) (house : List Nat) (safe : List (Nat × Nat)) : SetupFrame :=
  { target := target, hop := 0, gen := gen, lines := List.replicate 6 defaultLine, safeFade := 30, policy := .safe,
    lamp := 100, house := house, safe := safe }

theorem test_frame_body_too_long :
    let c : Instr := .frameReceived .console 1 0 (List.replicate 1025 0)
    c.wf = false ∧ (after c lead).con.requests = [] ∧ (after c lead).con.errors = 1 := by decide +kernel

theorem test_units_the_part_lacks : passesOver (.followExpiry 0) lead = true ∧ passesOver (.followExpiry 5) lead = true
    ∧ passesOver (.lineClockExpiry 0) lead = true ∧ passesOver (.lineClockExpiry 7) lead = true
    ∧ passesOver (.returnFrame 7 true []) lead = true ∧ passesOver (.contactChange 0 true) lead = true
    ∧ passesOver (.debounceExpiry 5) lead = true ∧ passesOver (.stageLost 0) lead = true
    ∧ passesOver (.stageLost 4) lead = true := by decide +kernel

/-- The form and value checks of a stage frame; one that does not fit its form is a frame error. -/
theorem test_stage_frame_ill_formed : (stageFrame 4 0 (List.replicate 576 0)).wf = false
    ∧ (stageFrame 1 0 (List.replicate 575 0)).fits = false ∧ (stageFrame 1 0 (List.replicate 576 65536)).fits = false
    ∧ (stageFrame 1 256 (List.replicate 576 0)).fits = false ∧ (stageFrame 1 0 (List.replicate 576 0)).wf = true
    ∧ { stageFrame 1 0 (List.replicate 576 0) with blend := 1001 }.wf = false
    ∧ (after (.stageFrame (stageFrame 1 256 (List.replicate 576 0))) fol).cas.dinErrors = 1
    ∧ (after (.stageFrame (stageFrame 4 0 (List.replicate 576 0))) fol).wire.length = 1 := by decide +kernel

/-- The form and value checks of a setup frame; a value outside its range is a free value where the part takes it. -/
theorem test_setup_frame_ill_formed : (setupFrame 0 1 [] []).wf = false ∧ (setupFrame 1 0 [] []).wf = false
    ∧ (setupFrame 1 1 [5, 5] []).wf = false ∧ (setupFrame 1 1 [577] []).wf = false
    ∧ (setupFrame 1 1 [] [(2, 1001)]).wf = false ∧ (setupFrame 1 1 [5, 6] [(2, 1000)]).wf = true
    ∧ (setupFrame 1 1 [65536] []).fits = false
    ∧ (after (.setupFrame (setupFrame 1 5 [577] [])) fol).cas.genHeld = 5 := by decide +kernel

/-- The form and value checks of an up frame. -/
theorem test_up_frame_ill_formed : (badUp 256 (List.replicate 6 lineOff) []).fits = false
    ∧ (badUp 1 (List.replicate 5 lineOff) []).fits = false ∧ (badUp 1 (List.replicate 6 ⟨.locked, 256, 3⟩) []).fits = false
    ∧ (badUp 1 (List.replicate 6 ⟨.locked, 1, 97⟩) []).wf = false
    ∧ (badUp 1 (List.replicate 6 lineOff) [⟨2305, .hot, true⟩]).wf = false
    ∧ (badUp 1 (List.replicate 6 lineOff) [⟨2304, .hot, true⟩]).wf = true
    ∧ (after (.upFrame (badUp 1 (List.replicate 5 lineOff) [])) lead).cas.uinErrors = 1
    ∧ (after (.upFrame (badUp 1 (List.replicate 6 lineOff) [⟨2305, .hot, true⟩])) lead).outp.faults.length = 1 := by
  decide +kernel

/-- A stored item whose contents do not match its check value fails its read; a write leaves one that passes. -/
theorem test_check_values :
    let damaged : Checked HouseItem := { kept (.silence 20) with value := .silence 21 }
    let s := fun (c : Checked HouseItem) => { lead with store := { lead.store with house := [(1, c)] } }
    (s (kept (.silence 20))).storedItem 1 = some (.silence 20) ∧ (s damaged).storedItem 1 = none
      ∧ damaged.check ≠ crc32 damaged.value.bytes := by decide +kernel

/-! ### The spec's worked examples -/

/-- Curve 0 at 637 (chapter 2.5). -/
theorem test_curve_example : curveValue linearPoints 637 = 41745 := by decide +kernel

/-- Points made legal (chapter 2.5). -/
theorem test_legal_points_example : legalPoints 0 [0, 2000, 1500, 1800, 6000] = [0, 2000, 2000, 2000, 6000] := by
  decide +kernel

/-- The windows and the entry of bank C (chapter 2.1). -/
theorem test_windows_example :
    let w : Windows := ⟨some ⟨97, 192, 1500⟩, none, none, none⟩
    w.channel 97 = some 1500 ∧ w.channel 133 = some 1536 ∧ w.channel 134 = none ∧ w.channel 192 = none
      ∧ w.channel 100 = some 1503 := by decide +kernel

/-- A house fade turned around (chapter 2.7). -/
theorem test_house_fade_example :
    let a := HouseGroup.fade .reset 600 5
    let b := (List.range 20).foldl (fun g _ => HouseGroup.step g) a
    let c := b.fade 0 10
    a.steps = 50 ∧ a.step.level = 12 ∧ a.step.step.level = 24 ∧ b.level = 240 ∧ b.steps = 30
      ∧ curveValue linearPoints b.level = 15727 ∧ c.step.level = 238 ∧ c.step.step.level = 236
      ∧ ((List.range 100).foldl (fun g _ => HouseGroup.step g) c).level = 0 := by decide +kernel

/-- The arithmetic of cue 30.0 (chapter 5.3). -/
theorem test_slot_level_example :
    let x := slot 1 0 300 70 100 0 0 []
    [0, 1, 100, 101, 250].map (x.level ⟨5, 200, 800⟩) = [200, 200, 200, 202, 500]
      ∧ [0, 1, 35, 69, 70, 250].map (x.level ⟨6, 900, 0⟩) = [900, 888, 450, 13, 0, 0] := by decide +kernel

/-- The merge worked through (chapter 6.7). -/
theorem test_merge_example :
    let s := withParks (withPb (withPb { lead with merge := { lead.merge with grand := 750 } } 0
        { Playback.reset with look := [(20, 700), (21, 333), (22, 1000)], master := 800 }) 1
        { Playback.reset with look := [(20, 900), (23, 1000)], master := 500 }) [⟨22, 150, .console⟩]
    [20, 21, 22, 23].map s.output = [420, 199, 150, 375] := by decide +kernel

/-- One circuit through the blend, and the bytes sent at width 8 (chapter 8.2). -/
theorem test_blend_example : [0, 250, 1000].map (fun b => blended b 40000 700) = [40000, 41468, 45874]
    ∧ [40000, 41468, 45874].flatMap (levelBytes false) = [156, 161, 178] := by decide +kernel

/-- The back pool under pressure (chapter 4.11). -/
theorem test_back_pool_example :
    let e := fun (n : Nat) => ({ cue := 1, levels := List.replicate n (1, 0) } : BackEntry)
    let a := pushBack [e 1000, e 1200] 4608 (e 1500)
    let b := pushBack a.1 4608 (e 1536)
    (a.1.map (fun x => x.levels.length), a.2) = ([1500, 1000], true)
      ∧ (b.1.map (fun x => x.levels.length), b.2) = ([1536, 1500], true) ∧ pushBack [] 7644 (e 1000) = ([], false) := by
  decide +kernel

/-- Silence, return and a second silence: the blend (chapter 11.4). -/
theorem test_safe_fade_example : moveBlend 30 0 1000 = 4 ∧ moveBlend 30 600 0 = 596
    ∧ (List.range 100).foldl (fun b _ => moveBlend 30 b 1000) 0 = 400 := by decide +kernel

/-- A full report queue: a routine report is lost, an urgent one takes the place of the oldest routine one (chapter 10.5). -/
theorem test_report_queue_example :
    let s : State := { lead with link := { lead.link with
      reports := [report 0 true, report 1 true] ++ (List.range 14).map (fun i => report (i + 2) false) } }
    let a := s.report 0xE0 false []
    let b := a.report 0xEA true []
    a.link.reports = s.link.reports ∧ a.link.lost = true
      ∧ (b.link.reports.filter (fun r => r.urgent)).length = 3
      ∧ (b.link.reports.filter (fun r => !r.urgent)).map (fun r => r.time) = (List.range 13).map (· + 3) := by decide +kernel

/-- Two stations edit the live list: the read through the queue and the projection after a failed write (chapter 1.9). -/
theorem test_two_stations_example :
    let s := withQueue lead [write (.cueWrite 0 (cue 15 [(1, 500)])) (some 0), write (.cueDelete 0 20) (some 0)]
    s.cueAnswer 0 0 20 = .notFound ∧ s.cueAnswer 0 0 15 = .ready (cue 15 [(1, 500)]) ∧ s.cueAnswer 0 0 10 = .readPort
      ∧ (State.reproject 0 header (s.ctl.queue.drop 1)).1.dir.get 0 = [(10, ⟨[], 2⟩)] := by decide +kernel

/-- The first of two writes to list 1 of the active bank ends. -/
def afterWrite (a : WriteAnswer) : State :=
  after (.writeStepDone a) (withQueue (withOp lead .write)
    [write (.cueWrite 0 (cue 15 [(1, 500)])) (some 0), write (.cueDelete 0 20) (some 0)])

/-- A notice goes ahead of the next write: a write completes or fails, the port waits, the notice's fetch is granted, and
the write behind it follows the fetch (chapters 1.9 and 3.8). -/
theorem test_notice_goes_ahead_of_the_next_write : ∀ a ∈ [WriteAnswer.done true [], .done false [], .notDone],
    ((afterWrite a).ctl.op = none ∧ (afterWrite a).eng.notices = [0])
      ∧ (after .listNotice (afterWrite a)).ctl.op = some (.fetch 0 ⟨0, 0, 10, .first⟩ true)
      ∧ (after .listNotice (afterWrite a)).ctl.queue.length = 1
      ∧ (after (.fetchDone (.done false)) (after .listNotice (afterWrite a))).ctl.op = some .write := by decide +kernel

/-- The check values of the frames: CRC-16 and CRC-32 of the bytes 1 to 9 in ASCII. -/
theorem test_crc : crc16 [0x31, 0x32, 0x33, 0x34, 0x35, 0x36, 0x37, 0x38, 0x39] = 0x29B1
    ∧ crc32 [0x31, 0x32, 0x33, 0x34, 0x35, 0x36, 0x37, 0x38, 0x39] = 0xCBF43926 := by decide +kernel

/-- A cue overtaken: the takeover strips channels 11 and 12 from slot 3 (chapter 5.9). -/
theorem test_takeover_example :
    let old := slot 3 1 100 100 0 0 40 [⟨10, 0, 600⟩, ⟨11, 0, 600⟩, ⟨12, 800, 0⟩]
    let new : List Move := [⟨11, 240, 1000⟩, ⟨12, 480, 0⟩, ⟨13, 0, 500⟩]
    takeover 1 new [old] = [{ old with moves := [⟨10, 0, 600⟩] }]
      ∧ (slot 4 1 500 200 0 0 0 new).finish = 500
      ∧ (takeover 1 [⟨10, 0, 1⟩, ⟨11, 0, 1⟩, ⟨12, 0, 1⟩] [old]) = [] := by decide +kernel

/-- A lamp that fails in a fade: two statuses set aside below 6553, then four counted, and the raise (chapter 8.4). -/
theorem test_lamp_example :
    let at_ := fun (n : Nat) => lead.setLine 1 { lead.line 1 with live := List.replicate 96 n, monitor := .locked }
    let lit := fun (s : State) (n : Nat) => s.setLine 1 { s.line 1 with live := List.replicate 96 n }
    let take := fun (s : State) => s.takeStatus 1 53 (some .noLoad)
    let a := take (lit (take (at_ 3000)) 5500)
    let b := take (take (take (lit a 7000)))
    let c := take b
    (a.line 1).debounce.getD 53 .reset = .reset ∧ ((b.line 1).debounce.getD 53 .reset).run = 3 ∧ b.outp.faults = []
      ∧ c.outp.faults.map (fun x => (x.circuit, x.kind, x.present)) = [(150, .noLoad, true)] := by decide +kernel

/-! ### States and operands that meet the hypotheses of the obligations -/

def statusOf (c : Instr) (s : State) (p : PortId) : Option Status := (replied c s p).map (·.1)

/-- The statuses a request of the console is answered with, for some bodies. -/
def statuses (c : Instr) (code : Nat) (bodies : List (List Byte)) : List (Option Status) :=
  bodies.map (fun b => statusOf c (desk code b) .console)

def askAux (mask : Mask) (kind : Nat) (body : List Byte) : State :=
  ask { lead with link := { lead.link with mask := mask } } .aux kind body

def noMask : Mask := ⟨false, false, false, false, false⟩

theorem witness_StepRunsTheFrontCommand : State.reset.pending = []
    ∧ (step { lead with pending := [.blendStep, .fadeStep] } matches .next _) := by decide +kernel

theorem witness_DeviceResetValues :
    let s := withQueue (withOp lead .write) [write (.bankTitle [65]) (some 0)]
    (s.ctl.op = some .write ∧ s.ctl.queue = write (.bankTitle [65]) (some 0) :: [])
      ∧ lead.ctl.op ≠ some .write
      ∧ (after (.deviceReset (some [])) s).store = s.storeAfter (write (.bankTitle [65]) (some 0)) []
      ∧ ((after (.deviceReset none) fol).cas.stage = none ∧ (after (.deviceReset none) fol).cas.stages.get 2 = .reset)
      ∧ (after (.deviceReset none) s).store = s.store := by decide +kernel

theorem witness_RoleIsDecidedOnce :
    let s := { State.reset with outp := { State.reset.outp with
      lines := Six.all { Line.reset with settings := some defaultLine } } }
    s.cas.role = .undecided ∧ s.ctl.held = [] ∧ s.outp.started = false ∧ (∀ l, (s.line l).settings.isSome = true)
      ∧ (s.line 5).settings = some defaultLine ∧ lead.cas.role ≠ .undecided
      ∧ ((after (.roleDecided false) s).line 5).clock = some 20 := by decide +kernel

theorem witness_StartUpReads :
    let at_ := fun (i : Nat) => withOp { State.reset with store := { State.reset.store with
      house := [(0, kept (.resident none)), (42, kept (.input 3 .default))],
      banks := State.reset.store.banks.set 0 { StoredBank.unwritten with header := some (.seal Header.bytes header) } } }
      (.startUp i)
    (∀ i, i < 47 → (at_ i).ctl.op = some (.startUp i) ∧ (at_ i).cas.role = .undecided)
      ∧ (at_ 0).storedItem 0 = some (.resident none) ∧ (at_ 42).storedItem 42 = some (.input 3 .default)
      ∧ (at_ 43).storedHeader 0 = some header ∧ (at_ 1).storedItem 1 = none ∧ (at_ 44).storedHeader 1 = none
      ∧ (after (.startUpReadDone (.done true)) (at_ 43)).ram 0 = header
      ∧ (after (.startUpReadDone .notDone) (at_ 42)).ctl.failed = [42]
      ∧ (after (.startUpReadDone (.done true)) (at_ 46)).ctl.startUp = none := by decide +kernel

/-- A part at a start-up read whose role is decided, as if five of its six lines had their items. -/
def reading (role : Role) (i : Nat) : State :=
  let s := withOp { State.reset with
    store := { State.reset.store with
      house := [(0, kept (.resident (some 2))), (13, kept (.groups ⟨⟨[7], 3⟩, ⟨[], 0⟩, ⟨[], 0⟩, ⟨[], 0⟩⟩)), (42, kept (.input 3 .default))],
      banks := State.reset.store.banks.set 0 { StoredBank.unwritten with header := some (.seal Header.bytes header) } } }
    (.startUp i)
  { s with
    cas := { s.cas with role := role }
    outp := { s.outp with lines :=
      (s.outp.lines.map (fun x : Line => { x with settings := some defaultLine })).set 5 (s.outp.lines.get 5) } }

/-- A start-up read on a part that is LEADER or a follower: the item, or its default, reaches its block at once, or is dropped
(R2), and the last of the six line items starts the lines (R130). -/
theorem witness_start_up_reads_after_the_role :
    let done := fun (role : Role) (i : Nat) => after (.startUpReadDone (.done true)) (reading role i)
    let fails := fun (role : Role) (i : Nat) => after (.startUpReadDone .notDone) (reading role i)
    ((reading .leader 0).storedItem 0 = some (.resident (some 2)) ∧ (reading .leader 20).storedItem 20 = none
        ∧ (reading .orphan 0).isFollower = true ∧ (reading .leader 43).storedHeader 0 = some header)
      ∧ [Role.undecided, .leader, .follower].map (fun r => ((done r 0).bank.resident, (done r 0).ctl.held.length))
          = [(none, 1), (some 2, 0), (none, 0)]
      ∧ [Role.undecided, .leader, .orphan].map (fun r => ((fails r 2).sup.policy, (fails r 2).ctl.failed)) =
          [(.freeze, [2]), (.freeze, [2]), (.freeze, [2])]
      ∧ ((done .leader 13).patch.groups.get 0) = { HouseGroup.reset with members := [7], curve := 3 }
      ∧ ((done .follower 13).patch.groups.get 0) = .reset
      ∧ [Role.undecided, .leader, .follower].map (fun r => ((fails r 20).outp.started, ((fails r 20).line 5).monitor)) =
          [(false, .off), (true, .seeking), (false, .off)]
      ∧ ((fails .leader 15).outp.started, (fails .leader 15).ctl.failed) = (false, [15])
      ∧ ((done .leader 43).ram 0, (fails .leader 43).ram 0, (fails .follower 46).ctl.startUp) = (header, .blank, none) := by
  decide +kernel

theorem witness_start_up_timeouts_after_the_role :
    let late := fun (role : Role) (i : Nat) => after .storeTimeout (reading role i)
    let kinds := fun (role : Role) (i : Nat) => (late role i).sup.raised.map (fun f => (f.value, f.bank))
    ([Role.undecided, .leader, .follower].map (fun r => kinds r 42) = [[], [(5, none)], []]
        ∧ [Role.undecided, .leader, .orphan].map (fun r => kinds r 43) = [[], [(5, some 0)], []]
        ∧ [Role.undecided, .leader, .orphan].map (fun r => (late r 42).ctl.held.length) = [2, 0, 0])
      ∧ ([Role.undecided, .leader, .follower].map (fun r => (late r 42).ctl.failed) = [[42], [42], [42]]
        ∧ (late .leader 42).ctl.op = some (.startUp 43) ∧ (late .follower 46).ctl.startUp = none
        ∧ (late .leader 20).outp.started = true ∧ (late .follower 20).outp.started = false)
      ∧ [Role.leader, .follower].map (fun r => (late r 43).ram 0) = [.blank, .blank] := by
  decide +kernel

theorem witness_StartUpDecision :
    let s := { lead with bank := { lead.bank with active := none, decided := false } }
    let blank := { s with bank := { s.bank with resident := some 1 } }
    let none_ := { s with bank := { s.bank with resident := none } }
    (s.isLeader = true ∧ s.ctl.startUp = none ∧ s.bank.decided = false ∧ s.bank.resident = some 0
        ∧ s.reportedBlank 0 = false ∧ s.ctl.op = none ∧ s.ctl.houseFailed = false)
      ∧ ((withOp s .write).ctl.op ≠ none ∧ s.eng.notices = [])
      ∧ (let t := { s with eng := { s.eng with notices := [0] } }
         t.eng.notices ≠ [] ∧ (after .startUpDecision t).ctl.op = none ∧ (after .startUpDecision t).ctl.loadClaim = some 1)
      ∧ (blank.bank.resident = some 1 ∧ blank.reportedBlank 1 = true) ∧ none_.bank.resident = none
      ∧ (after .startUpDecision s).ctl.op = some (.load 0 1 true)
      ∧ (after .startUpDecision { s with ctl := { s.ctl with houseFailed := true } }).sup.raised.map (fun f => f.kind)
          = [.houseCheck]
      ∧ (after .startUpDecision blank).bank.change = none := by decide +kernel

theorem witness_startUpDecision_calm : State.Calm { lead with bank := { lead.bank with active := none, decided := false } } :=
  .inr (by decide +kernel)

theorem witness_TimersStep :
    let s := { lead with outp := { lead.outp with blend := 500, target := 1000 } }
    let g := { HouseGroup.reset with level := 240, target := 0, steps := 100 }
    (lead.isFollower = false ∧ fol.isFollower = true) ∧ (0 < s.outp.safeFade ∧ s.outp.blend ≤ s.outp.target)
      ∧ { s.outp with safeFade := 0 }.safeFade = 0 ∧ (after .blendStep s).outp.blend = 504 ∧ s.outp.blend ≠ s.outp.target
      ∧ (after .followerBlendStep s).outp.blend = 500 ∧ g.step.level = 238 ∧ g.step.steps = 99
      ∧ ({ g with steps := 1 }.step.level = 0) ∧ (after .showTimeTick lead).sup.showTime = 1 := by decide +kernel

def queued (n : Nat) (busy : Nat) : State :=
  lead.setPort .console { lead.con with
    requests := List.replicate n (rq 1 []), sending := some (.report (report 0 false) false),
    replies := List.replicate busy { kind := 0x81, tag := 0, status := .busy, fields := [] } }

theorem witness_FramesAreReceivedOrDiscarded :
    let silent := { lead with link := { lead.link with silent := true, timer := false } }
    (1024 < (List.replicate 1025 (0 : Byte)).length ∧ (List.replicate 1024 (0 : Byte)).length ≤ 1024)
      ∧ (8 ≤ ((queued 8 3).port .console).requests.length
          ∧ 3 ≤ (((queued 8 3).port .console).replies.filter (fun r => r.status = .busy)).length)
      ∧ (((queued 8 2).port .console).replies.filter (fun r => r.status = .busy)).length < 3
      ∧ ((queued 7 0).port .console).requests.length < 8
      ∧ (silent.link.silent = true ∧ silent.isFollower = false ∧ silent.link.reports.length < 16)
      ∧ ((queued 8 3).port .console).receiver = .hunting false
      ∧ ((after (.frameReceived .console 1 0 []) (queued 8 3)).con.errors = 1)
      ∧ ((after (.frameReceived .console 1 0 []) (queued 8 2)).con.replies.length = 3)
      ∧ ((after (.frameReceived .console 1 0 []) (queued 7 0)).con.requests.length = 8)
      ∧ (after (.frameReceived .console 1 0 []) silent).link.reports.map (fun r => r.kind) = [0xEC]
      ∧ (after (.portFrameError .aux) lead).aux.receiver = .hunting true
      ∧ (after (.portFrameGap .aux true) lead).aux.receiver = .gathering
      ∧ (after (.syncAfterBytesPassedOver .aux) lead).aux.errors = 1
      ∧ (after (.syncAfterBytesPassedOver .aux) (after (.portFrameError .aux) lead)).aux.errors = 1 := by decide +kernel

theorem witness_FramesAreSentAndReportsQueued :
    let r : Reply := { kind := 0x81, tag := 0, status := .ok, fields := [] }
    let s := lead.setPort .console { lead.con with sending := some (.reply r), replies := [r, r], owed := 3 }
    let idle := lead.setPort .console { lead.con with sending := some (.reply { r with status := .busy }), owed := 3 }
    let told := { idle with link := { idle.link with reports := [report 0 false, report 1 true], lost := true } }
    let rep := lead.setPort .console { lead.con with sending := some (.report (report 0 false) false) }
    let aux := lead.setPort .aux { lead.aux with sending := some (.reply r) }
    let full := fun (u : Bool) => List.replicate 15 (report 0 true) ++ [report 1 u]
    (lead.port .console).sending = none
      ∧ ((s.port .console).sending = some (.reply r) ∧ (s.port .console).replies = r :: [r])
      ∧ ((idle.port .console).replies = [] ∧ State.headReport idle.link.reports = none)
      ∧ State.headReport told.link.reports = some (report 1 true)
      ∧ (rep.port .console).sending = some (.report (report 0 false) false)
      ∧ (aux.port .aux).sending = some (.reply r)
      ∧ (16 ≤ (full false).length ∧ full false = List.replicate 15 (report 0 true) ++ report 1 false :: []
          ∧ (List.replicate 15 (report 0 true)).all (fun y => y.urgent) = true)
      ∧ (full true).all (fun y => y.urgent) = true
      ∧ (after (.frameSent .console) s).con.owed = 2 ∧ (after (.frameSent .console) idle).con.owed = 3
      ∧ (after (.frameSent .console) told).con.sending = some (.report (report 1 true) true) := by decide +kernel

theorem witness_SilenceAppliesThePolicy :
    let s := fun (p : LossPolicy) => withSlots (withPb (withPb { lead with sup := { lead.sup with policy := p } } 0
      { Playback.reset with state := .running }) 1
      { Playback.reset with state := .settled, follow := some ⟨5, false, true⟩ }) [slot 1 0 10 10 0 0 0 []]
    (∀ p ∈ [LossPolicy.continue_, .freeze, .safe], (s p).isLeader = true ∧ (s p).link.timer = true
        ∧ (s p).link.silent = false)
      ∧ fol.isLeader = false
      ∧ (after .consoleSilent (s .continue_)).eng.pb.toList.map (fun x => x.state) = [.running, .settled, .empty, .empty]
      ∧ (after .consoleSilent (s .freeze)).eng.pb.toList.map (fun x => x.state) = [.held, .held, .empty, .empty]
      ∧ (after .consoleSilent (s .freeze)).slots.map (fun x => x.paused) = [true]
      ∧ (after .consoleSilent (s .safe)).outp.target = 1000 := by decide +kernel

theorem witness_GeneralChecksRefuse :
    let aux := askAux noMask 0x30 [1, 0, 0]
    let folReq := ask fol .console 0x30 [1, 0, 0]
    let haltReq := ask halted .console 0x30 [1, 0, 0]
    let unknown := fun (s : State) (p : PortId) => ask s p 0x7F []
    requestOf (.go .console) = some (.console, 0x30)
      ∧ (aux.gate .aux 0x30 = some .notPermitted ∧ folReq.gate .console 0x30 = some .follower
          ∧ haltReq.gate .console 0x30 = some .halted ∧ folReq.gate .console 2 = none ∧ aux.gate .aux 0x7F = some .notPermitted)
      ∧ (kindInfo 0x30 = some (.playback, false) ∧ kindInfo 0x7F = none ∧ aux.link.mask.holds .playback = false)
      ∧ (bodySize 0x30 = some 3 ∧ ([1, 0] : List Byte).length ≠ 3 ∧ (desk 0x30 [1, 0]).gate .console 0x30 = none)
      ∧ statuses (.go .console) 0x30 [[1, 0], [1, 0, 0, 0], []] = [some .badLength, some .badLength, some .badLength]
      ∧ (countedSize 0x20 (List.replicate 18 1) = some 19 ∧ countedSize 0x55 [0, 1, 0, 9, 0, 0, 0, 0, 0, 0, 0] = some 10
          ∧ (desk 0x55 [0]).gate .console 0x55 = none)
      ∧ [statuses (.cueOpen .console) 0x20 [List.replicate 18 1], statuses (.cueAdd .console) 0x21 [[1, 0, 0]],
          statuses (.patchSet .console) 0x25 [[0, 2, 0, 0, 0, 0, 0, 0]], statuses (.bankTitle .console) 0x27 [[0, 2, 65]],
          statuses (.record .console) 0x28 [[]], statuses (.safeLookSet .console) 0x56 [[1]],
          statuses (.houseCircuitsSet .console) 0x55 [[0, 1, 0, 9, 0, 0, 0, 0, 0, 0, 0]]]
        = List.replicate 7 [some .badLength]
      ∧ statusOf (.go .aux) aux .aux = some .notPermitted ∧ statusOf (.go .console) folReq .console = some .follower
      ∧ statusOf (.go .console) haltReq .console = some .halted
      ∧ statusOf (.unknownKindRequest .aux) (unknown lead .aux) .aux = some .notPermitted
      ∧ statusOf (.unknownKindRequest .console) (unknown fol .console) .console = some .follower
      ∧ statusOf (.unknownKindRequest .console) (unknown halted .console) .console = some .halted
      ∧ statusOf (.unknownKindRequest .console) (unknown lead .console) .console = some .badValue := by decide +kernel

/-- A body just outside a range is refused BAD_VALUE, and one at its end is not (R169). -/
def edges (c : Instr) (code : Nat) (wrong right : List (List Byte)) : Bool :=
  wrong.all (fun b => bodyFits code b && fieldOutOfRange code b && statusOf c (desk code b) .console == some .badValue)
    && right.all (fun b => bodyPasses code b && statusOf c (desk code b) .console != some .badValue)

theorem witness_fields_out_of_range_of_reads :
    edges (.cueRead .console) 0x08 [[4, 1, 10, 0, 0, 0], [0, 0, 10, 0, 0, 0], [0, 5, 10, 0, 0, 0], [0, 1, 0, 0, 0, 0],
        [0, 1, 0x10, 0x27, 0, 0], [0, 1, 10, 0, 0, 6]] [[3, 4, 0x0F, 0x27, 0xFF, 5], [0, 1, 1, 0, 0, 0]]
      ∧ edges (.listRead .console) 0x09 [[4, 1, 0, 0], [0, 0, 0, 0], [0, 5, 0, 0], [0, 1, 0x10, 0x27]]
          [[3, 4, 0x0F, 0x27], [0, 1, 0, 0]]
      ∧ edges (.bankInfo .console) 0x0A [[4], [255]] [[0], [3]]
      ∧ edges (.patchRead .console) 0x0B [[4, 1, 0, 1], [0, 0, 0, 1], [0, 1, 9, 1], [0, 1, 0, 0], [0, 1, 0, 97], [0, 0, 9, 2]]
          [[3, 0, 9, 1], [0, 1, 0, 96]]
      ∧ edges (.playbackRead .console) 0x05 [[0], [5]] [[1], [4]] ∧ edges (.rackRead .console) 0x06 [[0], [7]] [[1], [6]]
      ∧ edges (.stageRead .console) 0x07 [[0], [4]] [[1], [3]] ∧ edges (.houseRead .console) 0x0E [[4]] [[0], [3]]
      ∧ edges (.slotRead .console) 0x0F [[0, 0, 0], [49, 0, 0], [1, 0, 6]] [[1, 0, 0], [48, 0xFF, 5]] := by decide +kernel

theorem witness_fields_out_of_range_of_commands :
    edges (.bankErase .console) 0x52 [[4], [255]] [[0], [3]]
      ∧ edges (.changeover .console) 0x50 [[4, 0], [0, 2]] [[0, 0], [3, 1]]
      ∧ edges (.go .console) 0x30 [[0, 0, 0], [5, 0, 0]] [[1, 0, 0], [4, 0xFE, 0xFF]]
      ∧ edges (.back .console) 0x31 [[0], [5]] [[1], [4]] ∧ edges (.hold .console) 0x32 [[0], [5]] [[1], [4]]
      ∧ edges (.resume .console) 0x33 [[0], [5]] [[1], [4]]
      ∧ edges (.jump .console) 0x34 [[0, 1, 0], [5, 1, 0], [1, 0, 0], [1, 0x10, 0x27]] [[1, 1, 0], [4, 0x0F, 0x27]]
      ∧ edges (.release .console) 0x35 [[0, 0, 0], [5, 0, 0]] [[1, 0, 0], [4, 0xFF, 0xFF]]
      ∧ edges (.cueDelete .console) 0x24 [[4, 1, 1, 0], [0, 0, 1, 0], [0, 5, 1, 0], [0, 1, 0, 0]] [[3, 4, 0x0F, 0x27]]
      ∧ edges (.houseFade .console) 0x59 [[0, 0, 0, 0, 0], [5, 0, 0, 0, 0]] [[1, 0, 0, 0, 0], [4, 0xFF, 0xFF, 0xFF, 0xFF]]
      ∧ edges (.cueOpen .console) 0x20
          [[0, 1, 1, 0, 0x71, 0x17, 0xFF, 0xFF, 0, 0, 0, 0, 0xFF, 0xFF, 0xFF, 0xFF, 1, 0],
           [0, 1, 1, 0, 0, 0, 0xFE, 0xFF, 0, 0, 0, 0, 0xFF, 0xFF, 0xFF, 0xFF, 1, 0],
           [0, 1, 1, 0, 0, 0, 0xFF, 0xFF, 0, 0, 0, 0, 0xFF, 0xFF, 0xFF, 0xFF, 2, 0],
           [0, 1, 1, 0, 0, 0, 0xFF, 0xFF, 0, 0, 0, 0, 0xFF, 0xFF, 0xFF, 0xFF, 1, 1, 127]]
          [[3, 4, 0x0F, 0x27, 0x70, 0x17, 0xFF, 0xFF, 0, 0, 0, 0, 0xFF, 0xFF, 0xFF, 0xFF, 1, 1, 126]] := by decide +kernel

theorem witness_RequestsAreTakenInTurn :
    let owing := (desk 1 []).setPort .console { (desk 1 []).con with owed := 13 }
    let early := fun (k : Nat) (b : List Byte) =>
      { desk k b with ctl := { lead.ctl with startUp := some 3 }, bank := { lead.bank with decided := false } }
    requestOf (.ping .console) = some (.console, 1) ∧ 13 ≤ (owing.port .console).owed
      ∧ (lead.port .console).requests = []
      ∧ ((desk 2 []).port .console).requests = rq 2 [] :: [] ∧ (rq 2 []).kind.toNat ≠ 1
      ∧ ((early 0x0A [3]).ctl.startUp.isSome = true ∧ (early 0x0A [3]).gate .console 0x0A = none)
      ∧ (early 0x51 []).bank.decided = false ∧ (early 0x50 [3, 1]).gate .console 0x50 = none
      ∧ after (.ping .console) owing = owing ∧ after (.bankInfo .console) (early 0x0A [3]) = early 0x0A [3]
      ∧ after (.cueClose .console) (early 0x22 []) = early 0x22 []
      ∧ (needsStore 0x57 = true ∧ bodyPasses 0x57 [3, 6, 1, 0, 1] = true ∧ bodyPasses 0x57 [4, 6, 1, 0, 1] = false)
      ∧ (after (.lineSet .console) (early 0x57 [3, 6, 1, 0, 1]) = early 0x57 [3, 6, 1, 0, 1])
      ∧ statusOf (.lineSet .console) (early 0x57 [4, 6, 1, 0, 1]) .console = some .badValue
      ∧ after (.changeover .console) (early 0x50 [3, 1]) = early 0x50 [3, 1]
      ∧ after (.changeoverCancel .console) (early 0x51 []) = early 0x51 [] := by decide +kernel

theorem witness_PingEchoes :
    (fol.isFollower = true ∧ lead.isFollower = false)
      ∧ statuses (.ping .console) 1 [[], List.replicate 16 1, List.replicate 17 1] = [some .ok, some .ok, some .badLength]
      ∧ replied (.ping .aux) (askAux noMask 1 [9]) .aux = some (.ok, [0x6C, 0x09, 0, 0, 0, 0, 0, 9])
      ∧ statusOf (.ping .console) (ask fol .console 1 []) .console = some .follower
      ∧ ((queued 7 0).con.requests.length < 8 ∧ 0 < (queued 7 0).link.limit)
      ∧ (after (.frameReceived .console 1 0 [5]) (queued 7 0)).link.timer = true := by decide +kernel

theorem witness_StatusAnswers :
    let und := { lead with cas := { lead.cas with role := .undecided } }
    let orphan := { fol with cas := { fol.cas with role := .orphan } }
    (lead.cas.role = .leader ∧ fol.isFollower = true ∧ orphan.cas.role = .orphan ∧ und.cas.role = .undecided)
      ∧ statuses (.status .console) 2 [[], [0]] = [some .ok, some .badLength]
      ∧ ((replied (.status .console) (ask fol .console 2 []) .console).map (fun x => x.2.take 3)) = some [1, 1, 1]
      ∧ ((replied (.status .console) (ask orphan .console 2 []) .console).map (fun x => x.2.take 1)) = some [2]
      ∧ (after (.status .console) (ask und .console 2 [])).free = 1
      ∧ ((replied (.status .console) (ask und .console 2 []) .console).map (fun x => (x.1, x.2.drop 1))
          = (replied (.status .console) (desk 2 []) .console).map (fun x => (x.1, x.2.drop 1))) := by decide +kernel

theorem witness_LevelsAndCircuitsAreRead :
    let lit := withParks (withPb lead 0 { Playback.reset with look := [(1536, 700)] }) [⟨3, 150, .aux⟩]
    statuses (.levelsRead .console) 3
        [[0, 1, 0, 1], [6, 1, 0, 1, 0], [0, 0, 0, 1, 0], [0, 1, 6, 1, 0], [0, 1, 0, 0, 0], [0, 1, 0, 0x91, 1],
         [0, 2, 6, 2, 0], [4, 0, 0, 1, 0], [0, 0, 6, 1, 0], [0, 1, 0, 0x90, 1], [1, 1, 0, 1, 0], [5, 0, 0, 0, 0]]
      = [some .badLength, some .badValue, some .badValue, some .badValue, some .badValue, some .badValue,
         some .badValue, some .badValue, some .ok, some .ok, some .ok, some .ok]
      ∧ ((replied (.levelsRead .console) (ask lit .console 3 [0, 0, 6, 1, 0]) .console).map (fun x => (x.2.drop 9).take 2))
          = some [0xBC, 2]
      ∧ ((replied (.levelsRead .console) (ask lit .console 3 [0, 1, 0, 8, 0]) .console).map (fun x => x.2.drop 25))
          = some [4]
      ∧ statuses (.circuitRead .console) 4
          [[1, 0], [0, 0, 1], [1, 9, 1], [1, 0, 0], [1, 0, 97], [0, 9, 2], [1, 0, 96], [0, 9, 1]]
        = [some .badLength, some .badValue, some .badValue, some .badValue, some .badValue, some .badValue,
           some .ok, some .ok] := by decide +kernel

theorem witness_LevelsAndCircuitsAreRead_asked (body : List Byte) :
    Asked (desk 3 body) .console 3 .read body ∧ Asked (desk 4 body) .console 4 .read body :=
  ⟨asked_desk _ _ _, asked_desk _ _ _⟩

theorem witness_full_parks : (List.replicate 64 (⟨1, 1, .aux⟩ : Park)).length = 64 := by decide +kernel

theorem witness_PlaybacksAndSlotsAreRead :
    let s := withSlots lead fullSlots
    statuses (.playbackRead .console) 5 [[], [0], [5], [1], [4]]
        = [some .badLength, some .badValue, some .badValue, some .ok, some .ok]
      ∧ [[1, 0], [0, 0, 0], [49, 0, 0], [1, 0, 6], [48, 0xFF, 5], [1, 0, 0]].map
          (fun b => statusOf (.slotRead .console) (ask s .console 0x0F b) .console)
        = [some .badLength, some .badValue, some .badValue, some .badValue, some .ok, some .ok]
      ∧ statuses (.slotRead .console) 0x0F [[1, 0, 0]] = [some .notFound]
      ∧ lead.slots.find? (fun x => x.number = 1) = none ∧ (s.slots.find? (fun x => x.number = 48)).isSome = true := by
  decide +kernel

theorem witness_RacksStagesAndFaultsAreRead :
    let f : CircuitFault := { circuit := 150, kind := .noLoad, stage := 0, firstSeen := 7, present := true }
    statuses (.rackRead .console) 6 [[], [0], [7], [1], [6]]
        = [some .badLength, some .badValue, some .badValue, some .ok, some .ok]
      ∧ ((replied (.rackRead .console) (desk 6 [6]) .console).map (fun x => x.2.length)) = some 303
      ∧ ((lead.line 5).live.length = 96 ∧ (lead.line 5).debounce.length = 96)
      ∧ statuses (.stageRead .console) 7 [[], [0], [4], [1], [3]]
          = [some .badLength, some .badValue, some .badValue, some .ok, some .ok]
      ∧ statuses (.faultsRead .console) 0x0C [[], [0]] = [some .ok, some .badLength]
      ∧ ((replied (.faultsRead .console) (ask (withFaults lead (List.replicate 64 f)) .console 0x0C []) .console).map
          (fun x => x.2.length)) = some 580 := by decide +kernel

theorem witness_reads_asked (body : List Byte) :
    Asked (desk 5 body) .console 5 .read body ∧ Asked (desk 0x0F body) .console 0x0F .read body
      ∧ Asked (desk 6 body) .console 6 .read body ∧ Asked (desk 7 body) .console 7 .read body
      ∧ Asked (desk 0x0C body) .console 0x0C .read body ∧ Asked (desk 9 body) .console 9 .read body
      ∧ Asked (desk 0x0A body) .console 0x0A .read body ∧ Asked (desk 0x0E body) .console 0x0E .read body
      ∧ Asked (desk 0x0D body) .console 0x0D .read body ∧ Asked (desk 8 body) .console 8 .read body
      ∧ Asked (desk 0x0B body) .console 0x0B .read body := by
  refine ⟨?_, ?_, ?_, ?_, ?_, ?_, ?_, ?_, ?_, ?_, ?_⟩ <;> exact asked_desk _ _ _

theorem witness_ListsBanksAndHouseAreRead :
    (lead.ctl.startUp = none ∧ (lead.proj 0).valid = true ∧ (lead.proj 1).valid = false)
      ∧ statuses (.listRead .console) 9 [[0, 1, 0, 0], [0, 1, 0x0F, 0x27], [1, 4, 0, 0], [0, 1, 0x10, 0x27]]
          = [some .ok, some .ok, some .blank, some .badValue]
      ∧ ((replied (.listRead .console) (desk 9 [0, 1, 10, 0]) .console).map (fun x => x.2)) = some [1, 0, 0, 20, 0, 1, 65]
      ∧ statuses (.bankInfo .console) 0x0A [[3], [4]] = [some .ok, some .badValue]
      ∧ statuses (.houseRead .console) 0x0E [[0], [1], [2], [3], [4], []]
          = [some .ok, some .ok, some .ok, some .ok, some .badValue, some .badLength] := by decide +kernel

theorem witness_FaultRecordReadAndAck :
    let s := { lead with sup := { lead.sup with record := some critical } }
    (lead.sup.record = none ∧ critical.critical = true ∧ lead.sup.halted = false)
      ∧ statuses (.faultRecordRead .console) 0x0D [[], [0]] = [some .ok, some .badLength]
      ∧ ((replied (.faultRecordRead .console) (ask s .console 0x0D []) .console).map (fun x => x.2.length)) = some 16
      ∧ statusOf (.faultAck .aux) (askAux ⟨true, true, true, true, true⟩ 0x49 []) .aux = some .notPermitted
      ∧ statuses (.faultAck .console) 0x49 [[], [0]] = [some .ok, some .badLength]
      ∧ (after (.faultAck .console) (ask s .console 0x49 [])).sup.record = none
      ∧ ((lead.takeFault critical).takeFault critical).sup.halted = true := by decide +kernel

theorem witness_CuesAreReadThroughTheQueue :
    let w := write (.cueWrite 0 (cue 15 [(1, 500)])) (some 0)
    let d := write (.cueDelete 0 20) (some 0)
    let e := write .bankErase (some 2)
    let s := withOp (withQueue lead [w, d, e]) .write
    (s.ctl.queue = [] ++ w :: [d, e] ∧ s.ctl.queue = [w] ++ d :: [e] ∧ s.ctl.queue = [w, d] ++ e :: []
        ∧ (∀ x ∈ [d, e], x.onCue 0 0 15 = none) ∧ (∀ x ∈ [e], x.onCue 0 0 20 = none))
      ∧ (s.cueAnswer 0 0 15 = .ready (cue 15 [(1, 500)]) ∧ s.cueAnswer 0 0 20 = .notFound
          ∧ s.cueAnswer 0 0 10 = .readPort ∧ s.cueAnswer 2 0 10 = .notFound)
      ∧ s.ctl.op.isSome = true ∧ lead.ctl.op = none
      ∧ [[0, 1, 15, 0, 0, 0], [0, 1, 20, 0, 0xFF, 5], [1, 1, 0x0F, 0x27, 0, 0]].map
          (fun b => statusOf (.cueRead .console) (ask s .console 8 b) .console) = [some .ok, some .notFound, some .blank]
      ∧ ((after (.cueRead .console) (ask s .console 8 [0, 1, 10, 0, 0, 0])).ctl.hostReads.length = 1)
      ∧ (after (.cueRead .console) (desk 8 [0, 1, 10, 0, 0, 0])).ctl.op
          = some (.hostRead (.cue ⟨.console, 7, 8⟩ 0 0 10 0))
      ∧ lead.eng.notices = []
      ∧ (let t := { desk 8 [0, 1, 10, 0, 0, 0] with eng := { lead.eng with notices := [2] } }
         (after (.cueRead .console) t).ctl.op = none ∧ (after (.cueRead .console) t).ctl.hostReads.length = 1) := by
  decide +kernel

theorem witness_calm : lead.Calm ∧ (withOp lead .write).Calm := ⟨.inr (by decide +kernel), .inl rfl⟩

def shelfBank : StoredBank :=
  { header := some (.seal Header.bytes header),
    segments := keptSegment [(1, ⟨2, 50, 1⟩)] :: List.replicate 23 (keptSegment []),
    windows := some (.seal Windows.bytes .empty),
    cues := ⟨[(10, .seal Cue.bytes (cue 10 [(1, 500)])), (12, { value := cue 12 [], check := 5 })], [], [], []⟩ }

def shelf : State := { lead with store := { lead.store with banks := lead.store.banks.set 0 shelfBank } }

theorem witness_PatchReadsAndHostReadsEnd :
    let e := write .bankErase (some 0)
    let x := write (.patchWrite [(5, some ⟨3, 100, 0⟩)]) (some 0)
    let s := withOp (withQueue lead [x, e, x]) .write
    let q : Requester := ⟨.console, 7, 8⟩
    let c := withOp shelf (.hostRead (.cue q 0 0 10 0))
    let p := withOp shelf (.hostRead (.patch q 0 1 96))
    (s.ctl.queue = [x] ++ e :: [x] ∧ (∀ y ∈ [x], ¬ (y.bank = some 0 ∧ y.kind = .bankErase)))
      ∧ (∀ y ∈ lead.ctl.queue, ¬ (y.bank = some 0 ∧ y.kind = .bankErase))
      ∧ statusOf (.patchRead .console) (ask s .console 0x0B [0, 1, 0, 96]) .console = some .ok
      ∧ statuses (.patchRead .console) 0x0B [[1, 0, 9, 1]] = [some .blank]
      ∧ (after (.patchRead .console) (desk 0x0B [0, 0, 9, 1])).ctl.op = some (.hostRead (.patch ⟨.console, 7, 0x0B⟩ 0 2304 1))
      ∧ (after (.patchRead .console) { desk 0x0B [0, 0, 9, 1] with eng := { lead.eng with notices := [2] } }).ctl.hostReads.length = 1
      ∧ statusOf (.hostReadDone (.done true)) c .console = some .ok
      ∧ statusOf (.hostReadDone (.done false)) c .console = some .checkFailed
      ∧ statusOf (.hostReadDone (.done true)) p .console = some .ok
      ∧ statusOf (.hostReadDone .notDone) p .console = some .checkFailed := by decide +kernel

theorem witness_stored_items :
    (shelf.storedCue 0 0 10 = some (cue 10 [(1, 500)]) ∧ shelf.storedCue 0 0 11 = none ∧ shelf.storedCue 0 0 12 = none)
      ∧ (shelf.storedRun 0 1 96 = some [(1, ⟨2, 50, 1⟩)] ∧ shelf.storedRun 0 96 2 = some [(1, ⟨2, 50, 1⟩)]
          ∧ shelf.storedSegment 0 1 = some [(1, ⟨2, 50, 1⟩)] ∧ shelf.storedSegment 0 24 = some []
          ∧ shelf.storedWindows 0 = some .empty ∧ lead.storedRun 0 1 96 = none ∧ lead.storedWindows 0 = none) := by
  decide +kernel

theorem witness_writes_onto_a_patch :
    let x := write (.patchWrite [(5, some ⟨3, 100, 0⟩)]) (some 0)
    let y := write (.windowWrite ⟨some ⟨1, 2, 3⟩, none, none, none⟩) (some 0)
    (x.ontoPatch 0 ([], .empty)).1 = [(5, ⟨3, 100, 0⟩)] ∧ (x.ontoPatch 1 ([], .empty)).1 = []
      ∧ (y.ontoPatch 0 ([], .empty)).2.get 0 = some ⟨1, 2, 3⟩ ∧ (y.ontoPatch 1 ([], .empty)).2.get 0 = none := by
  decide +kernel

theorem witness_PortIsGrantedInOrder :
    let f : Fetch := ⟨0, 2, 10, .order⟩
    let s := { lead with ctl := { lead.ctl with fetches := ⟨none, none, some f, some f⟩ } }
    let l := { withChange lead (loading false false 1 none) with ctl := { lead.ctl with loadClaim := some 1 } }
    let h := { lead with ctl := { lead.ctl with hostReads := [.patch ⟨.console, 7, 8⟩ 0 1 1] } }
    let u := { lead with ctl := { lead.ctl with startUp := some 4 } }
    let blank := write (.bankTitle []) (some 1)
    let doomed := { write (.cueWrite 0 (cue 3 [])) (some 0) with doomed := some .listFull }
    let gone := write (.cueDelete 0 11) (some 0)
    (u.ctl.op = none ∧ u.ctl.startUp = some 4 ∧ u.arbitrate.ctl.op = some (.startUp 4))
      ∧ ({ s with eng := { s.eng with notices := [3] } }.arbitrate.ctl.op = none ∧ s.eng.notices = [])
      ∧ (s.ctl.fetches.get 2 = some f ∧ (∀ q : PbId, q < 2 → s.ctl.fetches.get q = none)
          ∧ s.arbitrate.ctl.op = some (.fetch 2 f true))
      ∧ (l.bank.change = some (loading false false 1 none) ∧ l.ctl.loadClaim = some 1
          ∧ l.arbitrate.ctl.op = some (.load 2 1 true))
      ∧ h.arbitrate.ctl.op = some (.hostRead (.patch ⟨.console, 7, 8⟩ 0 1 1))
      ∧ (lead.headTest blank = some .blank ∧ lead.headTest doomed = some .listFull ∧ lead.headTest gone = some .notFound
          ∧ lead.headTest (write (.cueDelete 0 10) (some 0)) = none ∧ lead.headTest (write .bankErase (some 1)) = none
          ∧ lead.headTest (write (.bankTitle []) (some 0)) = none ∧ lead.headTest (write (.houseWrite (.lamp 60)) none) = none)
      ∧ ((withQueue lead [blank, gone, write .bankErase (some 1)]).arbitrate.ctl.op = some .write)
      ∧ (withQueue lead [blank, gone, write .bankErase (some 1)]).arbitrate.con.replies.map (fun r => r.status)
          = [.blank, .notFound]
      ∧ (header.valid = true ∧ Assoc.wf (header.dir.get 0) = true) := by decide +kernel

theorem witness_edits_asked (body : List Byte) :
    Asked (desk 0x20 body) .console 0x20 .edit body ∧ Asked (desk 0x21 body) .console 0x21 .edit body
      ∧ Asked (desk 0x22 body) .console 0x22 .edit body ∧ Asked (desk 0x23 body) .console 0x23 .edit body
      ∧ Asked (desk 0x24 body) .console 0x24 .edit body ∧ Asked (desk 0x25 body) .console 0x25 .edit body
      ∧ Asked (desk 0x26 body) .console 0x26 .edit body ∧ Asked (desk 0x27 body) .console 0x27 .edit body
      ∧ Asked (desk 0x28 body) .console 0x28 .edit body ∧ lead.sup.halted = false := by
  refine ⟨?_, ?_, ?_, ?_, ?_, ?_, ?_, ?_, ?_, rfl⟩ <;> exact asked_desk _ _ _

/-- A console with an OPEN cue builder. -/
def building (levels : List (Nat × Nat)) : State := lead.setBuilder .console (some ⟨0, 0, cue 15 levels⟩)

theorem witness_CuesAreBuiltAndQueued :
    let c := { cue 9999 [] with up := 6000, down := some 6000, link := some 1, follow := some 0, label := List.replicate 16 126 }
    let full := withQueue lead eight
    parseCueOpen (cueHeader 3 3 c) = .ok ⟨3, 3, c⟩
      ∧ (statuses (.cueOpen .console) 0x20 [cueHeader 0 0 c, cueHeader 1 0 c] = [some .ok, some .blank])
      ∧ statusOf (.cueOpen .console) (ask (building []) .console 0x20 (cueHeader 0 0 c)) .console = some .builderOpen
      ∧ [[(1, 0)], [(1536, 1000)], [(5, 1), (5, 1)]].map (fun es => statusOf (.cueAdd .console)
          (ask (building [(1, 5)]) .console 0x21 (b1 es.length ++ es.flatMap entryBytes)) .console)
        = [some .badValue, some .ok, some .badValue]
      ∧ statuses (.cueAdd .console) 0x21 [b1 1 ++ entryBytes (1, 0)] = [some .noBuilder]
      ∧ statusOf (.cueAdd .console) (ask (building ((List.range 1536).map (fun i => (i, 1)))) .console 0x21
          (b1 1 ++ entryBytes (1536, 0))) .console = some .badValue
      ∧ statuses (.cueAbandon .console) 0x23 [[]] = [some .noBuilder]
      ∧ (after (.cueAbandon .console) (ask (building []) .console 0x23 [])).con.builder = none
      ∧ statuses (.cueClose .console) 0x22 [[]] = [some .noBuilder]
      ∧ (after (.cueClose .console) (ask (building [(1, 5)]) .console 0x22 [])).ctl.queue.map (fun w => w.kind)
          = [.cueWrite 0 (cue 15 [(1, 5)])]
      ∧ statusOf (.cueClose .console) (ask (withQueue (building []) eight) .console 0x22 []) .console = some .storeBusy
      ∧ statuses (.cueDelete .console) 0x24 [[1, 1, 10, 0], [0, 1, 11, 0]] = [some .blank, some .notFound]
      ∧ ((after (.cueDelete .console) (desk 0x24 [0, 1, 10, 0])).ctl.queue.length = 1)
      ∧ statusOf (.cueDelete .console) (ask full .console 0x24 [0, 1, 10, 0]) .console = some .storeBusy := by
  decide +kernel

theorem witness_bad_cue_requests :
    let c := { cue 9999 [] with up := 6000, down := some 6000, upDelay := 6000, downDelay := 6000, follow := some 6000 }
    let open_ := fun (i : Nat) (x : List Byte) => (cueHeader 0 0 c).take i ++ x ++ (cueHeader 0 0 c).drop (i + x.length)
    let add := fun (c l : Nat) => b1 1 ++ entryBytes (c, l)
    statuses (.cueOpen .console) 0x20
        ([open_ 0 [4], open_ 1 [0], open_ 1 [5], open_ 2 (b2 0), open_ 2 (b2 10000), open_ 4 (b2 6001), open_ 6 (b2 6001),
          open_ 8 (b2 6001), open_ 10 (b2 6001), open_ 12 (b2 65534), open_ 14 (b2 0), open_ 14 (b2 10000), open_ 16 [2],
          open_ 17 ([17] ++ List.replicate 17 65), open_ 17 [1, 31], open_ 17 [1, 127]])
      = List.replicate 16 (some .badValue)
      ∧ statuses (.cueOpen .console) 0x20 [cueHeader 0 0 c, open_ 6 (b2 65535), open_ 12 (b2 65535)]
          = List.replicate 3 (some .ok)
      ∧ [[0], add 0 5, add 1537 5, add 1 1001].map (fun b => statusOf (.cueAdd .console) (ask (building []) .console 0x21 b)
          .console) = List.replicate 4 (some .badValue)
      ∧ statuses (.cueDelete .console) 0x24 [[4, 1, 10, 0], [0, 0, 10, 0], [0, 5, 10, 0], [0, 1, 0, 0], [0, 1, 0x10, 0x27]]
          = List.replicate 5 (some .badValue) := by decide +kernel

theorem witness_bad_record :
    let rec_ := fun (p : Byte) (n up down : Nat) (l : List Byte) => [p] ++ b2 n ++ b2 up ++ b2 down ++ b1 l.length ++ l
    statuses (.record .console) 0x28
        [rec_ 0 1 0 0 [], rec_ 5 1 0 0 [], rec_ 1 0 0 0 [], rec_ 1 10000 0 0 [], rec_ 1 1 6001 0 [], rec_ 1 1 0 6001 [],
         rec_ 1 1 0 0 (List.replicate 17 65), rec_ 1 1 0 0 [31], rec_ 1 1 0 0 [127]] = List.replicate 9 (some .badValue) := by
  decide +kernel

theorem witness_cueClose_capacity :
    let many : Header := { header with dir := ⟨(List.range 800).map (fun i => (i + 1, ⟨[], 0⟩)), [], [], []⟩ }
    let s := { building [] with ctl := { lead.ctl with proj := ⟨many, .blank, many, .blank⟩ } }
    let t := { s with con := { s.con with builder := some ⟨0, 1, cue 900 []⟩ } }
    let deep : Header := { header with dir := ⟨[(1, ⟨[], 60000⟩)], [], [], []⟩ }
    many.valid = true ∧ Assoc.wf (many.dir.get 0) = true ∧ many.capacity 1 (cue 900 []) = some .listFull
      ∧ many.capacity 0 (cue 15 []) = none
      ∧ (deep.capacity 0 (cue 2 [(1, 5)]) = some .poolFull ∧ deep.capacity 0 (cue 2 []) = none
          ∧ deep.capacity 0 (cue 1 [(1, 5)]) = none)
      ∧ statusOf (.cueClose .console) (ask { building [(1, 5)] with ctl := { lead.ctl with proj := ⟨deep, .blank, deep, .blank⟩ } }
          .console 0x22 []) .console = some .poolFull
      ∧ statusOf (.cueClose .console) (ask t .console 0x22 []) .console = some .listFull
      ∧ statusOf (.cueClose .console) (ask { t with con := { t.con with builder := some ⟨1, 0, cue 9 []⟩ } } .console 0x22 [])
          .console = some .blank := by decide +kernel

theorem witness_record :
    let b : List Byte := [4] ++ b2 9999 ++ b2 6000 ++ b2 65535 ++ [1, 32]
    statusOf (.record .console) (ask noShow .console 0x28 b) .console = some .noShow
      ∧ ((after (.record .console) (desk 0x28 b)).ctl.queue.map (fun w => w.bank) = [some 0])
      ∧ statusOf (.record .console) (ask (withQueue lead eight) .console 0x28 b) .console = some .storeBusy
      ∧ lead.bank.active = some 0 := by decide +kernel

theorem witness_BankWritesAreQueued :
    let full := withQueue lead eight
    let set := fun (b : Byte) => [b, 1] ++ b2 2304 ++ b2 1536 ++ ([100, 7] : List Byte)
    let none_ : List Byte := [0] ++ b2 0 ++ b2 0 ++ b2 0
    let win := fun (b : Byte) (f l : Nat) =>
      [b] ++ ([1] ++ b2 1 ++ b2 100 ++ b2 1536) ++ ([1] ++ b2 f ++ b2 l ++ b2 1) ++ none_ ++ none_
    parsePatchSet (set 0) = .ok (0, [(2304, some ⟨1536, 100, 7⟩)])
      ∧ parseWindowSet (win 0 101 2304) = .ok (0, ⟨some ⟨1, 100, 1536⟩, some ⟨101, 2304, 1⟩, none, none⟩)
      ∧ statuses (.patchSet .console) 0x25 [set 1] = [some .blank]
      ∧ ((after (.patchSet .console) (desk 0x25 (set 0))).ctl.queue.length = 1)
      ∧ statusOf (.patchSet .console) (ask full .console 0x25 (set 0)) .console = some .storeBusy
      ∧ statuses (.windowSet .console) 0x26 [win 0 100 101, win 1 101 2304] = [some .overlap, some .blank]
      ∧ ((after (.windowSet .console) (desk 0x26 (win 0 101 2304))).ctl.queue.length = 1)
      ∧ statusOf (.windowSet .console) (ask full .console 0x26 (win 0 101 2304)) .console = some .storeBusy
      ∧ statuses (.bankTitle .console) 0x27 [[1, 0]] = [some .blank]
      ∧ ((after (.bankTitle .console) (desk 0x27 ([0, 24] ++ List.replicate 24 32))).ctl.queue.length = 1)
      ∧ statusOf (.bankTitle .console) (ask full .console 0x27 [0, 0]) .console = some .storeBusy
      ∧ statuses (.bankErase .console) 0x52 [[0]] = [some .activeBank]
      ∧ statusOf (.bankErase .console) (ask (withChange lead (loading true false 1 none)) .console 0x52 [2]) .console
          = some .inChangeover
      ∧ ((after (.bankErase .console) (desk 0x52 [3])).ctl.queue.length = 1)
      ∧ statusOf (.bankErase .console) (ask full .console 0x52 [3]) .console = some .storeBusy := by decide +kernel

theorem witness_bad_bank_writes :
    let none_ : List Byte := [0] ++ b2 0 ++ b2 0 ++ b2 0
    let win := fun (b : Byte) (f l : Nat) =>
      [b] ++ ([1] ++ b2 1 ++ b2 100 ++ b2 1536) ++ ([1] ++ b2 f ++ b2 l ++ b2 1) ++ none_ ++ none_
    let w := fun (n : Nat) => (⟨some ⟨1, 100, 1⟩, none, some ⟨n, 101, 1⟩, none⟩ : Windows)
    statuses (.patchSet .console) 0x25
        [[4, 1] ++ b2 1 ++ b2 1 ++ [0, 0], [0, 0], [0, 1] ++ b2 2305 ++ b2 1 ++ [0, 0], [0, 1] ++ b2 1 ++ b2 1537 ++ [0, 0],
         [0, 1] ++ b2 1 ++ b2 1 ++ [101, 0], [0, 1] ++ b2 1 ++ b2 1 ++ [0, 8],
         [0, 2] ++ b2 5 ++ b2 1 ++ [0, 0] ++ b2 5 ++ b2 1 ++ [0, 0]]
      = List.replicate 7 (some .badValue)
      ∧ parsePatchSet ([3, 1] ++ b2 1 ++ b2 65535 ++ [200, 9]) = .ok (3, [(1, none)])
      ∧ statuses (.windowSet .console) 0x26 [win 4 101 2304, win 0 0 5, win 0 101 2305, win 0 102 101,
           [0, 2] ++ List.replicate 27 0] = List.replicate 5 (some .badValue)
      ∧ statuses (.bankTitle .console) 0x27 [[4, 0], [0, 25] ++ List.replicate 25 65, [0, 1, 31], [0, 1, 127]]
          = List.replicate 4 (some .badValue)
      ∧ (Windows.overlap (w 100) = true ∧ Windows.overlap (w 101) = false) := by decide +kernel

theorem witness_HouseWritesAreQueued :
    let full := withQueue lead eight
    let queues := fun (c : Instr) (k : Nat) (b : List Byte) => ((after c (desk k b)).ctl.queue.map (fun w => (w.kind, w.status)))
    let curve := [1] ++ (List.range 21).flatMap (fun i => b2 (i * 3276))
    queues (.houseSet .console) 0x53 [2, 101, 0] = [(.houseWrite (.silence 100), .adjusted)]
      ∧ queues (.curveSet .console) 0x54 curve = [(.houseWrite (.curve 1 ((List.range 21).map (· * 3276))), .ok)]
      ∧ queues (.houseCircuitsSet .console) 0x55 [7, 1, 0, 9, 0, 0, 0, 0, 0, 0]
          = [(.houseWrite (.groups ⟨⟨[2304], 7⟩, ⟨[], 0⟩, ⟨[], 0⟩, ⟨[], 0⟩⟩), .ok)]
      ∧ queues (.safeLookSet .console) 0x56 ([1] ++ b2 2304 ++ b2 1000) = [(.houseWrite (.safeLook [(2304, 1000)]), .ok)]
      ∧ queues (.lineSet .console) 0x57 [3, 6, 1, 0, 1] = [(.houseWrite (.line 3 6 ⟨true, false, true⟩), .ok)]
      ∧ queues (.inputSet .console) 0x58 [4, 1, 4, 2] = [(.houseWrite (.input 3 ⟨true, 3, .hold⟩), .ok)]
      ∧ statusOf (.houseSet .console) (ask full .console 0x53 [2, 100, 0]) .console = some .storeBusy := by decide +kernel

theorem witness_house_set :
    let queued := fun (sel v : Nat) => ((after (.houseSet .console) (desk 0x53 (b1 sel ++ b2 v))).ctl.queue.map
      (fun w => (w.kind, w.status)))
    queued 1 3 = [(.houseWrite (.resident (some 3)), .ok)] ∧ queued 1 4 = [(.houseWrite (.resident none), .ok)]
      ∧ (queued 3 0 = [(.houseWrite (.policy .continue_), .ok)] ∧ queued 3 1 = [(.houseWrite (.policy .freeze), .ok)]
          ∧ queued 3 2 = [(.houseWrite (.policy .safe), .ok)])
      ∧ (queued 4 600 = [(.houseWrite (.safeFade 600), .ok)] ∧ queued 4 601 = [(.houseWrite (.safeFade 600), .adjusted)]
          ∧ queued 5 600 = [(.houseWrite (.backTime 600), .ok)] ∧ queued 5 65535 = [(.houseWrite (.backTime 600), .adjusted)])
      ∧ [49, 50, 500, 501].map (fun v => queued 6 v)
          = [[(.houseWrite (.lamp 50), .adjusted)], [(.houseWrite (.lamp 50), .ok)], [(.houseWrite (.lamp 500), .ok)],
             [(.houseWrite (.lamp 500), .adjusted)]]
      ∧ statuses (.houseSet .console) 0x53 [b1 0 ++ b2 1, b1 7 ++ b2 1, b1 1 ++ b2 5, b1 3 ++ b2 3]
          = List.replicate 4 (some .badValue) := by decide +kernel

theorem witness_house_bodies :
    let curve := fun (n : Nat) (points : List Nat) => b1 n ++ points.flatMap b2
    let points := [0, 2000, 1500, 1800, 6000] ++ List.replicate 16 65535
    let groups := fun (a b : List Nat) (c : Nat) =>
      b1 c ++ b1 a.length ++ a.flatMap b2 ++ (b1 0 ++ b1 b.length ++ b.flatMap b2) ++ [0, 0, 0, 0]
    let look := fun (e : List (Nat × Nat)) => b1 e.length ++ e.flatMap (fun x => b2 x.1 ++ b2 x.2)
    (after (.curveSet .console) (desk 0x54 (curve 7 points))).ctl.queue.map (fun w => (w.kind, w.status))
        = [(.houseWrite (.curve 7 ([0, 2000, 2000, 2000, 6000] ++ List.replicate 16 65535)), .adjusted)]
      ∧ statuses (.curveSet .console) 0x54 [curve 0 points, curve 8 points] = List.replicate 2 (some .badValue)
      ∧ statuses (.houseCircuitsSet .console) 0x55
          [groups [1] [2] 8, groups [0] [] 0, groups [2305] [] 0, groups [3, 3] [] 0, groups [5] [4, 5] 0,
           groups ((List.range 40).map (· + 1)) ((List.range 9).map (· + 50)) 0] = List.replicate 6 (some .badValue)
      ∧ (after (.houseCircuitsSet .console) (desk 0x55 (groups ((List.range 40).map (· + 1)) ((List.range 8).map (· + 50)) 7))).ctl.queue.length
          = 1
      ∧ statuses (.safeLookSet .console) 0x56
          [look ((List.range 129).map (fun i => (i + 1, 0))), look [(0, 5)], look [(2305, 5)], look [(1, 1001)],
           look [(4, 5), (4, 6)]] = List.replicate 5 (some .badValue)
      ∧ (after (.safeLookSet .console) (desk 0x56 (look ((List.range 128).map (fun i => (i + 1, 1000)))))).ctl.queue.length = 1
      ∧ statuses (.lineSet .console) 0x57
          [[4, 1, 0, 0, 0], [0, 0, 0, 0, 0], [0, 7, 0, 0, 0], [0, 1, 2, 0, 0], [0, 1, 0, 2, 0], [0, 1, 0, 0, 2]]
          = List.replicate 6 (some .badValue)
      ∧ statuses (.inputSet .console) 0x58 [[0, 0, 1, 0], [5, 0, 1, 0], [1, 2, 1, 0], [1, 0, 0, 0], [1, 0, 5, 0], [1, 0, 1, 3]]
          = List.replicate 6 (some .badValue) := by decide +kernel

theorem witness_WriteStepsEnd :
    let w := write (.cueWrite 0 (cue 15 [(1, 5)])) (some 0)
    let s := fun (w : WriteEntry) => withQueue (withOp shelf .write) [w]
    let erase := fun (n : Nat) => let t := s (write .bankErase (some 2)); { t with ctl := { t.ctl with eraseStep := n } }
    let house := fun (i : HouseItem) => after (.writeStepDone (.done true [])) (s (write (.houseWrite i) none))
    ((s w).ctl.op = some .write ∧ (s w).ctl.queue = w :: [] ∧ w.kind ≠ .bankErase ∧ (s w).isFollower = false
        ∧ (s w).cas.role = .leader)
      ∧ ((erase 26).ctl.eraseStep < 27 ∧ 27 ≤ (erase 27).ctl.eraseStep)
      ∧ (after (.writeStepDone (.done true [])) (s w)).eng.notices = [0]
      ∧ (after (.writeStepDone (.done false [])) (s w)).sup.raised.map (fun f => f.value) = [4]
      ∧ (after (.writeStepDone (.done true [])) (erase 0)).ctl.eraseStep = 1
      ∧ (after (.writeStepDone (.done true [])) (erase 27)).ctl.queue = []
      ∧ (after (.writeStepDone (.done true [])) (s (write (.windowWrite .empty) (some 0)))).patch.notices
          = [.windows 0 .empty]
      ∧ (after (.writeStepDone (.done true [])) (s (write (.patchWrite [(5, none)]) (some 0)))).patch.notices
          = [.entries 0 [(5, none)]]
      ∧ ((after (.writeStepDone (.done true [])) (s (write (.patchWrite [(5, none)]) (some 0)))).storedSegment 0 1
          = some [(1, ⟨2, 50, 1⟩)])
      ∧ ((after (.writeStepDone (.done true [1])) (s (write (.patchWrite [(5, some ⟨9, 100, 0⟩)]) (some 0)))).storedSegment 0 1
          = some [(5, ⟨9, 100, 0⟩)])
      ∧ ((noticePairs [(5, some ⟨9, 100, 0⟩), (97, none)] [1] shelfBank.segments).length = 97
          ∧ shelfBank.segments.length = 24)
      ∧ (write (.houseWrite (.lamp 60)) none).fields = [6, 60, 0] ∧ w.fields = [0, 0, 1, 0, 15, 0]
      ∧ (State.reproject 0 { header with dir := ⟨(List.range 800).map (fun i => (i + 1, ⟨[], 0⟩)), [], [], []⟩ }
          [write (.cueWrite 1 (cue 15 [])) (some 0), w]).2.map (fun x => x.doomed) = [some .listFull, none]
      ∧ ((house (.safeFade 7)).outp.safeFade = 7 ∧ (house (.safeFade 7)).cas.gens = ⟨2, 2, 2⟩)
      ∧ ((house (.line 3 6 ⟨true, true, true⟩)).cas.gens = ⟨1, 1, 2⟩)
      ∧ ((house (.line 0 6 ⟨true, true, true⟩)).line 5).clock = some 40
      ∧ (house (.backTime 9)).eng.backTime = 9 := by decide +kernel

theorem witness_StoreTimeoutEndsTheOperation :
    let f : Fetch := ⟨0, 1, 10, .order⟩
    let values := fun (op : StoreOp) => (after .storeTimeout (withOp lead op)).sup.raised.map (fun x => (x.critical, x.value))
    let start := fun (i : Nat) => withOp { State.reset with ctl := { StoreCtl.reset with startUp := some i } } (.startUp i)
    (start 42).cas.role = .undecided
      ∧ values (.fetch 1 f false) = [(true, 1)] ∧ values (.fetch 1 f true) = [(true, 1), (true, 10)]
      ∧ values (.load 2 5 false) = [(true, 2)]
      ∧ values (.hostRead (.patch ⟨.console, 7, 8⟩ 0 1 1)) = [(false, 3)]
      ∧ values (.hostRead (.cue ⟨.console, 7, 8⟩ 0 0 1 0)) = [(false, 3)]
      ∧ ((after .storeTimeout (start 42)).ctl.failed = [42]) ∧ ((after .storeTimeout (start 46)).ctl.startUp = none)
      ∧ (after .storeTimeout (withQueue (withOp lead .write) [write (.bankTitle []) (some 0)])).ctl.queue = [] := by
  decide +kernel

theorem witness_FetchesStartFromTheSuccessor :
    let s := fun (x : Playback) => withPb lead 0 x
    let ex := s { Playback.reset with explicit := some 20 }
    let link := s { Playback.reset with lastRun := some ⟨10, some 30⟩ }
    let order := s { Playback.reset with lastRun := some ⟨10, none⟩ }
    (noShow.bank.active = none ∧ lead.bank.active = some 0)
      ∧ (ex.successor 0 = some (20, .explicit) ∧ link.successor 0 = some (30, .link)
          ∧ order.successor 0 = some (20, .order) ∧ (s .reset).successor 0 = some (10, .first)
          ∧ noShow.successor 0 = none)
      ∧ (Assoc.find ((link.proj 0).dir.get 0) 30 = none ∧ (Assoc.find ((ex.proj 0).dir.get 0) 20).isSome = true)
      ∧ ((link.startFetchCore 0).pb 0).standby = .missing 30 .link
      ∧ ((ex.startFetchCore 0).pb 0).standby = .fetching 20 .explicit
      ∧ (((withQueue ex [write (.cueWrite 0 (cue 20 [(1, 2)])) (some 0)]).startFetchCore 0).pb 0).standby
          = .ready 0 0 .explicit (cue 20 [(1, 2)])
      ∧ ((noShow.startFetchCore 0).pb 0).standby = .none
      ∧ (let was := fun (t : State) (y : Standby) => ((withPb t 0 { t.pb 0 with standby := y }).startFetchCore 0).link.reports.map
           (fun x => (x.kind, x.fields))
         (was noShow .none = [] ∧ was noShow (.missing 3 .link) = [(0xE1, [1, 0, 0, 0, 0])])
           ∧ (was link (.missing 30 .explicit) = [] ∧ was link (.missing 31 .link) = [(0xE1, [1, 3, 30, 0, 2])]
               ∧ was link .none = [(0xE1, [1, 3, 30, 0, 2])] ∧ was ex .none = [])) := by decide +kernel

theorem witness_FetchOutcomesAndNotices :
    let f : Fetch := ⟨0, 0, 10, .first⟩
    let h : PendingGo := ⟨.port ⟨.console, 4, 0x30⟩, none, false⟩
    let g : PendingGo := ⟨.follow, none, false⟩
    let s := fun (w : Bool) => withOp shelf (.fetch 0 f w)
    let t := withPb (s true) 0 { Playback.reset with pendingGo := some g }
    let bad := withOp shelf (.fetch 0 { f with number := 11 } true)
    ((s true).storedCue 0 0 10 = some (cue 10 [(1, 500)]) ∧ ((s true).pb 0).pendingGo = none
        ∧ (t.pb 0).pendingGo = some g ∧ bad.storedCue 0 0 11 = none)
      ∧ ((after (.fetchDone (.done true)) (s true)).pb 0).standby = .ready 0 0 .first (cue 10 [(1, 500)])
      ∧ ((after (.fetchDone (.done true)) t).slots.length = 1)
      ∧ (((after (.fetchDone (.done true)) (s true)).con.sending
            = some (.report { kind := 0xE1, urgent := false, time := 0,
                              fields := [1, 1, 10, 0, 0, 0, 10, 0, 0xFF, 0xFF, 0xFF, 0xFF, 0, 1, 0] } false))
          ∧ ((after (.fetchDone (.done true)) bad).con.sending
            = some (.report { kind := 0xE1, urgent := false, time := 0, fields := [1, 2, 11, 0, 0] } false)))
      ∧ ((after (.fetchDone (.done true)) bad).pb 0).standby = .bad 11 .first
      ∧ (after (.fetchDone .notDone) (withPb t 0 { t.pb 0 with pendingGo := some h })).con.outgoing.map
          (fun r => (r.tag, r.status)) = [(4, .checkFailed)]
      ∧ ([Standby.missing 3 .link, .none, .bad 3 .link, .fetching 3 .link].map (fun y =>
            ((withPb lead 0 { Playback.reset with standby := y, pendingGo := some h }).handPending 0).con.outgoing.map
              (fun r => r.status))
          = [[.notFound], [.endOfList], [.checkFailed], []])
      ∧ (((withPb lead 0 { Playback.reset with standby := .missing 3 .link, pendingGo := some g }).handPending 0).sup.raised.map
          (fun x => (x.kind, x.value)) = [(.followMissing, 3)])
      ∧ ((after (.fetchDone (.done true)) (s false)).pb 0).standby = .none
      ∧ ((after .listNotice { lead with eng := { lead.eng with notices := [0, 1] } }).eng.notices = [1])
      ∧ (after .patchNotice { lead with patch := { lead.patch with notices := [.entries 0 [(5, some ⟨2, 50, 0⟩)]] } }).patch.active
          = [(5, ⟨2, 50, 0⟩)]
      ∧ (after .patchNotice { withChange lead (loading true false 1 none) with
          patch := { lead.patch with notices := [.windows 2 ⟨some ⟨1, 2, 3⟩, none, none, none⟩] } }).patch.pendingWindows.x0
          = some ⟨1, 2, 3⟩ := by decide +kernel

theorem witness_playbacks_asked (body : List Byte) :
    Asked (desk 0x30 body) .console 0x30 .playback body ∧ Asked (desk 0x31 body) .console 0x31 .playback body
      ∧ Asked (desk 0x32 body) .console 0x32 .playback body ∧ Asked (desk 0x33 body) .console 0x33 .playback body
      ∧ Asked (desk 0x34 body) .console 0x34 .playback body ∧ Asked (desk 0x35 body) .console 0x35 .playback body
      ∧ Asked (desk 0x36 body) .console 0x36 .playback body := by
  refine ⟨?_, ?_, ?_, ?_, ?_, ?_, ?_⟩ <;> exact asked_desk _ _ _

theorem witness_GoTakesTheStandby :
    let g : PendingGo := ⟨.follow, none, false⟩
    let s := fun (y : Standby) (p : Option PendingGo) => withPb lead 0 { Playback.reset with standby := y, pendingGo := p }
    let go := fun (t : State) (b : List Byte) => replied (.go .console) (ask t .console 0x30 b) .console
    let r := s (ready 10 [(1, 500)]) none
    (∀ y ∈ [Standby.none, .missing 3 .link, .bad 3 .link, .fetching 3 .link], ((s y none).pb 0).standby = y)
      ∧ ([Standby.none, .missing 3 .link, .bad 3 .link].map (fun y => (go (s y none) [1, 0, 0]).map (fun x => x.1))
          = [some .endOfList, some .notFound, some .checkFailed])
      ∧ (go noShow [1, 0, 0]).map (fun x => x.1) = some .noShow
      ∧ ((after (.go .console) (ask (s (.fetching 3 .link) none) .console 0x30 [1, 0xFF, 0xFF])).pb 0).pendingGo.isSome = true
      ∧ (go (s (.fetching 3 .link) (some g)) [1, 0, 0]).map (fun x => x.1) = some .goPending
      ∧ slotRefusal 0 (cueMoves 0 [] r.slots (cue 10 [(1, 500)])) r.slots = none
      ∧ slotRefusal 0 (cueMoves 0 [] fullSlots (cue 10 [(1, 500)])) fullSlots = some .noSlot
      ∧ (go (withSlots r fullSlots) [1, 0, 0]).map (fun x => x.1) = some .noSlot
      ∧ go r [1, 0xFF, 0xFF] = some (.ok, [1, 0, 10, 0, 1, 1, 0xFF, 0xFF])
      ∧ go r [1, 0x71, 0x17] = some (.adjusted, [1, 0, 10, 0, 1, 1, 0x70, 0x17])
      ∧ go r [1, 0x70, 0x17] = some (.ok, [1, 0, 10, 0, 1, 1, 0x70, 0x17]) := by decide +kernel

theorem witness_go_from_any_source :
    let s := fun (y : Standby) (p : Option PendingGo) => withPb lead 0 { Playback.reset with standby := y, pendingGo := p }
    let kinds := fun (t : State) => t.link.reports.map (fun x => (x.kind, x.fields.take 7))
    let r := s (ready 10 [(1, 500)]) none
    (r.goCommand 0 (.input 3) none false).inputs.x3.last = some (.go, .taken)
      ∧ (kinds (r.goCommand 0 (.input 3) none false)).take 2
          = [(0xEF, [1, 0, 10, 0, 4, 4, 1]), (0xED, [4, 0, 1, 0, 0, 10, 0])]
      ∧ (kinds (r.goCommand 0 .follow none false)).head? = some (0xEF, [1, 0, 10, 0, 3, 0, 1])
      ∧ kinds ((s (.fetching 3 .link) none).goCommand 0 (.input 3) none false) = [(0xED, [4, 0, 1, 2, 0, 0, 0])]
      ∧ ((s (.fetching 3 .link) (some ⟨.follow, none, false⟩)).goCommand 0 (.input 3) none false).inputs.x3.last
          = some (.go, .refused .goPending)
      ∧ (noShow.goCommand 0 (.input 3) none false).inputs.x3.last = some (.go, .refused .noShow)
      ∧ ((withSlots r fullSlots).goCommand 0 (.input 3) none false).inputs.x3.last = some (.go, .refused .noSlot) := by
  decide +kernel

theorem witness_MovesAndBackEntriesOfACue :
    let c := cue 10 [(1, 500), (3, 0)]
    let look : Look := [(2, 700), (3, 9)]
    let e := fun (n : Nat) => ({ cue := 1, levels := List.replicate n (1, 0) } : BackEntry)
    (Assoc.wf c.levels = true ∧ Assoc.wf look = true)
      ∧ cueMoves 0 look [] c = [⟨1, 0, 500⟩, ⟨3, 9, 0⟩]
      ∧ cueMoves 0 look [] { c with block := true } = [⟨1, 0, 500⟩, ⟨2, 700, 0⟩, ⟨3, 9, 0⟩]
      ∧ ((List.replicate 4 (e 1)).length ≤ 4 ∧ 8000 + stackUse [e 100, e 92] ≤ 8192)
      ∧ pushBack (List.replicate 4 (e 1)) 0 (e 2) = (e 2 :: List.replicate 3 (e 1), true)
      ∧ pushBack [e 100, e 92] 8000 (e 192) = ([e 192], true) ∧ pushBack [e 100, e 92] 8000 (e 193) = ([], false) := by
  decide +kernel

theorem witness_takeover_and_capacity :
    let new : List Move := [⟨1, 0, 900⟩, ⟨2, 0, 900⟩]
    let big := slot 2 1 100 100 0 0 0 (List.replicate 16383 ⟨9, 0, 1⟩)
    (takeover 3 new fullSlots).map (fun x => x.number) = (List.range 46).map (· + 3)
      ∧ (48 ≤ fullSlots.length ∧ slotRefusal 3 new fullSlots = none ∧ slotRefusal 2 new fullSlots = some .noSlot)
      ∧ (slotRefusal 3 new [big] = some .poolFull ∧ slotRefusal 3 [⟨1, 0, 900⟩] [big] = none)
      ∧ (freeSlot [] = 1 ∧ freeSlot (fullSlots.take 47) = 48 ∧ freeSlot (takeover 3 new fullSlots) = 1
          ∧ freeSlot (fullSlots.take 4 ++ fullSlots.drop 5) = 5)
      ∧ (insertSlot (slot 5 0 0 0 0 0 0 []) (fullSlots.take 4 ++ fullSlots.drop 5)).map (fun x => x.number)
          = (List.range 48).map (· + 1) := by decide +kernel

theorem witness_BackReturnsToThePriorLevels :
    let e : BackEntry := { cue := 10, levels := [(1, 300)] }
    let s := fun (p : Option PendingGo) => withPb lead 0 { Playback.reset with back := [e], pendingGo := p, state := .settled }
    let back := fun (t : State) => replied (.back .console) (ask t .console 0x31 [1]) .console
    ((lead.pb 0).back = [] ∧ ((s none).pb 0).back = e :: [])
      ∧ back lead = some (.noBack, []) ∧ back (s (some ⟨.follow, none, false⟩)) = some (.goPending, [])
      ∧ back (withSlots (s none) fullSlots) = some (.noSlot, []) ∧ back (s none) = some (.ok, [1, 10, 0, 1, 0, 0, 0])
      ∧ (after (.back .console) (ask (s none) .console 0x31 [1])).ctl.op = some (.fetch 0 ⟨0, 0, 10, .explicit⟩ true) := by
  decide +kernel

theorem witness_HoldPausesAndResumeGoesOn :
    let s := fun (st : PbState) (f : Option FollowTimer) => withSlots (withPb lead 3 { Playback.reset with state := st, follow := f })
      [slot 1 3 100 100 0 0 5 [⟨1, 0, 500⟩]]
    let hold := fun (t : State) => replied (.hold .console) (ask t .console 0x32 [4]) .console
    let resume := fun (t : State) => replied (.resume .console) (ask t .console 0x33 [4]) .console
    [s .running none, s .settled (some ⟨5, false, false⟩), s .held none, s .empty none, s .settled none].map hold
        = [some (.ok, [4, 2, 0, 1, 0, 0xFF, 0xFF]), some (.ok, [4, 2, 0, 1, 0, 5, 0]), some (.ok, [4, 2, 0, 1, 0, 0xFF, 0xFF]),
           some (.idlePlayback, []), some (.idlePlayback, [])]
      ∧ [s .held none, withSlots (s .held none) [], s .running none].map resume
          = [some (.ok, [4, 1, 0]), some (.ok, [4, 3, 0]), some (.idlePlayback, [])] := by decide +kernel

theorem witness_JumpSetsTheStandby :
    let jump := fun (t : State) (b : List Byte) => replied (.jump .console) (ask t .console 0x34 b) .console
    let s := withPb lead 0 { Playback.reset with pendingGo := some ⟨.follow, none, false⟩ }
    jump noShow [1, 10, 0] = some (.noShow, []) ∧ jump s [1, 10, 0] = some (.goPending, [])
      ∧ jump lead [1, 0x0F, 0x27] = some (.notFound, []) ∧ jump lead [1, 20, 0] = some (.ok, [1, 20, 0])
      ∧ ((after (.jump .console) (desk 0x34 [1, 20, 0])).pb 0).explicit = some 20
      ∧ (after (.jump .console) (desk 0x34 [1, 20, 0])).ctl.op = some (.fetch 0 ⟨0, 0, 20, .explicit⟩ true) := by decide +kernel

theorem witness_ReleaseFadesOut :
    let release := fun (t : State) (b : List Byte) => replied (.release .console) (ask t .console 0x35 b) .console
    let s := fun (p : Option PendingGo) => withPb lead 0
      { Playback.reset with state := .settled, look := [(5, 600)], pendingGo := p }
    (lead.pb 0).state = .empty ∧ ((s none).pb 0).state ≠ .empty
      ∧ release lead [1, 0x70, 0x17] = some (.ok, [1, 0, 0, 0x70, 0x17])
      ∧ release (s none) [1, 0xFF, 0xFF] = some (.adjusted, [1, 1, 0, 0x70, 0x17])
      ∧ release (withSlots (s none) fullSlots) [1, 0, 0] = some (.noSlot, [])
      ∧ ((after (.release .console) (ask (s none) .console 0x35 [1, 0, 0])).pb 0).look = []
      ∧ (((s (some ⟨.port ⟨.aux, 3, 0x30⟩, none, false⟩)).endPending 0 .cancelled).aux.replies.map (fun r => r.status)
          = [.cancelled])
      ∧ ((s (some ⟨.follow, none, false⟩)).endPending 0 .cancelled) = s none
      ∧ (after (.release .console) (ask (s (some ⟨.port ⟨.console, 3, 0x30⟩, none, false⟩)) .console 0x35 [1, 0, 0])).con.outgoing.map
          (fun r => (r.tag, r.status)) = [(3, .cancelled), (7, .ok)]
      ∧ (release (withSlots (s none) (fullSlots.take 47 ++ [slot 48 0 1 1 0 0 0 [⟨5, 0, 600⟩]])) [1, 0, 0]
          = some (.ok, [1, 48, 0, 0, 0])) := by
  decide +kernel

/-- A RELEASE frees each older slot of its playback, with moves or without, and each makes room for the slot test; the
RELEASE slot ends with the playback EMPTY and no CUE_COMPLETE (R64, R76; log 45). -/
theorem witness_release_of_a_bare_slot :
    let bare := slot 3 0 1 1 0 0 0 []
    let other := slot 4 1 1 1 0 0 0 []
    let lit := slot 5 0 1 1 0 0 0 [⟨5, 0, 600⟩]
    let s := withPb lead 0 { Playback.reset with state := .running, look := [(5, 300)] }
    let full := fun (x : Slot) => withSlots s (fullSlots.take 47 ++ [{ x with number := 48 }])
    let t := after (.release .console) (ask (withSlots s [bare, other, lit]) .console 0x35 [1, 1, 0])
    t.slots.map (fun x => (x.number, x.playback, x.kind, x.moves)) =
        [(1, 0, .release, [⟨5, 300, 0⟩]), (4, 1, .cue, [])]
      ∧ (after .fadeStep t).slots.map (fun x => x.number) = [1]
      ∧ (after .fadeStep t).link.reports.map (fun x => (x.kind, x.fields.take 2)) = [(0xE0, [2, 0])]
      ∧ [lit, bare].map (fun x => replied (.release .console) (ask (full x) .console 0x35 [1, 0, 0]) .console) =
          [some (.ok, [1, 48, 0, 0, 0]), some (.ok, [1, 48, 0, 0, 0])] := by
  decide +kernel

theorem witness_FollowsCountAndExpire :
    let s := fun (y : Standby) (p : Option PendingGo) => withPb lead 3
      { Playback.reset with standby := y, pendingGo := p, follow := some ⟨0, false, true⟩ }
    let expire := fun (t : State) => after (.followExpiry 4) t
    let running := withPb lead 3 { Playback.reset with follow := some ⟨1, false, false⟩ }
    (∀ y ∈ [Standby.none, .missing 3 .link, .bad 3 .link, .fetching 3 .link, ready 10 [(1, 500)]],
        ((s y none).pb 3).follow = some ⟨0, false, true⟩ ∧ (s y none).sup.halted = false ∧ (s y none).isFollower = false
          ∧ (s y none).bank.active ≠ none)
      ∧ (halted.sup.halted = true ∧ after .followTimerCount halted = halted)
      ∧ ((after .followTimerCount running).pb 3).follow = some ⟨0, false, true⟩ ∧ expire running = running
      ∧ (expire (s (ready 10 [(1, 500)]) none)).slots.length = 1
      ∧ (expire (withSlots (s (ready 10 [(1, 500)]) none) (fullSlots.map (fun (x : Slot) => { x with playback := 0 })))).sup.raised.map (fun f => f.kind) = [.followRefused]
      ∧ (expire (s (.missing 3 .link) none)).sup.raised.map (fun f => f.value) = [3]
      ∧ ((expire (s (.bad 3 .link) none)).pb 3).follow = none
      ∧ ((expire (s (.fetching 3 .link) none)).pb 3).pendingGo = some ⟨.follow, none, false⟩ := by decide +kernel

theorem witness_ParksAreMadeAndRemoved :
    let full := withParks lead ((List.range 64).map (fun i => ⟨i + 1, 5, if i < 60 then .console else .aux⟩))
    let park := fun (t : State) (p : PortId) (b : List Byte) => statusOf (.park p) (ask t p 0x40 b) p
    let unpark := fun (t : State) (p : PortId) (b : List Byte) => statusOf (.unpark p) (ask t p 0x41 b) p
    let left := fun (t : State) (p : PortId) (b : List Byte) => (after (.unpark p) (ask t p 0x41 b)).merge.parks.length
    statusOf (.park .aux) (askAux noMask 0x40 [1, 0, 0, 0]) .aux = some .notPermitted
      ∧ statusOf (.unpark .aux) (askAux noMask 0x41 [1, 0]) .aux = some .notPermitted
      ∧ [[1, 0, 0], [0, 0, 0, 0], [1, 6, 0, 0], [65, 0, 0, 0], [64, 0, 0xE9, 3], [1, 0, 0xE8, 3]].map (park full .console)
          = [some .badLength, some .badValue, some .badValue, some .parksFull, some .adjusted, some .ok]
      ∧ park lead .aux [0, 6, 0xE8, 3] = some .ok
      ∧ [[1], [1, 6], [65, 0], [64, 0], [0, 0]].map (unpark full .console)
          = [some .badLength, some .badValue, some .notFound, some .ok, some .ok]
      ∧ (left full .console [0, 0] = 0 ∧ left full .aux [0, 0] = 60 ∧ left full .aux [1, 0] = 63) := by decide +kernel

theorem witness_parks_asked (body : List Byte) :
    Asked (desk 0x40 body) .console 0x40 .park body ∧ Asked (ask lead .aux 0x41 body) .aux 0x41 .park body
      ∧ Asked (desk 0x48 body) .console 0x48 .faults body :=
  ⟨asked_desk _ _ _, asked _ _ _ _ _ rfl (.inr (by decide)) (by decide), asked_desk _ _ _⟩

theorem witness_ControlsActAtOnce :
    statuses (.master .console) 0x36 [[5, 0, 0], [0, 0xE8, 3], [0, 0xE9, 3], [4, 0xFF, 0xFF]]
        = [some .badValue, some .ok, some .adjusted, some .adjusted]
      ∧ statuses (.houseFade .console) 0x59 [[1, 0xE8, 3, 0x70, 0x17], [4, 0xE9, 3, 0, 0], [0, 0, 0, 0, 0], [5, 0, 0, 0, 0]]
          = [some .ok, some .adjusted, some .badValue, some .badValue]
      ∧ statuses (.blackout .console) 0x5A [[0], [1], [2]] = [some .ok, some .ok, some .badValue]
      ∧ statuses (.lineHold .console) 0x5B [[0, 1], [6, 0], [7, 0], [1, 2]] = [some .ok, some .ok, some .badValue, some .badValue]
      ∧ statuses (.accessSet .console) 0x5C [[0], [31], [32], [255]] = [some .ok, some .ok, some .badValue, some .badValue]
      ∧ statuses (.lossClear .console) 0x5D [[], [0]] = [some .ok, some .badLength]
      ∧ (after (.lineHold .console) (desk 0x5B [0, 1])).holdFlags = 63
      ∧ (after (.lineHold .console) (desk 0x5B [6, 1])).holdFlags = 32
      ∧ (after (.master .console) (desk 0x36 [0, 7, 0])).merge.grand = 7
      ∧ (after (.blackout .console) (desk 0x5A [1])).merge.blackout = true := by decide +kernel

theorem witness_controls_asked (body : List Byte) :
    (desk 0x59 body).Head .console 0x59 (rq 0x59 body) [] ∧ (desk 0x5A body).Head .console 0x5A (rq 0x5A body) []
      ∧ (desk 0x5B body).Head .console 0x5B (rq 0x5B body) [] ∧ (desk 0x5C body).Head .console 0x5C (rq 0x5C body) []
      ∧ (desk 0x5D body).Head .console 0x5D (rq 0x5D body) [] ∧ (desk 0x5E body).Head .console 0x5E (rq 0x5E body) []
      ∧ (desk 0x50 body).Head .console 0x50 (rq 0x50 body) [] ∧ (desk 0x51 body).Head .console 0x51 (rq 0x51 body) []
      ∧ (desk 0x52 body).Head .console 0x52 (rq 0x52 body) [] ∧ (desk 0x53 body).Head .console 0x53 (rq 0x53 body) [] :=
  ⟨(asked_desk _ .always _).1, (asked_desk _ .always _).1, (asked_desk _ .always _).1, (asked_desk _ .always _).1,
    (asked_desk _ .always _).1, (asked_desk _ .always _).1, (asked_desk _ .always _).1, (asked_desk _ .always _).1,
    (asked_desk _ .always _).1, (asked_desk _ .always _).1⟩

theorem witness_OutputsAndCircuitLevels :
    let s := withParks (withPb lead 0 { Playback.reset with look := [(1, 500)] }) [⟨2, 1000, .aux⟩]
    let dark := { s with merge := { s.merge with blackout := true } }
    let p := { s with patch := { s.patch with
      active := [(1, ⟨2, 100, 0⟩)], windows := ⟨some ⟨1, 2304, 1⟩, none, none, none⟩,
      groups := s.patch.groups.set 3 { HouseGroup.reset with members := [2304], level := 1000 } } }
    (s.merge.parks.find? (fun y => y.channel = 2) = some ⟨2, 1000, .aux⟩ ∧ (∀ x ∈ s.merge.parks, x.channel ≠ 1))
      ∧ [s.output 1, s.output 2, s.output 3, dark.output 1, dark.output 2] = [500, 1000, 0, 0, 1000]
      ∧ [1, 2, 2304].map p.circuitSource = [.entry 2, .window 2, .house 3] ∧ s.circuitSource 1 = .none
      ∧ (s.scaled 0 1 ≤ 1000 ∧ (∀ q, (s.pb q).master ≤ 1000) ∧ s.merge.grand ≤ 1000)
      ∧ [1, 2, 3, 2304].map p.circuitLevel = [65535, 65535, 0, 65535]
      ∧ (p.patch.windows.get 0 = some ⟨1, 2304, 1⟩ ∧ p.patch.windows.channel 1536 = some 1536
          ∧ p.patch.windows.channel 1537 = none ∧ s.patch.windows.channel 1 = none)
      ∧ (2304 ∈ (p.patch.groups.get 3).members ∧ ∀ g' : Fin 4, g' < 3 → 2304 ∉ (p.patch.groups.get g').members)
      ∧ [curveValue linearPoints 0, curveValue linearPoints 999, curveValue linearPoints 1000, curveValue linearPoints 1200]
          = [0, 65469, 65535, 65535] := by decide +kernel

theorem witness_UpMovesRiseToTheirTarget :
    let x := slot 1 0 300 70 100 0 0 []
    let z := slot 1 0 0 0 100 0 0 []
    let m : Move := ⟨5, 200, 800⟩
    (m.start < m.target ∧ (⟨1, 5, 5⟩ : Move).start = (⟨1, 5, 5⟩ : Move).target)
      ∧ (99 < x.upDelay ∧ x.upDelay ≤ 100 ∧ 0 < x.up ∧ z.up = 0 ∧ x.upDelay + x.up ≤ 400 ∧ m.target ≤ 1000)
      ∧ [99, 100, 399, 400, 120000].map (x.level m) = [200, 200, 798, 800, 800]
      ∧ [99, 100].map (z.level m) = [200, 800] ∧ x.level ⟨1, 5, 5⟩ 7 = 5 := by decide +kernel

theorem witness_FadeStepAdvancesTheSlots :
    let a := slot 1 0 2 2 0 0 0 [⟨1, 0, 1000⟩, ⟨2, 600, 0⟩]
    let b := { slot 2 0 5 5 0 0 0 [⟨3, 0, 500⟩] with paused := true }
    let s := withSlots (withPb lead 0 { Playback.reset with state := .running, look := [(2, 600)] }) [a, b]
    let t := after .fadeStep s
    let u := after .fadeStep t
    (halted.sup.halted = true ∧ s.sup.halted = false ∧ (s.slots.map (fun x => x.number)).Nodup)
      ∧ (t.slots.map (fun x => x.elapsed) = [1, 0] ∧ (t.pb 0).look = [(1, 500), (2, 300)])
      ∧ (u.slots.map (fun x => x.number) = [2] ∧ (u.pb 0).look = [(1, 1000)] ∧ (u.pb 0).state = .running)
      ∧ ((after .fadeStep (withSlots t [{ a with elapsed := 1 }])).pb 0).state = .settled
      ∧ (a.finish = 2 ∧ (slot 1 0 2 2 0 0 0 []).finish = 0 ∧ a.level ⟨2, 600, 0⟩ 2 = 0) := by decide +kernel

theorem witness_slots_that_end :
    let a := fun (k : SlotKind) => { slot 1 0 2 2 0 0 1 [⟨2, 600, 0⟩] with kind := k }
    let s := fun (k : SlotKind) => withSlots (withPb lead 0 { Playback.reset with state := .running, look := [(2, 300)] }) [a k]
    let t := fun (k : SlotKind) => after .fadeStep (s k)
    let sent := fun (k : SlotKind) => (t k).con.sending.map (fun x => match x with
      | .report r _ => (r.kind, r.fields)
      | .reply _ => (0, []))
    (((s .release).slots.filter (fun y => y.playback = 0)).getLast? = some (a .release))
      ∧ [SlotKind.cue, .back, .release].map (fun k => ((t k).pb 0).state) = [.settled, .settled, .empty]
      ∧ sent .cue = some (0xE0, [1, 0, 10, 0, 1, 2, 0, 0, 0, 1, 0])
      ∧ sent .back = some (0xE0, [1, 1, 10, 0, 1, 2, 0, 0, 0, 1, 0]) ∧ sent .release = none := by decide +kernel

theorem witness_fading_out :
    let a := { slot 1 0 2 2 0 0 0 [⟨5, 600, 0⟩] with kind := .release }
    let s := withSlots (withPb lead 0 { Playback.reset with state := .running, look := [(5, 600)] }) [a]
    let t := after .fadeStep s
    let u := after .fadeStep t
    s.FadingOut 0 a ∧ a.finish = 2 ∧ t.FadingOut 0 { a with elapsed := 1 }
      ∧ ((u.pb 0).state = .empty ∧ (u.pb 0).look = [] ∧ u.slots = []) := by
  unfold State.FadingOut; decide +kernel

theorem witness_ChangeoversStartAndAreCancelled :
    let ch := fun (t : State) (b : List Byte) => statusOf (.changeover .console) (ask t .console 0x50 b) .console
    let s := withChange lead (loading true true 25 (some 9))
    let cancel := ask s .console 0x51 []
    (lead.bank.decided = true ∧ lead.bank.change = none ∧ (lead.ram 2).valid = true ∧ (lead.ram 1).valid = false)
      ∧ ch s [0, 0] = some .inChangeover ∧ ch lead [1, 0] = some .blank
      ∧ ch (withQueue (withOp lead .write) [write .bankErase (some 2)]) [2, 1] = some .blank
      ∧ (after (.changeover .console) (desk 0x50 [2, 1])).bank.change = some { loading true false 1 (some 7) with target := 2 }
      ∧ (after (.changeover .console) (desk 0x50 [2, 1])).ctl.op = some (.load 2 1 true)
      ∧ statuses (.changeoverCancel .console) 0x51 [[]] = [some .noChangeover]
      ∧ (s.bank.change = some (loading true true 25 (some 9)))
      ∧ (after (.changeoverCancel .console) cancel).con.outgoing.map (fun r => (r.kind, r.tag, r.status))
          = [(0xD0, 9, .cancelled), (0xD1, 7, .ok)] := by decide +kernel

theorem witness_LoadStepsAndDarkChecks :
    let bank : StoredBank :=
      { header := some (.seal Header.bytes header), segments := keptSegment [(1, ⟨1, 100, 0⟩)] :: List.replicate 23 none,
        windows := some (.seal Windows.bytes .empty), cues := ⟨[], [], [], []⟩ }
    let st := { lead with store := { lead.store with banks := lead.store.banks.set 2 bank } }
    let s := fun (d : Bool) (n : Nat) (o : Option Byte) => withOp (withChange st (loading d false n o)) (.load 2 n true)
    let loaded := fun (d : Bool) (n : Nat) (o : Option Byte) => after (.loadStepDone (.done true)) (s d n o)
    ((s false 1 none).bank.change = some (loading false false 1 none)
        ∧ (s false 1 none).storedSegment 2 1 = some [(1, ⟨1, 100, 0⟩)] ∧ (s false 1 none).storedSegment 2 24 = none
        ∧ (s true 25 none).storedWindows 2 = some .empty)
      ∧ ((loaded false 1 none).ctl.op = some (.load 2 2 true) ∧ (loaded false 1 none).patch.pending = [(1, ⟨1, 100, 0⟩)])
      ∧ (loaded false 25 (some 9)).bank.active = some 2
      ∧ (loaded true 25 (some 9)).bank.active = some 2
      ∧ (statusOf (.loadStepDone (.done true)) (s false 24 (some 9)) .console = some .checkFailed)
      ∧ ((loaded false 24 none).sup.raised.map (fun f => f.kind) = [.patchCheck])
      ∧ (after (.loadStepDone .notDone) (withOp lead (.load 2 3 false)) = lead)
      ∧ (lead.bank.change = none ∧ after .darkCheck lead = lead) := by decide +kernel

theorem witness_darkCheck :
    let lit := withPb (withChange lead (loading true true 25 (some 9))) 0 { Playback.reset with look := [(1536, 5)] }
    (lit.isDark = false ∧ lead.isDark = true)
      ∧ (after .darkCheck lit).bank.change.map (fun c => c.darkSteps) = some 1
      ∧ (after .darkCheck (withPb lit 0 .reset)).bank.active = some 2 := by decide +kernel

theorem witness_CommitBringsTheTargetLive :
    let c := loading true true 25 (some 9)
    let s := withSlots (withParks (withPb (withChange lead c) 0
      { Playback.reset with state := .settled, look := [(1, 5)] }) [⟨1, 2, .aux⟩]) [slot 1 0 1 1 0 0 0 []]
    let t := s.commit c
    let g := withPb s 3 { Playback.reset with pendingGo := some ⟨.port ⟨.aux, 4, 0x30⟩, none, false⟩ }
    ((t.pb 0).standby = .fetching 10 .first ∧ t.ctl.fetches = ⟨some ⟨2, 0, 10, .first⟩, none, none, none⟩
        ∧ t.link.mask = s.link.mask)
      ∧ ((g.commit c).aux.replies.map (fun r => (r.kind, r.tag, r.status)) = [(0xB0, 4, .cancelled)])
      ∧ (t.bank.active = some 2 ∧ t.bank.change = none ∧ t.slots = [] ∧ t.merge.parks = [] ∧ (t.pb 0).look = [])
      ∧ (t.link.reports.take 2).map (fun r => r.kind) = [0xEE, 0xF0]
      ∧ t.con.replies.map (fun r => (r.kind, r.tag)) = [(0xD0, 9)]
      ∧ ((withOp s (.fetch 1 ⟨0, 1, 3, .order⟩ true)).commit c).ctl.op = some (.fetch 1 ⟨0, 1, 3, .order⟩ false) := by
  decide +kernel

theorem witness_RestartClears :
    let s := withSlots (withPb (withPb (withChange { halted with sup := { halted.sup with record := some critical } }
      (loading true true 25 (some 9))) 0 { Playback.reset with state := .running, look := [(1, 5)] }) 1
      { Playback.reset with state := .running, pendingGo := some ⟨.port ⟨.console, 4, 0x30⟩, none, false⟩ })
      [slot 1 0 1 1 0 0 0 []]
    let t := after (.restart .console) (ask s .console 0x5E [])
    (s.bank.change = some (loading true true 25 (some 9)) ∧ lead.bank.change = none
        ∧ (∀ p, (lead.pb p).pendingGo = none))
      ∧ (t.sup.halted = false ∧ t.sup.record = none ∧ t.bank.change = none ∧ t.slots = [])
      ∧ t.eng.pb.toList.map (fun x => x.state) = [.settled, .empty, .empty, .empty]
      ∧ t.con.outgoing.map (fun r => (r.kind, r.status)) = [(0xD0, .cancelled), (0xB0, .cancelled), (0xDE, .ok)]
      ∧ (t.pb 0).standby = .fetching 10 .first ∧ (t.pb 1).standby = .none ∧ t.ctl.op = some (.fetch 0 ⟨0, 0, 10, .first⟩ true) := by
  decide +kernel

/-- A leader's line 6, running. -/
def running (f : Line → Line) : State :=
  lead.setLine 5 (f { Line.reset with
    settings := some ⟨true, false, true⟩, clock := some 20, monitor := .seeking, seq := 255, interval := true })

theorem witness_LineExpirySendsALevelFrame :
    let s := running id
    let lost := running (fun x => { x with monitor := .locked, badRun := 4, rack := some (3, 96) })
    let hold := running (fun x => { x with hold := true, interval := false })
    ((s.line 5).clock ≠ none ∧ (lead.line 0).clock = none ∧ after (.lineClockExpiry 1) lead = lead)
      ∧ ((hold.line 5).hold = true ∧ (s.line 5).hold = false)
      ∧ ((after (.lineClockExpiry 6) s).line 5).seq = 0 ∧ ((after (.lineClockExpiry 6) s).wire.length = 1)
      ∧ (((after (.lineClockExpiry 6) lost).line 5).monitor = .lost)
      ∧ ((after (.lineClockExpiry 6) lost).con.sending.isSome = true)
      ∧ ((after (.lineClockExpiry 6) hold).line 5).live = List.replicate 96 0 := by decide +kernel

theorem witness_ReturnsMoveTheMonitor :
    let good := fun (n : Nat) => returnBytes 255 3 (List.replicate n none)
    let s := fun (m : Monitor) (run : Nat) => running (fun x => { x with monitor := m, goodRun := run, rack := some (3, 5) })
    let ret := fun (t : State) (b : List Byte) => (after (.returnFrame 6 true b) t).line 5
    ((s .seeking 7).line 5).interval = true ∧ ((s .seeking 7).line 5).seq ≤ 255 ∧ (lead.line 0).interval = false
      ∧ (1 ≤ (List.replicate 96 (none : CircuitStatus)).length ∧ (List.replicate 96 (none : CircuitStatus)).length ≤ 96)
      ∧ ((ret (s .seeking 7) (good 5)).monitor = .locked ∧ (ret (s .seeking 6) (good 5)).monitor = .seeking
          ∧ (ret (s .seeking 7) (good 1)).goodRun = 1 ∧ (ret (s .off 0) (good 5)).monitor = .off)
      ∧ ((ret (s .locked 8) (good 5)).rack = some (3, 5) ∧ (ret (s .locked 8) (good 1)).rack = some (3, 1))
      ∧ ((ret (s .seeking 7) []).goodRun = 0 ∧ (ret (s .locked 8) [1]).badRun = 1)
      ∧ (after (.returnFrame 1 true (good 5)) lead = lead) := by decide +kernel

theorem witness_StatusesAreDebounced :
    let d := fun (c : Option FaultKind) (n : Nat) => ({ condition := c, candidate := some (some .hot), run := n } : Debounce)
    let s := fun (x : State) (y : Debounce) => x.setLine 1 { x.line 1 with debounce := List.replicate 96 y }
    let full := { fol with cas := { fol.cas with events := List.replicate 15 ⟨577, .hot, true⟩ } }
    (((s lead (d none 3)).line 1).debounce[95]? = some (d none 3))
      ∧ ((s lead (d none 3)).takeStatus 1 95 (some .hot)).outp.faults.map (fun x => x.circuit) = [192]
      ∧ ((s lead (d none 2)).takeStatus 1 95 (some .hot)).outp.faults = []
      ∧ ((s lead (d (some .noLoad) 3)).takeStatus 1 95 (some .hot)).link.reports.map (fun r => r.kind) = [0xE5, 0xE4]
      ∧ ((s fol (d none 3)).takeStatus 1 0 (some .hot)).cas.events = [⟨673, .hot, true⟩]
      ∧ ((s full (d (some .noLoad) 3)).takeStatus 1 0 (some .hot)).cas.events.length = 15
      ∧ ((s full (d none 3)).takeStatus 1 0 (some .hot)).cas.events.length = 16
      ∧ ((s lead (d none 3)).takeStatus 1 0 (some .noLoad) = s lead (d none 3)) := by decide +kernel

theorem witness_CircuitFaultsAreTabledAndCleared :
    let f : CircuitFault := { circuit := 2304, kind := .hot, stage := 3, firstSeen := 7, present := true }
    let full := withFaults lead (f :: List.replicate 63 { f with circuit := 1, present := false })
    let clear := fun (t : State) (b : List Byte) => replied (.faultClear .console) (ask t .console 0x48 b) .console
    (full.outp.faults.find? (fun x => x.circuit = 2304 && x.kind = .hot)) = some f
      ∧ (lead.tableEvent 3 ⟨2304, .hot, true⟩).outp.faults = [{ f with firstSeen := 0 }]
      ∧ (lead.tableEvent 3 ⟨2304, .hot, false⟩).outp = lead.outp
      ∧ (full.tableEvent 3 ⟨2, .hot, true⟩).outp.notTabled = 1
      ∧ ((full.tableEvent 3 ⟨2304, .hot, false⟩).outp.faults.filter (fun x => x.present)).length = 0
      ∧ clear lead [0, 0] = some (.badLength, []) ∧ clear lead [1, 9, 1] = some (.badValue, [])
      ∧ clear lead [1, 0, 0] = some (.badValue, []) ∧ clear lead [1, 0, 5] = some (.badValue, [])
      ∧ clear full [0, 0, 0] = some (.ok, [63, 1]) ∧ clear full [0, 9, 4] = some (.stillPresent, [])
      ∧ clear full [0, 9, 1] = some (.notFound, []) ∧ clear full [1, 0, 4] = some (.ok, [63, 1]) := by decide +kernel

theorem witness_ContactsAreDebouncedAndAct :
    let contact := fun (a : InputSetting) (raw : Bool) =>
      ({ settings := ⟨true, 1, a⟩, raw := raw, closed := !raw, timer := true, last := none } : CueInput)
    let s := fun (a : InputSetting) (raw : Bool) => withPb { lead with inputs := lead.inputs.set 3 (contact a raw) } 1
      { Playback.reset with state := if raw then .running else .held }
    let last := fun (t : State) => ((after (.debounceExpiry 4) t).inputs.get 3).last
    (∀ a ∈ [InputSetting.go, .back, .hold], ((s a true).inputs.get 3).timer = true
        ∧ ((s a true).inputs.get 3).raw ≠ ((s a true).inputs.get 3).closed ∧ (s a true).isFollower = false)
      ∧ [last (s .go true), last (s .back true), last (s .hold true), last (s .hold false), last (s .go false)]
          = [some (.go, .refused .endOfList), some (.back, .refused .noBack), some (.hold, .taken), some (.resume, .taken),
             none]
      ∧ last { s .hold true with sup := { lead.sup with halted := true } } = some (.hold, .ignored)
      ∧ last { s .hold true with sup := { lead.sup with loss := some .freeze }, link := { lead.link with silent := true } }
          = some (.hold, .ignored)
      ∧ ((lead.inputs.get 3).timer = false ∧ (lead.inputs.get 3).raw = false
          ∧ after (.contactChange 4 false) lead = lead ∧ after (.debounceExpiry 4) lead = lead)
      ∧ ((after (.contactChange 4 true) lead).inputs.get 3).timer = true
      ∧ (lead.inputResult 0 1 .go (.refused .noShow) 0).sup.raised.map (fun f => f.value) = [9]
      ∧ (lead.inputResult 0 1 .go (.refused .halted) 0).sup.raised = [] := by decide +kernel

theorem witness_LeaderSendsStageAndSetupFrames :
    let s := fun (n : Nat) => { lead with cas := { lead.cas with frameTimer := n } }
    let sent := fun (n : Nat) => (after .cascadeFrameExpiry (s n)).wire.length
    ((s 9).isLeader = true ∧ (s 9).ctl.startUp = none ∧ (s 9).cas.frameTimer = 9 ∧ fol.isLeader = false)
      ∧ (sent 8 = 3 ∧ sent 9 = 6 ∧ (after .cascadeFrameExpiry (s 9)).cas.seqs = ⟨0, 0, 0⟩)
      ∧ after .cascadeFrameExpiry fol = fol := by decide +kernel

theorem witness_FollowerTakesItsFrames :
    let mine := stageFrame 1 0 (List.replicate 576 7)
    let other := stageFrame 2 0 (List.replicate 576 7)
    let setup := setupFrame 1 5 [4] [(2, 1000)]
    let lost := { fol with cas := { fol.cas with leaderLost := true, genHeld := 4, lastSeq := some 1 } }
    let far := { fol with cas := { fol.cas with cand := some 9, candRun := 2 } }
    let fresh := { fol with cas := { fol.cas with stage := none } }
    (mine.wf = true ∧ other.wf = true ∧ setup.wf = true ∧ fol.isFollower = true ∧ lead.isLeader = true)
      ∧ after (.stageFrame mine) lead = lead
      ∧ ((after (.stageFrame mine) lost).cas.leaderLost = false ∧ (after (.stageFrame mine) lost).cas.missed = 1
          ∧ ((after (.stageFrame mine) lost).line 5).next = List.replicate 96 7)
      ∧ ((after (.stageFrame other) fol).line 5).next = List.replicate 96 0
      ∧ ((after (.setupFrame setup) fol).cas.genHeld = 5 ∧ (after (.setupFrame setup) fol).outp.safeLook = [(2, 1000)])
      ∧ ((fol.watchHop 0).cas.stage = some 1 ∧ (fol.watchHop 9).cas.candRun = 1 ∧ (far.watchHop 9).cas.role = .orphan
          ∧ (fresh.watchHop 2).cas.stage = some 3 ∧ (fresh.watchHop 3).cas.role = .orphan)
      ∧ (let two := { far with outp := { far.outp with lines := Six.all { Line.reset with
             settings := some ⟨false, false, false⟩ } } }
         ((far.watchHop 9).line 5).settings = none ∧ ((two.watchHop 9).line 5) = two.line 5
           ∧ (({ two with outp := { two.outp with lines := Six.all { Line.reset with
                settings := some ⟨true, false, true⟩, clock := some 20 } } }.watchHop 9).line 5).clock = none)
      ∧ (let wide := { setup with house := [4, 4], lamp := 0, safe := [(1, 2000)], safeFade := 601 }
         let t := after (.setupFrame wide) fol
         (setup.inRange = true ∧ wide.inRange = false ∧ wide.fits = true ∧ t.cas.genHeld = 5 ∧ t.free ≠ fol.free))
      ∧ ((after (.stageFrame { mine with blend := 1001 }) fol).free ≠ fol.free
          ∧ (after (.stageFrame mine) fol).free = fol.free)
      ∧ (let none_ := { mine with levels := [] }
         none_.fits = false ∧ (after (.stageFrame none_) fol).cas.dinErrors = 1)
      ∧ (after (.stageFrame mine) { State.reset with cas := { Cascade.reset with stage := some 1 } }).cas.role = .follower := by
  decide +kernel

theorem witness_lines_take :
    let on := { Line.reset with settings := some ⟨true, false, false⟩, clock := some 20, monitor := .locked }
    (Line.reset.take ⟨true, true, false⟩).monitor = .seeking ∧ (Line.reset.take ⟨true, true, false⟩).clock = some 40
      ∧ (on.take ⟨false, true, false⟩).monitor = .off ∧ (on.take ⟨true, true, false⟩).monitor = .locked
      ∧ (Line.reset.take ⟨false, true, true⟩).clock = none := by decide +kernel

theorem witness_UpFramesTravelToTheLeader :
    let up := fun (n : Nat) (o : Bool) => { badUp n (List.replicate 6 ⟨.locked, 3, 5⟩) [⟨2304, .hot, true⟩] with orphan := o }
    let t := after (.upFrame (up 3 false)) lead
    let und := { lead with cas := { lead.cas with role := .undecided } }
    let events := { fol with cas := { fol.cas with events := List.replicate 9 ⟨577, .hot, true⟩ } }
    ((up 3 false).wf = true ∧ (up 0 true).wf = true ∧ (lead.cas.stages.get 2).present = false ∧ und.cas.role = .undecided
        ∧ lead.cas.orphanSeen = false)
      ∧ ((t.cas.stages.get 2).present = true ∧ t.outp.faults.map (fun x => x.stage) = [3] ∧ t.link.reports.length = 7)
      ∧ ((after (.upFrame (up 3 false)) t).link.reports.map (fun r => r.kind) = t.link.reports.map (fun r => r.kind) ++ [0xE4])
      ∧ ((after (.upFrame { up 3 false with lines := List.replicate 6 ⟨.lost, 3, 5⟩ }) t).link.reports.map (fun r => (r.kind, r.urgent))
          = t.link.reports.map (fun r => (r.kind, r.urgent)) ++ List.replicate 6 (0xE7, true) ++ [(0xE4, true)])
      ∧ ((after (.upFrame { up 3 false with lines := List.replicate 6 ⟨.locked, 4, 5⟩ }) t).link.reports.length
          = t.link.reports.length + 7)
      ∧ (let odd := { up 3 false with events := [⟨2305, .hot, true⟩] }
         odd.fits = true ∧ odd.inRange = false ∧ (after (.upFrame odd) lead).outp.faults.map (fun x => x.kind) = [.hot])
      ∧ [0, 4].map (fun n => (after (.upFrame (up n false)) lead).cas.uinErrors) = [1, 1]
      ∧ (after (.upFrame (up 4 true)) lead).sup.raised.map (fun f => f.kind) = [.chainTooLong]
      ∧ ((after (.upFrame (up 3 false)) fol).wire.length = 1 ∧ after (.upFrame (up 3 false)) und = und)
      ∧ ((after .upFrameSend events).cas.events.length = 1 ∧ (after .upFrameSend events).wire.length = 1)
      ∧ after .upFrameSend lead = lead := by decide +kernel

theorem witness_CascadeWatchesExpire :
    let s := { lead with cas := { lead.cas with stages := lead.cas.stages.set 2 { StageEntry.reset with present := true } } }
    (s.isLeader = true ∧ (s.cas.stages.get 2).present = true ∧ (lead.cas.stages.get 0).present = false)
      ∧ ((after (.stageLost 3) s).sup.raised.map (fun f => f.value) = [3] ∧ after (.stageLost 1) lead = lead)
      ∧ ((fol.isFollower = true ∧ fol.cas.leaderLost = false) ∧ (after .leaderLost fol).cas.leaderLost = true)
      ∧ after .leaderLost lead = lead ∧ after .orphanWatchExpiry lead = lead
      ∧ ((after (.cascadeFrameError .uin) lead).cas.uinErrors = 1 ∧ after (.cascadeByteGap .din) lead = lead
          ∧ (after (.cascadeByteGap .din) fol).cas.dinErrors = 1
          ∧ (after (.cascadeFrameError .din) State.reset).cas.role = .follower) := by decide +kernel

theorem witness_EngineFaultsAreTaken :
    let s := { lead with sup := { lead.sup with raised := [minor, critical] } }
    let h := { s with sup := { s.sup with record := some critical } }
    (s.isLeader = true ∧ s.sup.raised[0]? = some minor ∧ s.sup.raised[1]? = some critical ∧ s.sup.raised.length ≤ 2)
      ∧ (critical.critical = true ∧ h.sup.halted = false ∧ h.sup.record = some critical ∧ minor.critical = false
          ∧ (∀ p, (h.pb p).pendingGo = none))
      ∧ ((after (.engineFault 1) s).sup.record = some critical ∧ (after (.engineFault 1) s).sup.halted = false)
      ∧ ((after (.engineFault 1) h).sup.halted = true ∧ (after (.engineFault 0) h).sup.halted = false)
      ∧ after (.engineFault 2) s = s
      ∧ (let go := fun (src : GoSource) => some (⟨src, none, false⟩ : PendingGo)
         let h := withPb (withPb (withPb h 0 { Playback.reset with pendingGo := go (.port ⟨.aux, 4, 0x30⟩) })
           2 { Playback.reset with pendingGo := go (.input 1) }) 3 { Playback.reset with pendingGo := go .follow }
         let t := after (.engineFault 1) h
         t.aux.outgoing.map (fun r => (r.tag, r.status)) = [(4, .halted)]
           ∧ t.inputs.x1.last = some (.go, .refused .halted) ∧ t.sup.raised = [minor]
           ∧ (∀ p, (t.pb p).pendingGo = none)
           ∧ t.link.reports.map (fun x => x.kind) = [0xED, 0xE3]) := by decide +kernel

theorem witness_BoundsAreKept : lead.Bounded ∧ ∃ t, step lead = .next t := by
  unfold State.Bounded; exact ⟨by decide +kernel, _, rfl⟩

theorem witness_StorePortIsNeverIdle : State.Calm { lead with pending := [.fadeStep] }
    ∧ State.NoticeGoesFirst { lead with pending := [.fadeStep] }
    ∧ ∃ t, step { lead with pending := [.fadeStep] } = .next t :=
  ⟨.inr (by decide +kernel), by unfold State.NoticeGoesFirst; decide +kernel, _, rfl⟩

theorem witness_notice_goes_first :
    State.NoticeGoesFirst (withOp lead .write) ∧ State.NoticeGoesFirst { lead with eng := { lead.eng with notices := [3] } }
    ∧ State.Calm { withQueue lead eight with eng := { lead.eng with notices := [3] } } := by
  refine ⟨?_, ?_, .inr (by decide +kernel)⟩ <;> unfold State.NoticeGoesFirst <;> decide +kernel

theorem witness_NothingIsLitWithoutAShow : noShow.StandsWithoutShow ∧ noShow.bank.active = none
    ∧ ∀ g : Fin 4, 5 ∉ (noShow.patch.groups.get g).members := by
  unfold State.StandsWithoutShow; decide +kernel

theorem witness_HaltAndRoleChangeOnlySo :
    let h := { lead with sup := { lead.sup with record := some critical, raised := [critical] } }
    (h.sup.halted = false ∧ (after (.engineFault 0) h).sup.halted = true)
      ∧ (halted.sup.halted = true ∧ (after (.restart .console) (ask halted .console 0x5E [])).sup.halted = false)
      ∧ (State.reset.cas.role ≠ .leader ∧ (after (.roleDecided false) State.reset).cas.role = .leader)
      ∧ (lead.cas.role = .leader ∧ (after (.deviceReset none) lead).cas.role ≠ .leader)
      ∧ (after .darkCheck (withChange noShow (loading true true 25 none))).bank.active ≠ noShow.bank.active := by
  decide +kernel

theorem witness_PortFramesReadBack :
    portFrameOf (portFrame 0x30 9 [1, 2, 3]) = some (0x30, 9, [1, 2, 3])
      ∧ (portFrame 0x30 9 [1, 2, 3]).length = 10 ∧ (List.replicate 1024 (0 : Byte)).length ≤ 1024 := by decide +kernel

end Sys2Proof.Tests
end

/-! What every command keeps: the principle that carries a property of the state over a step. -/

namespace Sys2Proof.Machine

/-- A property that the queue of waiting commands does not bear on, and that every command keeps, is kept by a step. -/
theorem step_keeps {P : State → Prop} (hp : ∀ s rest, P s → P { s with pending := rest })
    (hx : ∀ c s, Runs c s (fun t => P s → P t)) {s t : State} (hs : P s) (h : step s = .next t) : P t := by
  unfold step at h
  split at h
  · cases h; exact hs
  · rename_i c rest _
    obtain ⟨u, hu, hk⟩ := hx c { s with pending := rest }
    rw [hu] at h
    cases h
    exact hk (hp s rest hs)

namespace State

/-- A property that the ports do not bear on and that the work of a request keeps is kept by the taking of the request. -/
theorem takeRequest_keeps {β : Type} {P : State → Prop} {s : State} {p : PortId} {code : Nat}
    {parse : List Byte → Except Status β} {work : State → Requester → β → State} (hs : P s)
    (off : ∀ r rest, s.headRequest p = some (r, rest) → P (s.takeOff p rest))
    (ans : ∀ u q st b, P u → P (u.answer q st b)) (pmp : ∀ u, P u → P u.pump)
    (wk : ∀ u q v, P u → P (work u q v)) : P (s.takeRequest p code parse work) := by
  rcases takeRequest_cases s p code parse work with h | ⟨r, rest, st, hh, h⟩ | ⟨r, rest, v, hh, -, h⟩ <;> rw [h]
  · exact hs
  · exact pmp _ (ans _ _ _ _ (off r rest hh))
  · exact pmp _ (wk _ _ _ (off r rest hh))

/-! ### The store port: its claims, and the order of notices and writes -/

/-- What the calm of the store port depends on: the operation, the claims, and the list notices (R9). -/
def claims (s : State) : Option StoreOp × Option Nat × Four (Option Fetch) × Option Nat × List HostRead × List WriteEntry
    × Option Change × List PbId :=
  (s.ctl.op, s.ctl.startUp, s.ctl.fetches, s.ctl.loadClaim, s.ctl.hostReads, s.ctl.queue, s.bank.change, s.eng.notices)

theorem claims_congr {s t : State} (hc : t.ctl = s.ctl) (hb : t.bank = s.bank) (he : t.eng.notices = s.eng.notices) :
    t.claims = s.claims := by simp only [claims, hc, hb, he]

/-- What the order of notices and writes depends on: whether a write is at the port, and the list notices (R59). -/
def order (s : State) : Bool × List PbId := (decide (s.ctl.op = some .write), s.eng.notices)

theorem order_congr {s t : State} (hc : t.ctl.op = s.ctl.op) (he : t.eng.notices = s.eng.notices) : t.order = s.order := by
  simp only [order, hc, he]

theorem order_of_claims {s t : State} (h : t.claims = s.claims) : t.order = s.order :=
  order_congr (congrArg (·.1) h) (congrArg (·.2.2.2.2.2.2.2) h)

theorem calm_of_claims {s t : State} (h : t.claims = s.claims) : t.Calm ↔ s.Calm := by
  simp only [claims, Prod.mk.injEq] at h
  obtain ⟨hop, hst, hfe, hlo, hho, hqu, hch, hno⟩ := h
  simp only [Calm, loadWaiting, hop, hst, hfe, hlo, hho, hqu, hch, hno]

theorem noticeGoesFirst_iff (s : State) : s.NoticeGoesFirst ↔ (s.order.1 = true → s.order.2 = []) ∧ s.order.2.length ≤ 1 := by
  simp [NoticeGoesFirst, order]

theorem noticeGoesFirst_of_order {s t : State} (h : t.order = s.order) : t.NoticeGoesFirst ↔ s.NoticeGoesFirst := by
  simp only [noticeGoesFirst_iff, h]

@[simp] theorem claims_setPb (s : State) (p : PbId) (x : Playback) : (s.setPb p x).claims = s.claims := rfl
@[simp] theorem claims_setPort (s : State) (p : PortId) (x : Port) : (s.setPort p x).claims = s.claims := by cases p <;> rfl
@[simp] theorem claims_setLine (s : State) (l : Fin 6) (x : Line) : (s.setLine l x).claims = s.claims := rfl
@[simp] theorem claims_emit (s : State) (o : Output) : (s.emit o).claims = s.claims := rfl
@[simp] theorem claims_setPaused (s : State) (p : PbId) (x : Bool) : (s.setPaused p x).claims = s.claims := rfl
@[simp] theorem claims_enterHeld (s : State) (p : PbId) : (s.enterHeld p).claims = s.claims := rfl
@[simp] theorem claims_unhold (s : State) (p : PbId) : (s.unhold p).claims = s.claims := rfl
@[simp] theorem claims_dropSlots (s : State) (p : PbId) : (s.dropSlots p).claims = s.claims := rfl
@[simp] theorem claims_createSlot (s : State) (x : Slot) : (s.createSlot x).claims = s.claims := rfl

@[simp] theorem claims_takeOff (s : State) (p : PortId) (rest : List Request) : (s.takeOff p rest).claims = s.claims :=
  claims_setPort _ _ _

@[simp] theorem claims_answer (s : State) (q : Requester) (st : Status) (b : List Byte) :
    (s.answer q st b).claims = s.claims := claims_setPort _ _ _

@[simp] theorem claims_report (s : State) (k : Nat) (u : Bool) (b : List Byte) : (s.report k u b).claims = s.claims :=
  claims_congr (by simp) (by simp) (by simp)

@[simp] theorem claims_raise (s : State) (f : EngineFault) : (s.raise f).claims = s.claims :=
  claims_congr (by simp) (by simp) (by simp)

@[simp] theorem claims_startReply (s : State) (p : PortId) : (s.startReply p).claims = s.claims :=
  claims_congr (by simp) (by simp) (by simp)

@[simp] theorem claims_pump (s : State) : s.pump.claims = s.claims := claims_congr (by simp) (by simp) (by simp)

/-- A run of operations that each keep something keeps it. -/
theorem foldl_keeps {α σ : Type} {f : State → α → State} {g : State → σ} (h : ∀ t a, g (f t a) = g t) (l : List α)
    (s : State) : g (l.foldl f s) = g s := by
  induction l generalizing s with
  | nil => rfl
  | cons a l ih => rw [List.foldl_cons, ih, h]

end State
end Sys2Proof.Machine

namespace Sys2Proof.Machine.State

/-! ### Operations that leave the claims of the store port -/

@[simp] theorem claims_rackReport (s : State) (stage line : Nat) (rack : Nat × Nat) (n : RackNews) :
    (s.rackReport stage line rack n).claims = s.claims := by cases n <;> simp [rackReport]

@[simp] theorem claims_tableEvent (s : State) (stage : Nat) (e : CircuitEvent) :
    (s.tableEvent stage e).claims = s.claims := claims_congr (by simp) (by simp) (by simp)

theorem claims_handEvents (s : State) (l : Fin 6) (i : Nat) (d : Debounce) : (s.handEvents l i d).claims = s.claims := by
  unfold handEvents
  dsimp only
  split_ifs
  · rfl
  · rfl
  · rfl
  · exact foldl_keeps (g := claims) (fun t a => claims_tableEvent t _ _) _ _

theorem claims_takeStatuses (s : State) (l : Fin 6) (statuses : List CircuitStatus) :
    (s.takeStatuses l statuses).claims = s.claims := by
  refine foldl_keeps (g := claims) (fun t a => ?_) _ _
  unfold takeStatus
  split_ifs
  · rfl
  · exact claims_handEvents _ _ _ _

@[simp] theorem claims_countReturn (s : State) (l : Fin 6) (r : Return) : (s.countReturn l r).claims = s.claims := by
  cases r with
  | bad => simp [countReturn, setRack]
  | good m n x =>
    simp only [countReturn]
    split_ifs <;> simp [claims_takeStatuses, setRack]

theorem claims_takeReturn (s : State) (l : Fin 6) (clean : Bool) (b : List Byte) :
    (s.takeReturn l clean b).claims = s.claims := by
  unfold takeReturn
  split_ifs <;> simp [closeInterval]

theorem claims_lineExpiry (s : State) (l : Fin 6) : (s.lineExpiry l).claims = s.claims := by
  unfold lineExpiry missReturn sendLevels
  split_ifs <;> simp [closeInterval]

@[simp] theorem claims_inputResult (s : State) (i : Fin 4) (p : PbId) (a : InputCommand) (r : InputResult) (cue : Nat) :
    (s.inputResult i p a r cue).claims = s.claims := claims_congr (by simp) (by simp) (by simp)

@[simp] theorem claims_endGo (s : State) (p : PbId) (src : GoSource) (st : Status) : (s.endGo p src st).claims = s.claims :=
  claims_congr (by simp) (by simp) (by simp)

@[simp] theorem claims_endPending (s : State) (p : PbId) (st : Status) : (s.endPending p st).claims = s.claims := by
  unfold endPending; split <;> simp

theorem claims_takeFault (s : State) (f : EngineFault) : (s.takeFault f).claims = s.claims := by
  have halts (t : State) : t.enterHalted.claims = t.claims :=
    foldl_keeps (g := claims) (fun t p => claims_endPending t p _) _ _
  unfold takeFault
  dsimp only
  split_ifs
  · rw [claims_report, halts]; exact claims_report s _ _ _
  · exact claims_report s _ _ _

theorem claims_takeRaised (s : State) (place : Nat) : (s.takeRaised place).claims = s.claims := by
  unfold takeRaised
  split_ifs
  · split
    · rfl
    · rw [claims_pump, claims_takeFault]; rfl
  · rfl

@[simp] theorem claims_freeze (s : State) (p : PbId) : (s.freeze p).claims = s.claims := by
  unfold freeze; split_ifs <;> rfl

theorem claims_applyLoss (s : State) : s.applyLoss.claims = s.claims := by
  have frozen : (four.foldl freeze { s with sup := { s.sup with loss := some s.sup.policy } }).claims = s.claims :=
    foldl_keeps (g := claims) claims_freeze _ _
  unfold applyLoss
  dsimp only
  generalize four.foldl freeze _ = u at frozen ⊢
  split
  · rfl
  · exact frozen
  · exact frozen

theorem claims_goSilent (s : State) : s.goSilent.claims = s.claims := by
  unfold goSilent
  split_ifs
  · rw [claims_pump, claims_applyLoss, claims_report]; rfl
  · rfl

theorem claims_fadeStep (s : State) : s.fadeStep.claims = s.claims := by
  have ended (u : State) (sl : Slot) : (u.endSlot sl).claims = u.claims := by
    have notices : (u.endSlot sl).eng.notices = u.eng.notices := by
      unfold endSlot
      dsimp only
      split_ifs <;> simp
    exact claims_congr (endSlot_ctl u sl) (endSlot_bank u sl) notices
  have slot (t : State) (n : Nat) : (t.advanceSlot n).claims = t.claims := by
    unfold advanceSlot
    split
    · rfl
    · dsimp only
      split_ifs
      · rfl
      · rw [ended, claims_setPb]; rfl
      · rw [claims_setPb]; rfl
  unfold fadeStep
  split_ifs
  · rfl
  · exact foldl_keeps (g := claims) slot _ _

theorem claims_receive (s : State) (p : PortId) (kind tag : Byte) (body : List Byte) :
    (s.receive p kind tag body).claims = s.claims := by
  have heard (t : State) : (t.heard p kind).claims = t.claims := by
    cases p
    · show (t.consoleHeard kind).claims = t.claims
      unfold consoleHeard; dsimp only
      split_ifs
      · exact claims_report _ _ _ _
      · rfl
    · rfl
  have queued (t : State) : (t.queueFrame p kind tag body).claims = t.claims := by
    unfold queueFrame; dsimp only; split_ifs <;> simp
  unfold receive
  split_ifs
  · simp
  · simp [startReplies, queued, heard]

theorem claims_finishSending (s : State) (p : PortId) : (s.finishSending p).claims = s.claims := by
  unfold finishSending; split <;> simp

theorem claims_takeUnknown (s : State) (p : PortId) : (s.takeUnknown p).claims = s.claims := by
  unfold takeUnknown
  split
  · rfl
  · split_ifs <;> simp

/-! ### The cascade -/

theorem claims_cascadeExpiry (s : State) : s.cascadeExpiry.claims = s.claims := by
  have stages (t : State) : (three.foldl sendStage t).claims = t.claims := foldl_keeps (f := sendStage) (g := claims) (fun _ _ => rfl) _ _
  have setups (t : State) : (three.foldl sendSetup t).claims = t.claims := foldl_keeps (f := sendSetup) (g := claims) (fun _ _ => rfl) _ _
  unfold cascadeExpiry
  dsimp only
  split_ifs
  · rw [setups]; exact stages s
  · exact stages s
  · rfl

theorem claims_roleOfStage (s : State) (n : Nat) : (s.roleOfStage n).claims = s.claims := by
  unfold roleOfStage; split_ifs <;> rfl

theorem claims_watchHop (s : State) (hop : Nat) : (s.watchHop hop).claims = s.claims := by
  unfold watchHop changeId
  split
  · exact claims_roleOfStage _ _
  · dsimp only
    generalize (if s.cas.cand = some hop then s.cas.candRun + 1 else 1) = run
    split_ifs
    · rfl
    · exact claims_roleOfStage _ _
    · rfl

theorem claims_takeStage (s : State) (f : StageFrame) : (s.takeStage f).claims = s.claims := by
  have lines (t : State) (f : Fin 6 → Line → Line) :
      (six.foldl (fun t l => t.setLine l (f l (t.line l))) t).claims = t.claims :=
    foldl_keeps (g := claims) (fun t l => claims_setLine t l _) _ _
  have taken := lines { s with outp := { s.outp with target := (stageSettled f s.free).blend }, free := s.free + stageOpens f }
    (fun l x => { x with next := levelsOfLine (stageSettled f s.free).levels l })
  unfold takeStage
  dsimp only at taken ⊢
  generalize List.foldl _ _ six = u at taken ⊢
  exact taken

theorem claims_applySetup (s : State) (f : SetupFrame) : (s.applySetup f).claims = s.claims := by
  have lines (t : State) (f : Fin 6 → Line → Line) :
      (six.foldl (fun t l => t.setLine l (f l (t.line l))) t).claims = t.claims :=
    foldl_keeps (g := claims) (fun t l => claims_setLine t l _) _ _
  have taken := lines { s with free := s.free + setupOpens f }
    (fun l x => x.take ((setupSettled f s.free).lines.getD l.val defaultLine))
  unfold applySetup
  dsimp only at taken ⊢
  generalize List.foldl _ _ six = u at taken ⊢
  exact taken

theorem claims_stageFrameIn {s : State} (f : StageFrame) (hl : s.isLeader = false) :
    (s.stageFrameIn f).claims = s.dinByte.claims := by
  have lost (t : State) : t.endLeaderLost.claims = t.claims := by unfold endLeaderLost; split_ifs <;> rfl
  unfold stageFrameIn
  simp only [hl, Bool.false_eq_true, if_false, claims_emit]
  split_ifs
  · rw [claims_takeStage, lost, claims_watchHop]
  · rw [lost, claims_watchHop]

theorem claims_setupFrameIn {s : State} (f : SetupFrame) (hl : s.isLeader = false) :
    (s.setupFrameIn f).claims = s.dinByte.claims := by
  unfold setupFrameIn
  simp only [hl, Bool.false_eq_true, if_false, claims_emit]
  split_ifs
  · rw [claims_applySetup, claims_watchHop]
  · rw [claims_watchHop]

theorem claims_takeUp (s : State) (n : Fin 3) (f : UpFrame) : (s.takeUp n f).claims = s.claims := by
  have joined (t : State) (g : UpFrame) : (t.joinStage n g).claims = t.claims := by
    unfold joinStage; dsimp only
    split_ifs
    · rfl
    · exact claims_report _ _ _ _
  have lines (t : State) (x : List LineReport) : (t.reportStageLines n x).claims = t.claims :=
    foldl_keeps (g := claims) (fun t a => claims_rackReport t _ _ _ _) _ _
  unfold takeUp
  refine (foldl_keeps (g := claims) (fun t a => claims_tableEvent t _ _) _ _).trans ?_
  exact (lines _ _).trans (joined _ _)

theorem claims_upFrameIn (s : State) (f : UpFrame) : (s.upFrameIn f).claims = s.claims := by
  have orphan : s.seeOrphan.claims = s.claims := by
    unfold seeOrphan; split_ifs
    · rfl
    · exact claims_raise _ _
  unfold upFrameIn
  split_ifs
  · rfl
  · rfl
  · exact orphan
  · split
    · rw [claims_pump, claims_takeUp]
    · rfl
  · rfl

theorem claims_loseStage (s : State) (n : Fin 3) : (s.loseStage n).claims = s.claims := by
  unfold loseStage
  dsimp only
  split_ifs
  · rw [claims_pump, claims_raise, claims_report]; rfl
  · rfl

/-- A block that is handed a house item leaves the claims of the store port as they are. -/
theorem claims_deliver (s : State) (item : HouseItem) (c : Bool) : (s.deliver item c).claims = s.claims := by
  cases item with
  | line st l x =>
    simp only [deliver, deliverLine, startLines]
    (repeat' split) <;> rfl
  | _ => rfl

theorem claims_deliverHeld (s : State) (h : Held) : (s.deliverHeld h).claims = s.claims := by
  cases h with
  | fault f => exact claims_raise s f
  | item i c =>
    have gens (t : State) : (t.raiseGens i).claims = t.claims := by
      unfold raiseGens; cases i <;> dsimp only <;> (try split) <;> rfl
    simp only [deliverHeld]
    split_ifs
    · rw [gens, claims_deliver]
    · exact claims_deliver _ _ _

theorem claims_becomeLeader (s : State) : s.becomeLeader.claims = s.claims := by
  have lines (t : State) : t.startLines.claims = t.claims := by unfold startLines; split_ifs <;> rfl
  unfold becomeLeader
  rw [lines, foldl_keeps (g := claims) claims_deliverHeld]
  rfl

end Sys2Proof.Machine.State

namespace Sys2Proof.Machine.State

/-! ### Operations that leave the order of notices and writes -/

@[simp] theorem order_setPb (s : State) (p : PbId) (x : Playback) : (s.setPb p x).order = s.order := rfl
@[simp] theorem order_unhold (s : State) (p : PbId) : (s.unhold p).order = s.order := rfl
@[simp] theorem order_dropSlots (s : State) (p : PbId) : (s.dropSlots p).order = s.order := rfl
@[simp] theorem order_createSlot (s : State) (x : Slot) : (s.createSlot x).order = s.order := rfl
@[simp] theorem order_setPort (s : State) (p : PortId) (x : Port) : (s.setPort p x).order = s.order :=
  order_of_claims (claims_setPort _ _ _)
@[simp] theorem order_takeOff (s : State) (p : PortId) (rest : List Request) : (s.takeOff p rest).order = s.order :=
  order_of_claims (claims_takeOff _ _ _)
@[simp] theorem order_answer (s : State) (q : Requester) (st : Status) (b : List Byte) : (s.answer q st b).order = s.order :=
  order_of_claims (claims_answer _ _ _ _)
@[simp] theorem order_report (s : State) (k : Nat) (u : Bool) (b : List Byte) : (s.report k u b).order = s.order :=
  order_of_claims (claims_report _ _ _ _)
@[simp] theorem order_raise (s : State) (f : EngineFault) : (s.raise f).order = s.order := order_of_claims (claims_raise _ _)
@[simp] theorem order_inputResult (s : State) (i : Fin 4) (p : PbId) (a : InputCommand) (r : InputResult) (cue : Nat) :
    (s.inputResult i p a r cue).order = s.order := order_of_claims (claims_inputResult _ _ _ _ _ _)
@[simp] theorem order_endGo (s : State) (p : PbId) (src : GoSource) (st : Status) : (s.endGo p src st).order = s.order :=
  order_of_claims (claims_endGo _ _ _ _)
@[simp] theorem order_endPending (s : State) (p : PbId) (st : Status) : (s.endPending p st).order = s.order :=
  order_of_claims (claims_endPending _ _ _)

/-- A fetch whose outcome is no longer wanted is no write. -/
@[simp] theorem order_dropFetch (s : State) (p : PbId) : (s.dropFetch p).order = s.order := by
  unfold dropFetch order
  rcases s.ctl.op with _ | _ | _ | _ | _ | _ <;> simp

@[simp] theorem order_endAtOnce (s : State) (p : PbId) (before now : Standby) : (s.endAtOnce p before now).order = s.order := by
  unfold endAtOnce
  dsimp only
  split_ifs <;> simp [standbyChanged]

@[simp] theorem order_takeStandby (s : State) (p : PbId) (now : Standby) : (s.takeStandby p now).order = s.order := by
  simp [takeStandby, standbyChanged]

@[simp] theorem order_startFetchCore (s : State) (p : PbId) : (s.startFetchCore p).order = s.order := by
  unfold startFetchCore
  dsimp only
  split
  · split_ifs
    · simp
    · split
      · simp
      · simp
      · rw [order_setPb]; exact order_dropFetch s p
  · simp

@[simp] theorem order_goTake (s : State) (p : PbId) (src : GoSource) (o : Option Nat) (a : Bool) (c : Cue) :
    (s.goTake p src o a c).order = s.order := by
  have told (t : State) (cue slot : Nat) (kept : Bool) : (t.goReply p src o a cue slot kept).order = t.order := by
    cases src <;> simp [goReply]
  have acted (t : State) (cue : Nat) : (t.goAction p src cue).order = t.order := by cases src <;> simp [goAction]
  unfold goTake
  dsimp only
  split
  · simp
  · split_ifs <;> simp [told, acted]

@[simp] theorem order_handPending (s : State) (p : PbId) : (s.handPending p).order = s.order := by
  unfold handPending
  split
  · rfl
  · dsimp only
    split <;> simp

@[simp] theorem order_startFetch (s : State) (p : PbId) : (s.startFetch p).order = s.order := by simp [startFetch]

@[simp] theorem order_goCommand (s : State) (p : PbId) (src : GoSource) (o : Option Nat) (a : Bool) :
    (s.goCommand p src o a).order = s.order := by
  have pended : (s.makePending p src o a).order = s.order := by
    unfold makePending; cases src <;> simp
  unfold goCommand
  split
  · simp
  · split
    · simp
    · simp
    · simp
    · split <;> simp [pended]
    · split <;> simp

@[simp] theorem order_takeOutcome (s : State) (p : PbId) (f : Fetch) (r : Option Cue) :
    (s.takeOutcome p f r).order = s.order := by
  cases r <;> simp [takeOutcome]

theorem order_backCommand {s t : State} {p : PbId} {r : BackTaken} (h : s.backCommand p = .ok (t, r)) :
    t.order = s.order := by
  unfold backCommand at h
  dsimp only at h
  split at h
  · cases h
  · split_ifs at h
    all_goals
      split at h
      · cases h
      · cases h; simp

theorem claims_holdCommand {s t : State} {p : PbId} (h : s.holdCommand p = .ok t) : t.claims = s.claims := by
  unfold holdCommand at h
  split at h
  · cases h; rfl
  · split_ifs at h
    cases h; rfl
  · cases h
  · cases h; rfl

theorem claims_resumeCommand {s t : State} {p : PbId} (h : s.resumeCommand p = .ok t) : t.claims = s.claims := by
  unfold resumeCommand at h
  split_ifs at h
  cases h; rfl

@[simp] theorem order_releaseCommand (s : State) (q : Requester) (p : PbId) (time : Nat) (a : Bool) :
    (s.releaseCommand q p time a).order = s.order := by
  have told (t : State) (slot : Nat) : (t.releaseReply q p slot time a).order = t.order := by simp [releaseReply]
  unfold releaseCommand
  split_ifs
  · simp [told]
  · dsimp only
    split
    · simp
    · unfold releaseSlot
      dsimp only
      split_ifs <;> simp [told]

/-! ### The store queue and the bank requests -/

@[simp] theorem order_enqueue (s : State) (w : WriteEntry) : (s.enqueue w).order = s.order := by
  unfold enqueue; dsimp only; split <;> rfl

@[simp] theorem order_acceptWrite (s : State) (q : Requester) (k : WriteKind) (b : Option Bank) (st : Status) :
    (s.acceptWrite q k b st).order = s.order := by
  unfold acceptWrite; split_ifs <;> simp

@[simp] theorem order_acceptBankWrite (s : State) (q : Requester) (k : WriteKind) (b : Bank) :
    (s.acceptBankWrite q k b).order = s.order := by
  unfold acceptBankWrite; split_ifs <;> simp

theorem order_cueCloseWork (s : State) (q : Requester) (a : Unit) : (s.cueCloseWork q a).order = s.order := by
  unfold cueCloseWork
  split
  · simp
  · split
    · simp
    · split
      · simp
      · split <;> simp [setBuilder]

theorem order_cueDeleteWork (s : State) (q : Requester) (a : (Bank × PbId) × Nat) : (s.cueDeleteWork q a).order = s.order := by
  unfold cueDeleteWork; split_ifs <;> simp

theorem order_windowSetWork (s : State) (q : Requester) (a : Bank × Windows) : (s.windowSetWork q a).order = s.order := by
  unfold windowSetWork; split_ifs <;> simp

theorem order_bankEraseWork (s : State) (q : Requester) (b : Bank) : (s.bankEraseWork q b).order = s.order := by
  unfold bankEraseWork; split_ifs <;> simp

theorem order_recordWork (s : State) (q : Requester) (a : RecordArgs) : (s.recordWork q a).order = s.order := by
  unfold recordWork
  split
  · simp
  · dsimp only
    split <;> (try split_ifs) <;> simp

theorem order_backWork (s : State) (q : Requester) (p : PbId) : (s.backWork q p).order = s.order := by
  unfold backWork
  split
  · simp
  · rename_i t r h; simp [order_backCommand h]

theorem order_jumpWork (s : State) (q : Requester) (a : PbId × Nat) : (s.jumpWork q a).order = s.order := by
  unfold jumpWork; dsimp only; split_ifs <;> simp

theorem order_answerPatch (s : State) (q : Requester) (first count : Nat) (m : Assoc PatchEntry) (w : Windows) :
    (s.answerPatch q first count m w).order = s.order := by
  unfold answerPatch; simp only [order_answer]; rfl

theorem order_cueReadWork (s : State) (q : Requester) (a : (Bank × PbId) × Nat × Nat) : (s.cueReadWork q a).order = s.order := by
  unfold cueReadWork
  dsimp only
  split_ifs
  · simp
  · split
    · simp
    · simp
    · rfl

theorem order_patchReadWork (s : State) (q : Requester) (a : Bank × Nat × Nat) : (s.patchReadWork q a).order = s.order := by
  unfold patchReadWork
  dsimp only
  split_ifs
  · simp
  · split
    · exact order_answerPatch _ _ _ _ _ _
    · rfl

theorem order_endHostRead (s : State) (r : HostRead) (passes : Bool) : (s.endHostRead r passes).order = s.order := by
  cases r with
  | cue q b l n first => simp only [endHostRead]; split <;> simp
  | patch q b first count =>
    simp only [endHostRead]
    split
    · exact order_answerPatch _ _ _ _ _ _
    · simp

/-! ### The changeover -/

/-- A load step whose outcome is no longer wanted is no write. -/
@[simp] theorem order_endChangeover (s : State) : s.endChangeover.order = s.order := by
  unfold endChangeover order
  rcases s.ctl.op with _ | _ | _ | _ | _ | _ <;> simp

@[simp] theorem order_answerOwed (s : State) (o : Option Byte) (st : Status) (b : List Byte) :
    (s.answerOwed o st b).order = s.order := by cases o <;> simp [answerOwed]

@[simp] theorem order_cancelChangeover (s : State) (c : Change) : (s.cancelChangeover c).order = s.order := by
  simp [cancelChangeover]

@[simp] theorem order_withdrawFetches (s : State) : s.withdrawFetches.order = s.order := by
  unfold withdrawFetches order
  rcases s.ctl.op with _ | _ | _ | _ | _ | _ <;> simp

@[simp] theorem order_releaseParks (s : State) : s.releaseParks.order = s.order := order_congr (by simp) (by simp)

@[simp] theorem order_showActive (s : State) (b : Option Bank) (c : Change) : (s.showActive b c).order = s.order := by
  simp [showActive]

@[simp] theorem order_commit (s : State) (c : Change) : (s.commit c).order = s.order := by
  have cleared (t : State) : (four.foldl commitPlayback t).order = t.order :=
    foldl_keeps (g := order) (fun t p => by simp [commitPlayback]) _ _
  have fetched (t : State) : (four.foldl startFetch t).order = t.order :=
    foldl_keeps (g := order) order_startFetch _ _
  unfold commit
  dsimp only
  rw [fetched, order_answerOwed, order_showActive, order_releaseParks, cleared, order_withdrawFetches]
  rfl

@[simp] theorem order_darkCheck (s : State) (c : Change) : (s.darkCheck c).order = s.order := by
  unfold darkCheck; split_ifs <;> simp

@[simp] theorem order_takeLoad (s : State) (b : Bank) (n : Nat) (passes : Bool) : (s.takeLoad b n passes).order = s.order := by
  have passed (c : Change) (u : PatchUnit) : (s.passLoad c u).order = s.order := by
    unfold passLoad
    dsimp only
    split_ifs
    · rfl
    · rw [order_darkCheck]; rfl
    · rw [order_commit]; rfl
  have failed (c : Change) : (s.failLoad c).order = s.order := by
    unfold failLoad; dsimp only; split <;> simp
  unfold takeLoad
  split
  · rfl
  · split
    · exact passed _ _
    · exact failed _

theorem order_changeoverWork (s : State) (q : Requester) (a : Bank × Bool) : (s.changeoverWork q a).order = s.order := by
  unfold changeoverWork
  split_ifs
  · simp
  · simp
  · rfl

theorem order_restartWork (s : State) (q : Requester) (a : Unit) : (s.restartWork q a).order = s.order := by
  have restarted (t : State) : (four.foldl (fun t p => (t.restartPlayback p).startFetch p) t).order = t.order :=
    foldl_keeps (g := order) (fun t p => by simp [restartPlayback]) _ _
  unfold restartWork
  dsimp only
  rw [order_answer, restarted]
  split
  · rw [order_cancelChangeover]; rfl
  · rfl

/-! ### Cue inputs -/

theorem order_actOnInput (s : State) (i : Fin 4) : (s.actOnInput i).order = s.order := by
  have commanded (p : PbId) (a : InputCommand) : (s.inputCommand i p a).order = s.order := by
    cases a with
    | go => simp [inputCommand]
    | back =>
      simp only [inputCommand]
      split
      · simp
      · rename_i h; simp [order_backCommand h]
    | hold =>
      simp only [inputCommand]
      split
      · simp
      · rename_i h; simp [order_of_claims (claims_holdCommand h)]
    | resume =>
      simp only [inputCommand]
      split
      · simp
      · rename_i h; simp [order_of_claims (claims_resumeCommand h)]
  unfold actOnInput
  dsimp only
  split
  · split
    · rfl
    · split
      · simp
      · exact commanded _ _
  · rfl

end Sys2Proof.Machine.State

namespace Sys2Proof.Machine.State

/-! ### Requests -/

theorem claims_takeRequest {β : Type} {s : State} {p : PortId} {code : Nat} {parse : List Byte → Except Status β}
    {work : State → Requester → β → State} (wk : ∀ u q v, (work u q v).claims = u.claims) :
    (s.takeRequest p code parse work).claims = s.claims :=
  takeRequest_keeps (P := fun t => t.claims = s.claims) rfl (fun _ _ _ => claims_takeOff _ _ _)
    (fun _ _ _ _ h => (claims_answer _ _ _ _).trans h) (fun _ h => (claims_pump _).trans h)
    (fun _ _ _ h => (wk _ _ _).trans h)

theorem claims_listReadWork (s : State) (q : Requester) (a : (Bank × PbId) × Nat) : (s.listReadWork q a).claims = s.claims := by
  unfold listReadWork; dsimp only; split <;> simp

theorem claims_statusWork (s : State) (q : Requester) (a : Unit) : (s.statusWork q a).claims = s.claims := by
  unfold statusWork
  split
  · simp
  · split <;> exact (claims_answer _ _ _ _).trans rfl

theorem claims_levelsReadWork (s : State) (q : Requester) (a : Nat × Nat × Nat) : (s.levelsReadWork q a).claims = s.claims := by
  unfold levelsReadWork
  dsimp only
  split
  · simp
  · split <;> simp

theorem claims_slotReadWork (s : State) (q : Requester) (a : Nat × Nat) : (s.slotReadWork q a).claims = s.claims := by
  unfold slotReadWork; split <;> simp

theorem claims_cueOpenWork (s : State) (q : Requester) (a : Builder) : (s.cueOpenWork q a).claims = s.claims := by
  unfold cueOpenWork; split_ifs <;> simp [setBuilder]

theorem claims_cueAddWork (s : State) (q : Requester) (a : List (Nat × Nat)) : (s.cueAddWork q a).claims = s.claims := by
  unfold cueAddWork
  split
  · simp
  · dsimp only; split_ifs <;> simp [setBuilder]

theorem claims_cueAbandonWork (s : State) (q : Requester) (a : Unit) : (s.cueAbandonWork q a).claims = s.claims := by
  unfold cueAbandonWork; split_ifs <;> simp [setBuilder]

theorem claims_holdWork (s : State) (q : Requester) (p : PbId) : (s.holdWork q p).claims = s.claims := by
  unfold holdWork
  split
  · simp
  · rename_i h; simp [claims_holdCommand h]

theorem claims_resumeWork (s : State) (q : Requester) (p : PbId) : (s.resumeWork q p).claims = s.claims := by
  unfold resumeWork
  split
  · simp
  · rename_i h; simp [claims_resumeCommand h]

theorem claims_masterWork (s : State) (q : Requester) (a : Nat × Nat × Bool) : (s.masterWork q a).claims = s.claims := by
  have level (t : State) (n v : Nat) : (t.setMaster n v).claims = t.claims := by unfold setMaster; split <;> rfl
  simp [masterWork, level]

theorem claims_parkWork (s : State) (q : Requester) (a : Nat × Nat × Bool) : (s.parkWork q a).claims = s.claims := by
  unfold parkWork; dsimp only; split <;> exact (claims_answer _ _ _ _).trans rfl

theorem claims_unparkWork (s : State) (q : Requester) (c : Nat) : (s.unparkWork q c).claims = s.claims := by
  have kept (rest : List Park) : (s.keepParks q rest).claims = s.claims := by
    unfold keepParks; rw [claims_answer]; rfl
  unfold unparkWork
  split
  · split <;> exact kept _
  · split
    · simp
    · exact kept _

theorem claims_faultClearWork (s : State) (q : Requester) (a : Option (Nat × FaultKind)) :
    (s.faultClearWork q a).claims = s.claims := by
  unfold faultClearWork
  dsimp only
  split
  · rw [claims_answer]; rfl
  · split
    · simp
    · split <;> exact (claims_answer _ _ _ _).trans rfl

theorem claims_lineHoldWork (s : State) (q : Requester) (a : Nat × Bool) : (s.lineHoldWork q a).claims = s.claims := by
  unfold lineHoldWork; dsimp only; rw [claims_answer]; split <;> rfl

/-! ### The end of a write -/

/-- A state with nothing at the port and no more than one notice has no notice that a write goes before. -/
theorem noticeGoesFirst_of_free {s : State} (hop : s.ctl.op = none) (hn : s.eng.notices.length ≤ 1) : s.NoticeGoesFirst :=
  ⟨fun h => by simp [hop] at h, hn⟩

theorem endHeadWrite_op (s : State) (st : Status) (b : List Byte) : (s.endHeadWrite st b).ctl.op = s.ctl.op := by
  unfold endHeadWrite; split <;> simp

/-- A write that ends leaves at most one list notice (R13, R14). -/
theorem listNotice_notices_le (s : State) (w : WriteEntry) :
    (s.listNotice w).eng.notices.length ≤ s.eng.notices.length + 1 := by
  unfold listNotice
  cases w.kind <;> dsimp only <;> (try split_ifs) <;> simp

theorem listNotice_ctl (s : State) (w : WriteEntry) : (s.listNotice w).ctl = s.ctl := by
  unfold listNotice
  cases w.kind <;> dsimp only <;> (try split_ifs) <;> rfl

theorem patchNoticeFor_ctl_eng (s : State) (w : WriteEntry) (pairs : List (Nat × Option PatchEntry)) :
    (s.patchNoticeFor w pairs).ctl = s.ctl ∧ (s.patchNoticeFor w pairs).eng = s.eng := by
  unfold patchNoticeFor
  dsimp only
  split
  · exact ⟨rfl, rfl⟩
  · split
    · split <;> exact ⟨rfl, rfl⟩
    · exact ⟨rfl, rfl⟩

theorem claims_handOver (s : State) (h : Held) : (s.handOver h).claims = s.claims := by
  unfold handOver
  split
  · rfl
  · exact claims_deliverHeld s h
  · rfl

theorem notices_of_claims {s t : State} (h : t.claims = s.claims) : t.eng.notices = s.eng.notices :=
  congrArg (·.2.2.2.2.2.2.2) h

theorem op_of_claims {s t : State} (h : t.claims = s.claims) : t.ctl.op = s.ctl.op := congrArg (·.1) h

/-- The notices of a completed write: nothing at the port, and at most one list notice more (R13). -/
theorem notify_order (s : State) (w : WriteEntry) (pairs : List (Nat × Option PatchEntry)) :
    (s.notify w pairs).ctl.op = s.ctl.op ∧ (s.notify w pairs).eng.notices.length ≤ s.eng.notices.length + 1 := by
  unfold notify
  split
  · have h := claims_handOver s (.item ‹_› true)
    exact ⟨op_of_claims h, by rw [notices_of_claims h]; omega⟩
  · obtain ⟨hc, he⟩ := patchNoticeFor_ctl_eng (s.listNotice w) w pairs
    rw [hc, he, listNotice_ctl]
    exact ⟨rfl, listNotice_notices_le s w⟩

theorem headerAfter_op_eng (s : State) (w : WriteEntry) :
    (s.headerAfter w).ctl.op = s.ctl.op ∧ (s.headerAfter w).eng = s.eng := by
  unfold headerAfter; split <;> exact ⟨rfl, rfl⟩

theorem noticeGoesFirst_confirmWrite {s : State} (w : WriteEntry) (damaged : List Nat) (hop : s.ctl.op = none)
    (hn : s.eng.notices = []) : (s.confirmWrite w damaged).NoticeGoesFirst := by
  unfold confirmWrite
  split
  · have ho : (s.eraseOn w).ctl.op = s.ctl.op ∧ (s.eraseOn w).eng = s.eng := by
      unfold eraseOn
      dsimp only
      split
      · split <;> exact ⟨rfl, rfl⟩
      · exact ⟨rfl, rfl⟩
    exact noticeGoesFirst_of_free (ho.1.trans hop) (by rw [ho.2, hn]; simp)
  · unfold completeWrite
    dsimp only
    obtain ⟨hno, hnn⟩ := notify_order
      ((({ s with store := s.storeAfter w damaged } : State).headerAfter w).endHeadWrite w.status w.fields) w
      (match w.kind, w.bank with
        | .patchWrite pairs, some b => noticePairs pairs damaged (s.store.banks.get b).segments
        | _, _ => [])
    obtain ⟨hho, hhe⟩ := headerAfter_op_eng { s with store := s.storeAfter w damaged } w
    refine noticeGoesFirst_of_free ?_ ?_
    · exact hno.trans ((endHeadWrite_op _ _ _).trans (hho.trans hop))
    · refine hnn.trans ?_
      rw [endHeadWrite_eng, hhe]
      simp [hn]

/-- The header copy as a failed write leaves it: BLANK for an erase (R15). -/
def failedHeader (s : State) (w : WriteEntry) : State :=
  match w.kind, w.bank with
  | .bankErase, some b => s.setRam b .blank
  | _, _ => s

/-- The projection worked out anew over the writes that follow a failed one, where it names a bank (R14). -/
def failedProjection (s : State) (w : WriteEntry) : State :=
  match w.bank with
  | some b => s.projectAnew b
  | none => s

/-- The steps of a failed write, one after another (R14, R15). -/
theorem failWrite_eq (s : State) (w : WriteEntry) : s.failWrite w =
    ((((s.failedHeader w).endHeadWrite .writeFailed []).raise
      { ((s.failedHeader w).endHeadWrite .writeFailed []).fault .storeFault false 4 with bank := w.bank }).failedProjection
        w).listNotice w := rfl

theorem failedHeader_op_eng (s : State) (w : WriteEntry) :
    (s.failedHeader w).ctl.op = s.ctl.op ∧ (s.failedHeader w).eng = s.eng := by
  unfold failedHeader; split <;> exact ⟨rfl, rfl⟩

theorem failedProjection_op_eng (s : State) (w : WriteEntry) :
    (s.failedProjection w).ctl.op = s.ctl.op ∧ (s.failedProjection w).eng = s.eng := by
  unfold failedProjection; split <;> exact ⟨rfl, rfl⟩

theorem noticeGoesFirst_failWrite {s : State} (w : WriteEntry) (hop : s.ctl.op = none) (hn : s.eng.notices = []) :
    (s.failWrite w).NoticeGoesFirst := by
  rw [failWrite_eq]
  refine noticeGoesFirst_of_free ?_ ((listNotice_notices_le _ _).trans ?_)
  · rw [listNotice_ctl, (failedProjection_op_eng _ _).1, raise_ctl, endHeadWrite_op, (failedHeader_op_eng _ _).1, hop]
  · rw [(failedProjection_op_eng _ _).2, raise_eng, endHeadWrite_eng, (failedHeader_op_eng _ _).2, hn]
    simp

/-! ### Every command keeps the port busy, and the notices first -/

/-- A command keeps the store port calm and the notices first. -/
def KeepsPort (s t : State) : Prop := (s.Calm → t.Calm) ∧ (s.NoticeGoesFirst → t.NoticeGoesFirst)

theorem keepsPort_of_claims {s t : State} (h : t.claims = s.claims) : s.KeepsPort t :=
  ⟨(calm_of_claims h).mpr, (noticeGoesFirst_of_order (order_of_claims h)).mpr⟩

theorem keepsPort_refl (s : State) : s.KeepsPort s := ⟨id, id⟩

theorem KeepsPort.trans_claims {s t u : State} (h : s.KeepsPort t) (hc : u.claims = t.claims) : s.KeepsPort u :=
  ⟨fun hs => (calm_of_claims hc).mpr (h.1 hs), fun hs => (noticeGoesFirst_of_order (order_of_claims hc)).mpr (h.2 hs)⟩

/-- A command that ends with a grant leaves the port calm (R9). -/
theorem keepsPort_settle {s u : State} (h : s.NoticeGoesFirst → u.NoticeGoesFirst) : s.KeepsPort u.settle :=
  ⟨fun _ => calm_settle u, fun hs => noticeGoesFirst_settle (h hs)⟩

theorem keepsPort_settle_order {s u : State} (h : u.order = s.order) : s.KeepsPort u.settle :=
  keepsPort_settle (noticeGoesFirst_of_order h).mpr

theorem freePort_noticeGoesFirst {s : State} (h : s.NoticeGoesFirst) : s.freePort.NoticeGoesFirst :=
  noticeGoesFirst_of_free rfl h.2

/-- The end of an operation other than a write: the port is freed, and the end leaves the order as it is. -/
theorem keepsPort_ended {s u : State} (h : u.order = s.freePort.order) : s.KeepsPort u.settle :=
  keepsPort_settle fun hs => (noticeGoesFirst_of_order h).mpr (freePort_noticeGoesFirst hs)

theorem keepsPort_takeRequest {β : Type} {s : State} {p : PortId} {code : Nat} {parse : List Byte → Except Status β}
    {work : State → Requester → β → State} (wk : ∀ u q v, (work u q v).claims = u.claims) :
    s.KeepsPort (s.takeRequest p code parse work) := keepsPort_of_claims (claims_takeRequest wk)

theorem keepsPort_takeStoreRequest {β : Type} {s : State} {p : PortId} {code : Nat} {parse : List Byte → Except Status β}
    {work : State → Requester → β → State} (wk : ∀ u q v, (work u q v).order = u.order) :
    s.KeepsPort (s.takeStoreRequest p code parse work) := by
  unfold takeStoreRequest
  rcases takeRequest_cases s p code parse (fun t q v => (work t q v).arbitrate) with
    h | ⟨r, rest, st, -, h⟩ | ⟨r, rest, v, -, -, h⟩ <;> rw [h]
  · exact keepsPort_refl s
  · exact keepsPort_of_claims (by simp)
  · exact keepsPort_settle_order (u := work (s.takeOff p rest) (requesterOf p r) v) (by rw [wk]; simp)

theorem calm_cancelChangeover {s : State} (c : Change) (h : s.Calm) : (s.cancelChangeover c).Calm := by
  have owed (t : State) : (t.answerOwed c.owed .cancelled (cancelFields c)).claims = t.claims := by
    unfold answerOwed; split <;> simp
  rw [cancelChangeover, calm_of_claims (owed _)]
  rcases h with h | h | ⟨h1, h2, -, h4, h5⟩
  · left
    unfold endChangeover
    dsimp only
    split <;> simp_all
  · exact .inr (.inl h)
  · exact .inr (.inr ⟨h1, h2, by simp [loadWaiting, endChangeover], h4, h5⟩)

theorem keepsPort_changeoverCancel (s : State) (p : PortId) :
    s.KeepsPort (s.takeRequest p 0x51 parseNone changeoverCancelWork) := by
  constructor
  · intro hs
    refine takeRequest_keeps (P := Calm) hs (fun r rest _ => (calm_of_claims (claims_takeOff _ _ _)).mpr hs)
      (fun u q st b h => (calm_of_claims (claims_answer _ _ _ _)).mpr h) (fun u h => (calm_of_claims (claims_pump u)).mpr h)
      (fun u q v h => ?_)
    unfold changeoverCancelWork
    split
    · exact (calm_of_claims (claims_answer _ _ _ _)).mpr h
    · exact (calm_of_claims (claims_answer _ _ _ _)).mpr (calm_cancelChangeover _ h)
  · refine (noticeGoesFirst_of_order ?_).mpr
    refine takeRequest_keeps (P := fun t => t.order = s.order) rfl (fun _ _ _ => order_takeOff _ _ _)
      (fun _ _ _ _ h => (order_answer _ _ _ _).trans h) (fun u h => (order_of_claims (claims_pump u)).trans h)
      (fun u q v h => ?_)
    unfold changeoverCancelWork
    split <;> simp [h]

/-! ### The ends of store operations, the role, and the other commands that end with a grant -/

theorem keepsPort_becomeFollower (s : State) : s.KeepsPort s.becomeFollower :=
  keepsPort_settle fun _ => ⟨fun _ => rfl, Nat.zero_le 1⟩

theorem keepsPort_decideRole (s : State) (d : Bool) : s.KeepsPort (s.decideRole d) := by
  unfold decideRole
  split_ifs
  · exact keepsPort_becomeFollower s
  · exact keepsPort_of_claims (claims_becomeLeader s)
  · exact keepsPort_refl s

theorem keepsPort_endStartUpRead (s u : State) (i : Nat) (passes : Bool) (h : u.claims = s.claims) :
    s.KeepsPort (u.endStartUpRead i passes) := by
  unfold endStartUpRead
  dsimp only
  generalize hv : (if i ≤ 42 then u.freePort.houseRead i passes else u.freePort.headerRead (Fin.ofNat 4 (i - 43)) passes) = v
  have hv : v.order = u.freePort.order := by
    subst hv
    split_ifs
    · unfold houseRead
      split
      · exact order_of_claims (claims_handOver _ _)
      · exact (order_of_claims (claims_handOver _ _)).trans rfl
    · rfl
  have hu : u.freePort.order = s.freePort.order := by
    simp only [order, freePort, notices_of_claims h]; rfl
  split_ifs
  · exact keepsPort_ended ((show _ = v.order from rfl).trans (hv.trans hu))
  · exact keepsPort_ended ((show _ = v.order from rfl).trans (hv.trans hu))

theorem keepsPort_startUpDone (s : State) (a : StoreAnswer) : s.KeepsPort (s.startUpDone a) := by
  unfold startUpDone
  split
  · exact keepsPort_refl s
  · exact keepsPort_endStartUpRead s s _ _ rfl
  · exact keepsPort_refl s

theorem keepsPort_decideStartUp (s : State) : s.KeepsPort s.decideStartUp := by
  have decided (u : State) (hu : u.order = s.order) (b : Option Bank) : s.KeepsPort
      (match b with
        | none => u.settle
        | some b => if u.reportedBlank b then u.settle else (u.startChangeover b false none).settle) := by
    cases b with
    | none => exact keepsPort_settle_order hu
    | some b =>
      dsimp only
      split
      · exact keepsPort_settle_order hu
      · exact keepsPort_settle_order hu
  unfold decideStartUp
  split
  · refine decided _ ?_ _
    split
    · exact order_raise _ _
    · rfl
  · exact keepsPort_refl s

theorem keepsPort_fetchDone (s : State) (a : StoreAnswer) : s.KeepsPort (s.fetchDone a) := by
  unfold fetchDone
  split
  · exact keepsPort_refl s
  · rename_i p f wanted _ _
    cases wanted
    · exact keepsPort_ended rfl
    · exact keepsPort_ended (order_takeOutcome _ _ _ _)
  · exact keepsPort_refl s

theorem keepsPort_loadDone (s : State) (a : StoreAnswer) : s.KeepsPort (s.loadDone a) := by
  unfold loadDone
  split
  · exact keepsPort_refl s
  · dsimp only
    split_ifs
    · exact keepsPort_ended (order_takeLoad _ _ _ _)
    · exact keepsPort_ended rfl
  · exact keepsPort_refl s

theorem keepsPort_hostReadDone (s : State) (a : StoreAnswer) : s.KeepsPort (s.hostReadDone a) := by
  unfold hostReadDone
  split
  · exact keepsPort_refl s
  · exact keepsPort_ended (order_endHostRead _ _ _)
  · exact keepsPort_refl s

theorem keepsPort_writeDone (s : State) (a : WriteAnswer) : s.KeepsPort (s.writeDone a) := by
  unfold writeDone
  split
  · exact keepsPort_settle fun hs => noticeGoesFirst_confirmWrite _ _ rfl (hs.1 ‹_›)
  · exact keepsPort_settle fun hs => noticeGoesFirst_failWrite _ rfl (hs.1 ‹_›)
  · exact keepsPort_settle fun hs => noticeGoesFirst_failWrite _ rfl (hs.1 ‹_›)
  · exact keepsPort_refl s

theorem keepsPort_timeout (s : State) : s.KeepsPort s.timeout := by
  unfold timeout
  split
  · exact keepsPort_endStartUpRead s _ _ _ (claims_handOver _ _)
  · dsimp only
    split_ifs
    · exact keepsPort_ended (by simp)
    · exact keepsPort_ended (by simp)
  · dsimp only
    split_ifs
    · exact keepsPort_ended (by simp)
    · exact keepsPort_ended (by simp)
  · exact keepsPort_ended (by simp [order_endHostRead])
  · exact keepsPort_settle fun hs => noticeGoesFirst_failWrite _ rfl (hs.1 ‹_›)
  · exact keepsPort_refl s
  · exact keepsPort_refl s

theorem keepsPort_takeListNotice (s : State) : s.KeepsPort s.takeListNotice := by
  unfold takeListNotice
  split
  · exact keepsPort_refl s
  · rename_i p rest hq
    refine keepsPort_settle fun hs => (noticeGoesFirst_of_order (order_startFetch _ _)).mpr ⟨fun h => ?_, ?_⟩
    · have := hs.1 h; simp [hq] at this
    · have := hs.2; simp [hq] at this; simp [this]

theorem keepsPort_expireFollow (s : State) (p : PbId) : s.KeepsPort (s.expireFollow p) := by
  unfold expireFollow
  split
  · split_ifs
    · exact keepsPort_settle_order (by simp)
    · exact keepsPort_refl s
  · exact keepsPort_refl s

theorem keepsPort_darkExpiry (s : State) : s.KeepsPort s.darkExpiry := by
  unfold darkExpiry
  split
  · exact keepsPort_refl s
  · split_ifs
    · exact keepsPort_settle_order ((order_darkCheck _ _).trans rfl)
    · exact keepsPort_refl s

theorem keepsPort_debounce (s : State) (i : Fin 4) : s.KeepsPort (s.debounce i) := by
  unfold debounce
  dsimp only
  split_ifs
  · exact keepsPort_refl s
  · exact keepsPort_of_claims rfl
  · exact keepsPort_settle_order ((order_actOnInput _ _).trans rfl)

theorem keepsPort_stageFrameIn (s : State) (f : StageFrame) : s.KeepsPort (s.stageFrameIn f) := by
  cases hl : s.isLeader with
  | true => rw [stageFrameIn, if_pos hl]; exact keepsPort_refl s
  | false => exact (keepsPort_decideRole s true).trans_claims (claims_stageFrameIn f hl)

theorem keepsPort_setupFrameIn (s : State) (f : SetupFrame) : s.KeepsPort (s.setupFrameIn f) := by
  cases hl : s.isLeader with
  | true => rw [setupFrameIn, if_pos hl]; exact keepsPort_refl s
  | false => exact (keepsPort_decideRole s true).trans_claims (claims_setupFrameIn f hl)

theorem keepsPort_countError (s : State) (i : CasInput) : s.KeepsPort (s.countError i) := by
  cases i with
  | uin => exact keepsPort_of_claims rfl
  | din =>
    refine (keepsPort_decideRole s true).trans_claims ?_
    show (if s.dinByte.isLeader then s.dinByte else _).claims = _
    split_ifs <;> rfl

/-- Every command keeps the store port calm and the notices first (R9, R59). -/
theorem exec_keepsPort (c : Instr) (s : State) : Runs c s s.KeepsPort := by
  cases c with
  | deviceReset m => exact ⟨_, rfl, fun _ => .inl rfl, fun _ => ⟨fun _ => rfl, Nat.zero_le 1⟩⟩
  | roleDecided d => exact ⟨_, rfl, keepsPort_decideRole s d⟩
  | startUpReadDone a => exact ⟨_, rfl, keepsPort_startUpDone s a⟩
  | startUpDecision => exact ⟨_, rfl, keepsPort_decideStartUp s⟩
  | showTimeTick => exact ⟨_, rfl, keepsPort_of_claims (by unfold tick; dsimp only; split_ifs <;> rfl)⟩
  | frameReceived p kind tag body =>
    refine ⟨_, rfl, keepsPort_of_claims ?_⟩
    split_ifs
    · exact claims_receive s p kind tag body
    · simp
  | portFrameError p => exact ⟨_, rfl, keepsPort_of_claims (by simp)⟩
  | portFrameGap p l => exact ⟨_, rfl, keepsPort_of_claims (by simp)⟩
  | frameSent p => exact ⟨_, rfl, keepsPort_of_claims (claims_finishSending s p)⟩
  | consoleSilent => exact ⟨_, rfl, keepsPort_of_claims (claims_goSilent s)⟩
  | ping p => exact ⟨_, rfl, keepsPort_takeRequest fun _ _ _ => claims_answer _ _ _ _⟩
  | status p => exact ⟨_, rfl, keepsPort_takeRequest claims_statusWork⟩
  | levelsRead p => exact ⟨_, rfl, keepsPort_takeRequest claims_levelsReadWork⟩
  | circuitRead p => exact ⟨_, rfl, keepsPort_takeRequest fun _ _ _ => claims_answer _ _ _ _⟩
  | playbackRead p => exact ⟨_, rfl, keepsPort_takeRequest fun _ _ _ => claims_answer _ _ _ _⟩
  | rackRead p => exact ⟨_, rfl, keepsPort_takeRequest fun _ _ _ => claims_answer _ _ _ _⟩
  | stageRead p => exact ⟨_, rfl, keepsPort_takeRequest fun _ _ _ => claims_answer _ _ _ _⟩
  | cueRead p => exact ⟨_, rfl, keepsPort_takeStoreRequest order_cueReadWork⟩
  | listRead p => exact ⟨_, rfl, keepsPort_takeRequest claims_listReadWork⟩
  | bankInfo p => exact ⟨_, rfl, keepsPort_takeRequest fun _ _ _ => claims_answer _ _ _ _⟩
  | patchRead p => exact ⟨_, rfl, keepsPort_takeStoreRequest order_patchReadWork⟩
  | faultsRead p => exact ⟨_, rfl, keepsPort_takeRequest fun _ _ _ => claims_answer _ _ _ _⟩
  | faultRecordRead p => exact ⟨_, rfl, keepsPort_takeRequest fun _ _ _ => claims_answer _ _ _ _⟩
  | houseRead p => exact ⟨_, rfl, keepsPort_takeRequest fun _ _ _ => claims_answer _ _ _ _⟩
  | slotRead p => exact ⟨_, rfl, keepsPort_takeRequest claims_slotReadWork⟩
  | cueOpen p => exact ⟨_, rfl, keepsPort_takeRequest claims_cueOpenWork⟩
  | cueAdd p => exact ⟨_, rfl, keepsPort_takeRequest claims_cueAddWork⟩
  | cueClose p => exact ⟨_, rfl, keepsPort_takeStoreRequest order_cueCloseWork⟩
  | cueAbandon p => exact ⟨_, rfl, keepsPort_takeRequest claims_cueAbandonWork⟩
  | cueDelete p => exact ⟨_, rfl, keepsPort_takeStoreRequest order_cueDeleteWork⟩
  | patchSet p => exact ⟨_, rfl, keepsPort_takeStoreRequest fun _ _ _ => order_acceptBankWrite _ _ _ _⟩
  | windowSet p => exact ⟨_, rfl, keepsPort_takeStoreRequest order_windowSetWork⟩
  | bankTitle p => exact ⟨_, rfl, keepsPort_takeStoreRequest fun _ _ _ => order_acceptBankWrite _ _ _ _⟩
  | record p => exact ⟨_, rfl, keepsPort_takeStoreRequest order_recordWork⟩
  | go p => exact ⟨_, rfl, keepsPort_takeStoreRequest fun _ _ _ => order_goCommand _ _ _ _ _⟩
  | back p => exact ⟨_, rfl, keepsPort_takeStoreRequest order_backWork⟩
  | hold p => exact ⟨_, rfl, keepsPort_takeRequest claims_holdWork⟩
  | resume p => exact ⟨_, rfl, keepsPort_takeRequest claims_resumeWork⟩
  | jump p => exact ⟨_, rfl, keepsPort_takeStoreRequest order_jumpWork⟩
  | release p => exact ⟨_, rfl, keepsPort_takeStoreRequest fun _ _ _ => order_releaseCommand _ _ _ _ _⟩
  | master p => exact ⟨_, rfl, keepsPort_takeRequest claims_masterWork⟩
  | park p => exact ⟨_, rfl, keepsPort_takeRequest claims_parkWork⟩
  | unpark p => exact ⟨_, rfl, keepsPort_takeRequest claims_unparkWork⟩
  | faultClear p => exact ⟨_, rfl, keepsPort_takeRequest claims_faultClearWork⟩
  | faultAck p => exact ⟨_, rfl, keepsPort_takeRequest fun _ _ _ => claims_answer _ _ _ _⟩
  | changeover p => exact ⟨_, rfl, keepsPort_takeStoreRequest order_changeoverWork⟩
  | changeoverCancel p => exact ⟨_, rfl, keepsPort_changeoverCancel s p⟩
  | bankErase p => exact ⟨_, rfl, keepsPort_takeStoreRequest order_bankEraseWork⟩
  | houseSet p => exact ⟨_, rfl, keepsPort_takeStoreRequest fun _ _ _ => order_acceptWrite _ _ _ _ _⟩
  | curveSet p => exact ⟨_, rfl, keepsPort_takeStoreRequest fun _ _ _ => order_acceptWrite _ _ _ _ _⟩
  | houseCircuitsSet p => exact ⟨_, rfl, keepsPort_takeStoreRequest fun _ _ _ => order_acceptWrite _ _ _ _ _⟩
  | safeLookSet p => exact ⟨_, rfl, keepsPort_takeStoreRequest fun _ _ _ => order_acceptWrite _ _ _ _ _⟩
  | lineSet p => exact ⟨_, rfl, keepsPort_takeStoreRequest fun _ _ _ => order_acceptWrite _ _ _ _ _⟩
  | inputSet p => exact ⟨_, rfl, keepsPort_takeStoreRequest fun _ _ _ => order_acceptWrite _ _ _ _ _⟩
  | houseFade p => exact ⟨_, rfl, keepsPort_takeRequest fun _ _ _ => (claims_answer _ _ _ _).trans rfl⟩
  | blackout p => exact ⟨_, rfl, keepsPort_takeRequest fun _ _ _ => (claims_answer _ _ _ _).trans rfl⟩
  | lineHold p => exact ⟨_, rfl, keepsPort_takeRequest claims_lineHoldWork⟩
  | accessSet p => exact ⟨_, rfl, keepsPort_takeRequest fun _ _ _ => (claims_answer _ _ _ _).trans rfl⟩
  | lossClear p => exact ⟨_, rfl, keepsPort_takeRequest fun _ _ _ => (claims_answer _ _ _ _).trans rfl⟩
  | restart p => exact ⟨_, rfl, keepsPort_takeStoreRequest order_restartWork⟩
  | unknownKindRequest p => exact ⟨_, rfl, keepsPort_of_claims (claims_takeUnknown s p)⟩
  | fetchDone a => exact ⟨_, rfl, keepsPort_fetchDone s a⟩
  | loadStepDone a => exact ⟨_, rfl, keepsPort_loadDone s a⟩
  | hostReadDone a => exact ⟨_, rfl, keepsPort_hostReadDone s a⟩
  | writeStepDone a => exact ⟨_, rfl, keepsPort_writeDone s a⟩
  | storeTimeout => exact ⟨_, rfl, keepsPort_timeout s⟩
  | patchNotice =>
    refine ⟨_, rfl, keepsPort_of_claims ?_⟩
    unfold takePatchNotice applyPatchNotice
    split
    · rfl
    · dsimp only; split <;> rfl
  | listNotice => exact ⟨_, rfl, keepsPort_takeListNotice s⟩
  | fadeStep => exact ⟨_, rfl, keepsPort_of_claims ((claims_pump _).trans (claims_fadeStep s))⟩
  | followTimerCount => exact ⟨_, rfl, keepsPort_of_claims (by unfold countFollows; split_ifs <;> rfl)⟩
  | followExpiry n =>
    show Runs _ s _
    cases h : idx4 n with
    | none => exact ⟨s, by simp [exec, execFollowExpiry, h], keepsPort_refl s⟩
    | some p => exact ⟨_, by simp only [exec, execFollowExpiry, h], keepsPort_expireFollow s p⟩
  | houseFadeStep => exact ⟨_, rfl, keepsPort_of_claims rfl⟩
  | darkCheck => exact ⟨_, rfl, keepsPort_darkExpiry s⟩
  | blendStep => exact ⟨_, rfl, keepsPort_of_claims (by split_ifs <;> rfl)⟩
  | followerBlendStep => exact ⟨_, rfl, keepsPort_of_claims (by split_ifs <;> rfl)⟩
  | lineClockExpiry n =>
    cases h : line? n with
    | none => exact ⟨s, by simp [exec, execLineClockExpiry, h], keepsPort_refl s⟩
    | some l => exact ⟨_, by simp only [exec, execLineClockExpiry, h], keepsPort_of_claims (claims_lineExpiry s l)⟩
  | returnFrame n clean b =>
    cases h : line? n with
    | none => exact ⟨s, by simp [exec, execReturnFrame, h], keepsPort_refl s⟩
    | some l => exact ⟨_, by simp only [exec, execReturnFrame, h], keepsPort_of_claims (claims_takeReturn s l clean b)⟩
  | contactChange n closed =>
    cases h : idx4 n with
    | none => exact ⟨s, by simp [exec, execContactChange, h], keepsPort_refl s⟩
    | some i =>
      refine ⟨s.changeContact i closed, by simp only [exec, execContactChange, h], keepsPort_of_claims ?_⟩
      unfold changeContact; dsimp only; split_ifs <;> rfl
  | debounceExpiry n =>
    cases h : idx4 n with
    | none => exact ⟨s, by simp [exec, execDebounceExpiry, h], keepsPort_refl s⟩
    | some i => exact ⟨_, by simp only [exec, execDebounceExpiry, h], keepsPort_debounce s i⟩
  | cascadeFrameExpiry => exact ⟨_, rfl, keepsPort_of_claims (claims_cascadeExpiry s)⟩
  | stageFrame f =>
    refine ⟨_, rfl, ?_⟩
    split_ifs
    · exact keepsPort_stageFrameIn s f
    · exact keepsPort_countError s .din
  | setupFrame f =>
    refine ⟨_, rfl, ?_⟩
    split_ifs
    · exact keepsPort_setupFrameIn s f
    · exact keepsPort_countError s .din
  | cascadeFrameError i => exact ⟨_, rfl, keepsPort_countError s i⟩
  | cascadeByteGap i => exact ⟨_, rfl, keepsPort_countError s i⟩
  | leaderLost => exact ⟨_, rfl, keepsPort_of_claims (by unfold loseLeader; split <;> rfl)⟩
  | upFrameSend => exact ⟨_, rfl, keepsPort_of_claims (by unfold sendUp; split <;> rfl)⟩
  | upFrame f =>
    refine ⟨_, rfl, ?_⟩
    split_ifs
    · exact keepsPort_of_claims (claims_upFrameIn s f)
    · exact keepsPort_countError s .uin
  | stageLost n =>
    cases h : stage? n with
    | none => exact ⟨s, by simp [exec, execStageLost, h], keepsPort_refl s⟩
    | some k => exact ⟨_, by simp only [exec, execStageLost, h], keepsPort_of_claims (claims_loseStage s k)⟩
  | orphanWatchExpiry => exact ⟨_, rfl, keepsPort_of_claims rfl⟩
  | engineFault n => exact ⟨_, rfl, keepsPort_of_claims (claims_takeRaised s n)⟩
  | syncAfterBytesPassedOver p => exact ⟨_, rfl, keepsPort_of_claims (by simp)⟩

end Sys2Proof.Machine.State

namespace Sys2Proof.Machine

/-- Settles O57: each half is an invariant of the step, and `exec_keepsPort` carries both over every command. -/
theorem storePortIsNeverIdle : Obligations.StorePortIsNeverIdle := by
  intro s t
  constructor
  · exact step_keeps (P := State.Calm) (fun s rest h => (State.calm_of_claims (s := s) rfl).mpr h)
      fun c s => (State.exec_keepsPort c s).imp fun _ h => ⟨h.1, h.2.1⟩
  · exact step_keeps (P := State.NoticeGoesFirst) (fun s rest h => (State.noticeGoesFirst_of_order (s := s) rfl).mpr h)
      fun c s => (State.exec_keepsPort c s).imp fun _ h => ⟨h.1, h.2.2⟩

end Sys2Proof.Machine

/-! The sizes of the queues and tables: what bears on them, and how the slot table and the back stacks keep theirs. -/

namespace Sys2Proof.Machine

/-! ### The slot table -/

/-- A table of fade slots within its sizes: 48 slots of distinct numbers from 1 to 48, and 16,384 moves (R88, R89). -/
def SlotsFit (l : List Slot) : Prop :=
  l.length ≤ 48 ∧ (l.map (fun x => x.number)).Nodup ∧ (∀ x ∈ l, 1 ≤ x.number ∧ x.number ≤ 48) ∧ poolUse l ≤ 16384

theorem poolUse_sublist {l m : List Slot} (h : l.Sublist m) : poolUse l ≤ poolUse m :=
  (h.map _).sum_le_sum (fun _ _ => Nat.zero_le _)

theorem SlotsFit.sublist {l m : List Slot} (hm : SlotsFit m) (h : l.Sublist m) : SlotsFit l := by
  obtain ⟨hl, hn, hr, hp⟩ := hm
  exact ⟨h.length_le.trans hl, hn.sublist (h.map _), fun x hx => hr x (h.subset hx), (poolUse_sublist h).trans hp⟩

/-- A change of slots that keeps each number and adds no move keeps the sizes of the table. -/
theorem SlotsFit.map {l : List Slot} (h : SlotsFit l) (f : Slot → Slot) (hf : ∀ x ∈ l, (f x).number = x.number)
    (hm : ∀ x ∈ l, (f x).moves.length ≤ x.moves.length) : SlotsFit (l.map f) := by
  obtain ⟨hl, hn, hr, hp⟩ := h
  have numbers : (l.map f).map (fun x => x.number) = l.map (fun x => x.number) := by
    rw [List.map_map]; exact List.map_congr_left hf
  refine ⟨by simpa using hl, numbers ▸ hn, ?_, le_trans ?_ hp⟩
  · intro y hy
    obtain ⟨x, hx, rfl⟩ := List.mem_map.mp hy
    rw [hf x hx]; exact hr x hx
  · unfold poolUse
    rw [List.map_map]
    exact List.sum_le_sum hm

theorem loses_length_le (x : Slot) (p : PbId) (ms : List Move) : (x.loses p ms).moves.length ≤ x.moves.length := by
  unfold Slot.loses
  split_ifs
  · exact List.length_filter_le _ _
  · exact Nat.le_refl _

theorem loses_number (x : Slot) (p : PbId) (ms : List Move) : (x.loses p ms).number = x.number := by
  unfold Slot.loses; split_ifs <;> rfl

/-- A takeover only removes moves and slots (R90). -/
theorem SlotsFit.takeover {l : List Slot} (h : SlotsFit l) (p : PbId) (ms : List Move) : SlotsFit (takeover p ms l) :=
  (h.sublist List.filter_sublist).map _ (fun x _ => loses_number x p ms) (fun x _ => loses_length_le x p ms)

theorem SlotsFit.withoutSlotsOf {l : List Slot} (h : SlotsFit l) (p : PbId) : SlotsFit (withoutSlotsOf p l) :=
  h.sublist List.filter_sublist

/-- A slot under the lowest free number joins a table that has room for it and its moves (R68, R89). -/
theorem SlotsFit.insertSlot {l : List Slot} (h : SlotsFit l) {x : Slot} (hx : x.number = freeSlot l) (hroom : l.length < 48)
    (hpool : poolUse l + x.moves.length ≤ 16384) : SlotsFit (insertSlot x l) := by
  obtain ⟨-, hn, hr, -⟩ := h
  obtain ⟨h1, h48, hfree⟩ := freeSlot_spec l (exists_free l hroom)
  refine ⟨by rw [length_insertSlot]; omega, ?_, ?_, by rw [poolUse_insertSlot]; omega⟩
  · rw [((insertSlot_perm x l).map _).nodup_iff]
    refine List.nodup_cons.mpr ⟨?_, hn⟩
    intro hm
    have hm : freeSlot l ∈ l.map (fun x => x.number) := hx ▸ hm
    obtain ⟨y, hy, he⟩ := List.mem_map.mp hm
    exact hfree y hy he
  · intro y hy
    rcases (mem_insertSlot x y l).mp hy with rfl | hy
    · rw [hx]; exact ⟨h1, h48⟩
    · exact hr y hy

/-- Where the capacity tests of R68 pass, the takeover leaves room for the new slot and its moves. -/
theorem room_of_slotRefusal {p : PbId} {ms : List Move} {l : List Slot} (hl : l.length ≤ 48)
    (h : slotRefusal p ms l = none) :
    (takeover p ms l).length < 48 ∧ poolUse (takeover p ms l) + ms.length ≤ 16384 := by
  unfold slotRefusal capacityRefusal at h
  split_ifs at h with hfull hpool
  refine ⟨?_, Nat.not_lt.mp hpool⟩
  have hle : (takeover p ms l).length = (l.filter (fun sl => !sl.freedBy p ms)).length := by simp [takeover]
  rcases Nat.lt_or_ge l.length 48 with hlt | hge
  · rw [hle]; exact (List.length_filter_le _ _).trans_lt hlt
  · have some_freed : ∃ x ∈ l, x.freedBy p ms = true := by
      by_contra hc
      push Not at hc
      exact hfull ⟨hge, by simpa using hc⟩
    obtain ⟨x, hx, hf⟩ := some_freed
    have := List.length_filter_lt_length_iff_exists (p := fun sl : Slot => !sl.freedBy p ms) (l := l)
    rw [hle]
    exact (this.mpr ⟨x, hx, by simp [hf]⟩).trans_le hl

/-- Where the capacity tests of a RELEASE pass, its playback's slots freed leave room for the new one (R68, R76). -/
theorem room_of_releaseRefusal {p : PbId} {ms : List Move} {l : List Slot} (hl : l.length ≤ 48)
    (h : releaseRefusal p ms l = none) :
    (withoutSlotsOf p l).length < 48 ∧ poolUse (withoutSlotsOf p l) + ms.length ≤ 16384 := by
  unfold releaseRefusal capacityRefusal at h
  split_ifs at h with hfull hpool
  refine ⟨?_, Nat.not_lt.mp hpool⟩
  unfold withoutSlotsOf
  rcases Nat.lt_or_ge l.length 48 with hlt | hge
  · exact (List.length_filter_le _ _).trans_lt hlt
  · have some_own : ∃ x ∈ l, x.playback = p := by
      by_contra hc
      push Not at hc
      exact hfull ⟨hge, by simpa using hc⟩
    obtain ⟨x, hx, hp⟩ := some_own
    exact (List.length_filter_lt_length_iff_exists.mpr ⟨x, hx, by simp [hp]⟩).trans_le hl

/-- The slots of a playback paused or unpaused (R98). -/
def pausedSlots (p : PbId) (paused : Bool) (l : List Slot) : List Slot :=
  l.map (fun sl => if sl.playback = p then { sl with paused := paused } else sl)

theorem SlotsFit.pausedSlots {l : List Slot} (h : SlotsFit l) (p : PbId) (b : Bool) : SlotsFit (pausedSlots p b l) :=
  h.map _ (fun x _ => by split_ifs <;> rfl) (fun x _ => by split_ifs <;> exact Nat.le_refl _)

/-- A pause does not bear on what a takeover leaves. -/
theorem takeover_pausedSlots (p q : PbId) (b : Bool) (ms : List Move) (l : List Slot) :
    takeover p ms (pausedSlots q b l) = pausedSlots q b (takeover p ms l) := by
  have freed (x : Slot) : (if x.playback = q then { x with paused := b } else x).freedBy p ms = x.freedBy p ms := by
    unfold Slot.freedBy Slot.loses
    split_ifs <;> simp_all
  have lost (x : Slot) : (if x.playback = q then { x with paused := b } else x).loses p ms
      = if (x.loses p ms).playback = q then { x.loses p ms with paused := b } else x.loses p ms := by
    unfold Slot.loses
    split_ifs <;> simp_all
  unfold takeover pausedSlots
  rw [List.filter_map, List.map_map, List.map_map]
  have hfilter : ((fun sl : Slot => !sl.freedBy p ms) ∘ fun x => if x.playback = q then { x with paused := b } else x)
      = fun sl => !sl.freedBy p ms := funext fun x => by simp only [Function.comp, freed]
  rw [hfilter]
  exact List.map_congr_left fun x _ => lost x

theorem withoutSlotsOf_pausedSlots (p : PbId) (b : Bool) (l : List Slot) :
    withoutSlotsOf p (pausedSlots p b l) = withoutSlotsOf p l := by
  unfold withoutSlotsOf pausedSlots
  induction l with
  | nil => rfl
  | cons x l ih =>
    rw [List.map_cons, List.filter_cons, List.filter_cons, ih]
    by_cases h : x.playback = p <;> simp [h]

theorem pausedSlots_length (p : PbId) (b : Bool) (l : List Slot) : (pausedSlots p b l).length = l.length :=
  List.length_map _

theorem pausedSlots_poolUse (p : PbId) (b : Bool) (l : List Slot) : poolUse (pausedSlots p b l) = poolUse l := by
  unfold poolUse pausedSlots
  rw [List.map_map]
  refine congrArg List.sum (List.map_congr_left fun x _ => ?_)
  simp only [Function.comp]
  split_ifs <;> rfl

/-! ### The back stacks -/

/-- Dropping the oldest entries trades them for room, and only shortens the stack (R69). -/
theorem makeRoom_spec (need room : Nat) (l : List BackEntry) :
    (makeRoom need room l).1 + stackUse (makeRoom need room l).2 = room + stackUse l
      ∧ (makeRoom need room l).2.length ≤ l.length := by
  induction l generalizing room with
  | nil => exact ⟨rfl, Nat.le_refl _⟩
  | cons e rest ih =>
    unfold makeRoom
    split_ifs
    · exact ⟨rfl, Nat.le_refl _⟩
    · obtain ⟨hu, hl⟩ := ih (room + e.levels.length)
      refine ⟨hu.trans ?_, hl.trans (Nat.le_succ _)⟩
      simp [stackUse]; omega

theorem stackUse_reverse (l : List BackEntry) : stackUse l.reverse = stackUse l := by
  unfold stackUse
  rw [List.map_reverse, List.sum_reverse]

theorem stackUse_dropLast_le (l : List BackEntry) : stackUse l.dropLast ≤ stackUse l :=
  ((List.dropLast_sublist l).map _).sum_le_sum (fun _ _ => Nat.zero_le _)

/-- A push leaves at most 4 entries, and the prior levels of all stacks within the back pool (R69). -/
theorem pushBack_fits (stack : List BackEntry) (others : Nat) (e : BackEntry) (hs : stack.length ≤ 4)
    (hu : others + stackUse stack ≤ 8192) :
    (pushBack stack others e).1.length ≤ 4 ∧ others + stackUse (pushBack stack others e).1 ≤ 8192 := by
  unfold pushBack
  dsimp only
  generalize hst : (if Config.backStack ≤ stack.length then stack.dropLast else stack) = st
  have hst : st.length ≤ 3 ∧ stackUse st ≤ stackUse stack := by
    subst hst
    unfold Config.backStack
    split_ifs with h
    · exact ⟨by rw [List.length_dropLast]; omega, stackUse_dropLast_le _⟩
    · exact ⟨by omega, Nat.le_refl _⟩
  generalize hfree : Config.backPool - (others + stackUse st) = free
  rw [show Config.backPool = 8192 from rfl] at hfree
  obtain ⟨hroom, hlen⟩ := makeRoom_spec e.levels.length free st.reverse
  rw [stackUse_reverse] at hroom
  rw [List.length_reverse] at hlen
  have huse (kept : List BackEntry) : stackUse (e :: kept.reverse) = e.levels.length + stackUse kept := by
    rw [← stackUse_reverse kept]; simp [stackUse]
  split_ifs with hneed
  · refine ⟨by simp; omega, ?_⟩
    rw [huse]; omega
  · exact ⟨Nat.zero_le _, by simp [stackUse]; omega⟩

end Sys2Proof.Machine

namespace Sys2Proof.Machine.State

/-! ### What the bounds depend on -/

/-- Everything the bounds speak of: two states that agree here are both within their sizes or neither is. -/
def sizes (s : State) : List Request × List Request × List Report × Nat × List Park × Nat × Nat × List (Nat × Nat)
    × (PbId → List BackEntry) × (Fin 6 → Nat) × Nat :=
  (s.con.requests, s.aux.requests, s.link.reports, s.ctl.queue.length, s.merge.parks, s.outp.faults.length,
    s.cas.events.length, s.slots.map (fun x => (x.number, x.moves.length)), (fun p => (s.pb p).back),
    (fun l => (s.line l).seq), s.sup.showTime)

/-- The prior levels of the four back stacks, one stack after another. -/
theorem backUse_eq (s : State) : s.backUse =
    stackUse (s.pb 0).back + (stackUse (s.pb 1).back + (stackUse (s.pb 2).back + stackUse (s.pb 3).back)) := rfl

/-- The table's sizes depend on the numbers of its slots and on how many moves each holds. -/
theorem slotsFit_congr {l m : List Slot}
    (h : l.map (fun x => (x.number, x.moves.length)) = m.map (fun x => (x.number, x.moves.length))) :
    SlotsFit l ↔ SlotsFit m := by
  have hlen : l.length = m.length := by simpa using congrArg List.length h
  have hnum : l.map (fun x => x.number) = m.map (fun x => x.number) := by
    simpa [List.map_map, Function.comp_def] using congrArg (List.map (fun e : Nat × Nat => e.1)) h
  have huse : poolUse l = poolUse m := by
    simpa [poolUse, List.map_map, Function.comp_def] using congrArg (fun x => (x.map (fun e : Nat × Nat => e.2)).sum) h
  have hrange (k : List Slot) : (∀ x ∈ k, 1 ≤ x.number ∧ x.number ≤ 48) ↔
      ∀ n ∈ k.map (fun x => x.number), 1 ≤ n ∧ n ≤ 48 := by simp
  unfold SlotsFit
  rw [hlen, hnum, huse, hrange l, hrange m, hnum]

/-- The bounds, the slot table's gathered into one. -/
theorem bounded_iff (s : State) : s.Bounded ↔ s.con.requests.length ≤ 8 ∧ s.aux.requests.length ≤ 8
    ∧ s.link.reports.length ≤ 16 ∧ s.ctl.queue.length ≤ 8
    ∧ (s.merge.parks.length ≤ 64 ∧ (s.merge.parks.map (fun x => x.channel)).Nodup)
    ∧ s.outp.faults.length ≤ 64 ∧ s.cas.events.length ≤ 16 ∧ SlotsFit s.slots
    ∧ ((∀ p, (s.pb p).back.length ≤ 4) ∧ s.backUse ≤ 8192) ∧ (∀ l, (s.line l).seq ≤ 255) ∧ s.sup.showTime < 4294967296 := by
  unfold Bounded SlotsFit
  constructor
  · rintro ⟨h1, h2, h3, h4, h5, h6, h7, h8, h9, h10, h11, h12, h13, h14, h15, h16⟩
    exact ⟨h1, h2, h3, h4, ⟨h5, h6⟩, h7, h8, ⟨h9, h10, h11, h12⟩, ⟨h13, h14⟩, h15, h16⟩
  · rintro ⟨h1, h2, h3, h4, ⟨h5, h6⟩, h7, h8, ⟨h9, h10, h11, h12⟩, ⟨h13, h14⟩, h15, h16⟩
    exact ⟨h1, h2, h3, h4, h5, h6, h7, h8, h9, h10, h11, h12, h13, h14, h15, h16⟩

theorem bounded_congr {s t : State} (h : t.sizes = s.sizes) : t.Bounded ↔ s.Bounded := by
  simp only [sizes, Prod.mk.injEq] at h
  obtain ⟨h1, h2, h3, h4, h5, h6, h7, h8, h9, h10, h11⟩ := h
  have h9 (p : PbId) : (t.pb p).back = (s.pb p).back := congrFun h9 p
  have h10 (l : Fin 6) : (t.line l).seq = (s.line l).seq := congrFun h10 l
  rw [bounded_iff, bounded_iff, h1, h2, h3, h4, h5, h6, h7, slotsFit_congr h8, h11]
  simp only [h9, h10, backUse_eq]

theorem Bounded.of_sizes {s t : State} (hs : s.Bounded) (h : t.sizes = s.sizes) : t.Bounded := (bounded_congr h).mpr hs

/-! ### One rule for each of the queues and tables -/

theorem Bounded.setPort {s : State} (hs : s.Bounded) (p : PortId) {x : Port} (hx : x.requests.length ≤ 8) :
    (s.setPort p x).Bounded := by
  rw [bounded_iff] at hs ⊢
  obtain ⟨h1, h2, h⟩ := hs
  cases p
  · exact ⟨hx, h2, h⟩
  · exact ⟨h1, hx, h⟩

theorem Bounded.port {s : State} (hs : s.Bounded) (p : PortId) : (s.port p).requests.length ≤ 8 := by
  cases p
  · exact hs.1
  · exact hs.2.1

/-- A port changed in anything but its request queue. -/
theorem Bounded.setPort_same {s : State} (hs : s.Bounded) (p : PortId) {x : Port} (hx : x.requests = (s.port p).requests) :
    (s.setPort p x).Bounded := hs.setPort p (hx ▸ hs.port p)

theorem Bounded.reports {s : State} (hs : s.Bounded) : s.link.reports.length ≤ 16 := hs.2.2.1

theorem Bounded.queue {s : State} (hs : s.Bounded) : s.ctl.queue.length ≤ 8 := hs.2.2.2.1

theorem Bounded.slots {s : State} (hs : s.Bounded) : SlotsFit s.slots := ((bounded_iff s).mp hs).2.2.2.2.2.2.2.1

theorem Bounded.backs {s : State} (hs : s.Bounded) : (∀ p, (s.pb p).back.length ≤ 4) ∧ s.backUse ≤ 8192 :=
  ((bounded_iff s).mp hs).2.2.2.2.2.2.2.2.1

theorem Bounded.parks {s : State} (hs : s.Bounded) :
    s.merge.parks.length ≤ 64 ∧ (s.merge.parks.map (fun x => x.channel)).Nodup := ((bounded_iff s).mp hs).2.2.2.2.1

theorem Bounded.faults {s : State} (hs : s.Bounded) : s.outp.faults.length ≤ 64 := ((bounded_iff s).mp hs).2.2.2.2.2.1

theorem Bounded.seqs {s : State} (hs : s.Bounded) (l : Fin 6) : (s.line l).seq ≤ 255 :=
  ((bounded_iff s).mp hs).2.2.2.2.2.2.2.2.2.1 l

theorem Bounded.setLink {s : State} (hs : s.Bounded) {x : ConsoleLink} (hx : x.reports.length ≤ 16) :
    ({ s with link := x } : State).Bounded := by
  rw [bounded_iff] at hs ⊢
  obtain ⟨h1, h2, -, h⟩ := hs
  exact ⟨h1, h2, hx, h⟩

theorem Bounded.setCtl {s : State} (hs : s.Bounded) {c : StoreCtl} (hc : c.queue.length ≤ 8) :
    ({ s with ctl := c } : State).Bounded := by
  rw [bounded_iff] at hs ⊢
  obtain ⟨h1, h2, h3, -, h⟩ := hs
  exact ⟨h1, h2, h3, hc, h⟩

theorem Bounded.setMerge {s : State} (hs : s.Bounded) {m : MergeUnit} (hl : m.parks.length ≤ 64)
    (hn : (m.parks.map (fun x => x.channel)).Nodup) : ({ s with merge := m } : State).Bounded := by
  rw [bounded_iff] at hs ⊢
  obtain ⟨h1, h2, h3, h4, -, h⟩ := hs
  exact ⟨h1, h2, h3, h4, ⟨hl, hn⟩, h⟩

theorem Bounded.setOutp {s : State} (hs : s.Bounded) {o : OutputStage} (hf : o.faults.length ≤ 64)
    (hq : ∀ l, (o.lines.get l).seq ≤ 255) : ({ s with outp := o } : State).Bounded := by
  rw [bounded_iff] at hs ⊢
  obtain ⟨h1, h2, h3, h4, h5, -, h7, h8, h9, -, h11⟩ := hs
  exact ⟨h1, h2, h3, h4, h5, hf, h7, h8, h9, hq, h11⟩

theorem Bounded.setCas {s : State} (hs : s.Bounded) {c : Cascade} (hc : c.events.length ≤ 16) :
    ({ s with cas := c } : State).Bounded := by
  rw [bounded_iff] at hs ⊢
  obtain ⟨h1, h2, h3, h4, h5, h6, -, h⟩ := hs
  exact ⟨h1, h2, h3, h4, h5, h6, hc, h⟩

theorem Bounded.setSlots {s : State} (hs : s.Bounded) {l : List Slot} (hl : SlotsFit l) :
    ({ s with slots := l } : State).Bounded := by
  rw [bounded_iff] at hs ⊢
  obtain ⟨h1, h2, h3, h4, h5, h6, h7, -, h⟩ := hs
  exact ⟨h1, h2, h3, h4, h5, h6, h7, hl, h⟩

theorem Bounded.setSup {s : State} (hs : s.Bounded) {x : Supervisor} (hx : x.showTime < 4294967296) :
    ({ s with sup := x } : State).Bounded := by
  rw [bounded_iff] at hs ⊢
  obtain ⟨h1, h2, h3, h4, h5, h6, h7, h8, h9, h10, -⟩ := hs
  exact ⟨h1, h2, h3, h4, h5, h6, h7, h8, h9, h10, hx⟩

theorem Bounded.setEng {s : State} (hs : s.Bounded) {e : Engine}
    (hb : (∀ p, (e.pb.get p).back.length ≤ 4) ∧ ({ s with eng := e } : State).backUse ≤ 8192) :
    ({ s with eng := e } : State).Bounded := by
  rw [bounded_iff] at hs ⊢
  obtain ⟨h1, h2, h3, h4, h5, h6, h7, h8, -, h⟩ := hs
  exact ⟨h1, h2, h3, h4, h5, h6, h7, h8, hb, h⟩

/-- A back stack exchanged for another exchanges its prior levels in the back pool (R69). -/
theorem backUse_setPb (s : State) (p : PbId) (x : Playback) :
    (s.setPb p x).backUse + stackUse (s.pb p).back = s.backUse + stackUse x.back := by
  have h0 (a b c d e : Nat) : a + (b + (c + d)) + e = e + (b + (c + d)) + a := by omega
  fin_cases p <;> simp only [backUse_eq, pb, State.setPb, Four.get, Four.set] <;> omega

theorem stackUse_le_backUse (s : State) (p : PbId) : stackUse (s.pb p).back ≤ s.backUse := by
  rw [backUse_eq]
  fin_cases p <;> simp <;> omega

theorem Bounded.setPb {s : State} (hs : s.Bounded) (p : PbId) {x : Playback} (hl : x.back.length ≤ 4)
    (hu : s.backUse - stackUse (s.pb p).back + stackUse x.back ≤ 8192) : (s.setPb p x).Bounded := by
  refine hs.setEng ⟨fun q => ?_, ?_⟩
  · by_cases h : q = p
    · subst h; simpa using hl
    · rw [Four.get_set_other _ _ _ _ h]; exact hs.backs.1 q
  · have h1 := backUse_setPb s p x
    have h2 := stackUse_le_backUse s p
    change (s.setPb p x).backUse ≤ 8192
    omega

/-- A playback changed in anything but its back stack. -/
theorem Bounded.setPb_same {s : State} (hs : s.Bounded) (p : PbId) {x : Playback} (hx : x.back = (s.pb p).back) :
    (s.setPb p x).Bounded := by
  refine hs.setPb p (hx ▸ hs.backs.1 p) ?_
  have h1 := hs.backs.2
  have h2 := stackUse_le_backUse s p
  rw [hx]; omega

/-- A playback whose back stack is shortened or emptied. -/
theorem Bounded.setPb_sublist {s : State} (hs : s.Bounded) (p : PbId) {x : Playback}
    (hx : x.back.Sublist (s.pb p).back) : (s.setPb p x).Bounded := by
  have hle : stackUse x.back ≤ stackUse (s.pb p).back := (hx.map _).sum_le_sum (fun _ _ => Nat.zero_le _)
  refine hs.setPb p (hx.length_le.trans (hs.backs.1 p)) ?_
  have h1 := hs.backs.2
  have h2 := stackUse_le_backUse s p
  omega

/-- A line changed in anything but its sequence. -/
theorem Bounded.setLine {s : State} (hs : s.Bounded) (l : Fin 6) {x : Line} (hx : x.seq ≤ 255) : (s.setLine l x).Bounded := by
  refine hs.setOutp hs.faults fun m => ?_
  by_cases h : m = l
  · subst h; simpa using hx
  · rw [Six.get_set_other _ _ _ _ h]; exact hs.seqs m

/-- The lines changed each in anything but its sequence. -/
theorem Bounded.mapLines {s : State} (hs : s.Bounded) {o : OutputStage} {f : Line → Line} (hf : ∀ x, (f x).seq = x.seq)
    (ho : o.faults = s.outp.faults) (hl : o.lines = s.outp.lines.map f) : ({ s with outp := o } : State).Bounded := by
  refine hs.setOutp (ho ▸ hs.faults) fun l => ?_
  rw [hl, Six.get_map, hf]
  exact hs.seqs l

/-- A run of operations that each keep the bounds keeps them. -/
theorem Bounded.foldl {α : Type} {s : State} (hs : s.Bounded) {f : State → α → State}
    (h : ∀ t a, t.Bounded → (f t a).Bounded) (l : List α) : (l.foldl f s).Bounded := by
  induction l generalizing s with
  | nil => exact hs
  | cons a l ih => exact ih (h s a hs)

/-! ### The shared operations -/

@[simp] theorem bounded_takeOff {s : State} (hs : s.Bounded) {p : PortId} {r : Request} {rest : List Request}
    (h : s.headRequest p = some (r, rest)) : (s.takeOff p rest).Bounded := by
  refine hs.setPort p (le_trans ?_ (hs.port p))
  unfold headRequest at h
  split at h
  · cases h
  · rename_i hq
    split_ifs at h
    cases h
    rw [hq]; exact Nat.le_succ _

@[simp] theorem bounded_answer {s : State} (hs : s.Bounded) (q : Requester) (st : Status) (b : List Byte) :
    (s.answer q st b).Bounded := hs.setPort_same _ rfl

@[simp] theorem bounded_report {s : State} (hs : s.Bounded) (k : Nat) (u : Bool) (b : List Byte) :
    (s.report k u b).Bounded := by
  have h := report_length s k u b hs.reports
  unfold report at h ⊢
  dsimp only at h ⊢
  split_ifs at h ⊢
  · exact hs
  · exact hs.setLink h
  · exact hs.setLink h
  · exact hs.setLink h

@[simp] theorem bounded_raise {s : State} (hs : s.Bounded) (f : EngineFault) : (s.raise f).Bounded := by
  unfold raise
  split_ifs
  · exact hs
  · exact hs.of_sizes rfl

@[simp] theorem bounded_startReply {s : State} (hs : s.Bounded) (p : PortId) : (s.startReply p).Bounded := by
  unfold startReply
  split
  · exact hs.setPort_same _ rfl
  · exact hs

@[simp] theorem bounded_pump {s : State} (hs : s.Bounded) : s.pump.Bounded := by
  have replies : s.startReplies.Bounded := by unfold startReplies; simp [hs]
  have h : s.startReplies.startReport.link.reports.length ≤ 16 := (pump_reports_le s).trans hs.reports
  unfold pump
  unfold startReport at h ⊢
  split at h
  · exact (replies.of_sizes (t := { s.startReplies with con := { s.startReplies.con with sending := _ } }) rfl).setLink h
  · exact replies

@[simp] theorem bounded_emit {s : State} (hs : s.Bounded) (o : Output) : (s.emit o).Bounded := hs.of_sizes rfl

@[simp] theorem bounded_setRam {s : State} (hs : s.Bounded) (b : Bank) (h : Header) : (s.setRam b h).Bounded := hs.of_sizes rfl

@[simp] theorem bounded_setProj {s : State} (hs : s.Bounded) (b : Bank) (h : Header) : (s.setProj b h).Bounded :=
  hs.of_sizes rfl

@[simp] theorem bounded_freePort {s : State} (hs : s.Bounded) : s.freePort.Bounded := hs.of_sizes rfl

theorem bounded_takeRequest {β : Type} {s : State} (hs : s.Bounded) {p : PortId} {code : Nat}
    {parse : List Byte → Except Status β} {work : State → Requester → β → State}
    (wk : ∀ u q v, u.Bounded → (work u q v).Bounded) : (s.takeRequest p code parse work).Bounded :=
  takeRequest_keeps hs (fun _ _ h => bounded_takeOff hs h) (fun _ q st b h => bounded_answer h q st b)
    (fun _ h => bounded_pump h) wk

/-! ### The store port and the store queue -/

@[simp] theorem bounded_endHeadWrite {s : State} (hs : s.Bounded) (st : Status) (b : List Byte) :
    (s.endHeadWrite st b).Bounded := by
  unfold endHeadWrite
  split
  · exact hs
  · rename_i w rest hq
    refine bounded_answer (hs.setCtl ?_) _ _ _
    have := hs.queue
    rw [hq] at this
    exact (Nat.le_succ _).trans this

theorem bounded_grantWrite (n : Nat) {s : State} (hs : s.Bounded) : (grantWrite n s).Bounded := by
  induction n generalizing s with
  | zero => exact hs
  | succ n ih =>
    unfold grantWrite
    split
    · exact hs
    · split
      · exact ih (bounded_endHeadWrite hs _ _)
      · exact hs.of_sizes rfl

@[simp] theorem bounded_arbitrate {s : State} (hs : s.Bounded) : s.arbitrate.Bounded := by
  unfold arbitrate
  (repeat' split) <;> first | exact hs | exact hs.of_sizes rfl | exact bounded_grantWrite _ hs

@[simp] theorem bounded_settle {s : State} (hs : s.Bounded) : s.settle.Bounded := bounded_pump (bounded_arbitrate hs)

theorem bounded_takeStoreRequest {β : Type} {s : State} (hs : s.Bounded) {p : PortId} {code : Nat}
    {parse : List Byte → Except Status β} {work : State → Requester → β → State}
    (wk : ∀ u q v, u.Bounded → (work u q v).Bounded) : (s.takeStoreRequest p code parse work).Bounded :=
  bounded_takeRequest hs fun u q v h => bounded_arbitrate (wk u q v h)

/-- A write joins the store queue where it holds fewer than 8 (R11). -/
theorem bounded_enqueue {s : State} (hs : s.Bounded) (w : WriteEntry) (h : s.queueFull = false) : (s.enqueue w).Bounded := by
  have room : s.ctl.queue.length < 8 := Nat.not_le.mp (of_decide_eq_false h)
  have joined : ({ s with ctl := { s.ctl with queue := s.ctl.queue ++ [w] } } : State).Bounded :=
    hs.setCtl (by simp; omega)
  unfold enqueue
  dsimp only
  split
  · exact bounded_setProj joined _ _
  · exact joined

@[simp] theorem bounded_acceptWrite {s : State} (hs : s.Bounded) (q : Requester) (k : WriteKind) (b : Option Bank)
    (st : Status) : (s.acceptWrite q k b st).Bounded := by
  unfold acceptWrite
  split_ifs with h
  · simp [hs]
  · exact bounded_enqueue hs _ (by simpa using h)

@[simp] theorem bounded_acceptBankWrite {s : State} (hs : s.Bounded) (q : Requester) (k : WriteKind) (b : Bank) :
    (s.acceptBankWrite q k b).Bounded := by
  unfold acceptBankWrite
  split_ifs <;> simp [hs]

@[simp] theorem bounded_setBuilder {s : State} (hs : s.Bounded) (p : PortId) (x : Option Builder) :
    (s.setBuilder p x).Bounded := hs.setPort_same p rfl

theorem bounded_cueOpenWork {s : State} (hs : s.Bounded) (q : Requester) (a : Builder) : (s.cueOpenWork q a).Bounded := by
  unfold cueOpenWork
  split_ifs <;> simp [hs]

theorem bounded_cueAddWork {s : State} (hs : s.Bounded) (q : Requester) (a : List (Nat × Nat)) : (s.cueAddWork q a).Bounded := by
  unfold cueAddWork
  split
  · simp [hs]
  · dsimp only
    split_ifs <;> simp [hs]

theorem bounded_cueAbandonWork {s : State} (hs : s.Bounded) (q : Requester) (a : Unit) : (s.cueAbandonWork q a).Bounded := by
  unfold cueAbandonWork
  split_ifs <;> simp [hs]

theorem bounded_cueCloseWork {s : State} (hs : s.Bounded) (q : Requester) (a : Unit) : (s.cueCloseWork q a).Bounded := by
  unfold cueCloseWork
  split
  · simp [hs]
  · split
    · simp [hs]
    · split
      · simp [hs]
      · split <;> simp [hs]

theorem bounded_cueDeleteWork {s : State} (hs : s.Bounded) (q : Requester) (a : (Bank × PbId) × Nat) :
    (s.cueDeleteWork q a).Bounded := by
  unfold cueDeleteWork
  split_ifs <;> simp [hs]

theorem bounded_windowSetWork {s : State} (hs : s.Bounded) (q : Requester) (a : Bank × Windows) :
    (s.windowSetWork q a).Bounded := by
  unfold windowSetWork
  split_ifs <;> simp [hs]

theorem bounded_bankEraseWork {s : State} (hs : s.Bounded) (q : Requester) (b : Bank) : (s.bankEraseWork q b).Bounded := by
  unfold bankEraseWork
  split_ifs <;> simp [hs]

theorem bounded_recordWork {s : State} (hs : s.Bounded) (q : Requester) (a : RecordArgs) : (s.recordWork q a).Bounded := by
  unfold recordWork
  split
  · simp [hs]
  · dsimp only
    split
    · simp [hs]
    · split
      · simp [hs]
      · rename_i h; exact bounded_enqueue hs _ (by simpa using h)

end Sys2Proof.Machine.State

namespace Sys2Proof.Machine.State

/-! ### Slots -/

theorem setPaused_slots (s : State) (p : PbId) (b : Bool) : (s.setPaused p b).slots = pausedSlots p b s.slots := rfl

@[simp] theorem bounded_setPaused {s : State} (hs : s.Bounded) (p : PbId) (b : Bool) : (s.setPaused p b).Bounded :=
  hs.setSlots (hs.slots.pausedSlots p b)

@[simp] theorem bounded_enterHeld {s : State} (hs : s.Bounded) (p : PbId) : (s.enterHeld p).Bounded :=
  (bounded_setPaused hs p true).setPb_same p rfl

@[simp] theorem bounded_unhold {s : State} (hs : s.Bounded) (p : PbId) : (s.unhold p).Bounded :=
  (bounded_setPaused hs p false).setPb_same p rfl

@[simp] theorem bounded_dropSlots {s : State} (hs : s.Bounded) (p : PbId) : (s.dropSlots p).Bounded :=
  hs.setSlots (hs.slots.withoutSlotsOf p)

/-- A new slot of a playback, under the lowest free number, where the takeover leaves room for it (R68, R89). -/
theorem bounded_createSlot {s : State} (hs : s.Bounded) (p : PbId) (kind : SlotKind) (cue : Option Nat) (t : SlotTimes)
    (moves : List Move) (h : (takeover p moves s.slots).length < 48
      ∧ poolUse (takeover p moves s.slots) + moves.length ≤ 16384) :
    (s.createSlot (s.newSlot p kind cue t moves)).Bounded := by
  have table : SlotsFit (insertSlot (s.newSlot p kind cue t moves) (takeover p moves s.slots)) :=
    (hs.slots.takeover p moves).insertSlot rfl h.1 h.2
  exact (hs.setSlots table).setPb_same p rfl

/-- The slots as a playback that leaves HELD leaves them: with the same room (R65). -/
theorem room_unhold {s : State} {p : PbId} {moves : List Move} (b : Prop) [Decidable b]
    (h : (takeover p moves s.slots).length < 48 ∧ poolUse (takeover p moves s.slots) + moves.length ≤ 16384) :
    (takeover p moves (if b then s.unhold p else s).slots).length < 48
      ∧ poolUse (takeover p moves (if b then s.unhold p else s).slots) + moves.length ≤ 16384 := by
  split_ifs
  · have hslots : (s.unhold p).slots = pausedSlots p false s.slots := rfl
    rw [hslots, takeover_pausedSlots, pausedSlots_length, pausedSlots_poolUse]
    exact h
  · exact h

theorem bounded_ite {b : Prop} [Decidable b] {s t : State} (hs : s.Bounded) (ht : t.Bounded) :
    (if b then s else t).Bounded := by split_ifs <;> assumption

theorem bounded_endSlot {s : State} (hs : s.Bounded) (sl : Slot) : (s.endSlot sl).Bounded := by
  have written := hs.setPb_same sl.playback (x := { s.pb sl.playback with
    look := sl.moves.foldl (fun l m => l.write m.channel m.target) (s.pb sl.playback).look }) rfl
  have freed := written.setSlots (l := s.slots.filter (fun x => x.number ≠ sl.number))
    (hs.slots.sublist List.filter_sublist)
  have told := bounded_ite (b := sl.kind = .release) freed (bounded_report freed 0xE0 false
    (b1 (num sl.playback) ++ b1 sl.kind.code ++ b2 (sl.cue.getD 0) ++ b1 sl.number ++ b4 sl.elapsed
      ++ b2 sl.moves.length))
  exact bounded_ite (told.setPb_same _ rfl) told

/-- An advanced slot keeps its number and its moves, so the table keeps its sizes (R94). -/
theorem bounded_advanceSlot {s : State} (hs : s.Bounded) (n : Nat) : (s.advanceSlot n).Bounded := by
  unfold advanceSlot
  split
  · exact hs
  · rename_i old hold
    have hnum : old.number = n := by simpa using List.find?_some hold
    have hsame : ∀ x ∈ s.slots, x.number = n → x = old := fun x hx hn =>
      List.inj_on_of_nodup_map hs.slots.2.1 hx (List.mem_of_find?_eq_some hold) (hn.trans hnum.symm)
    have table : SlotsFit
        (s.slots.map fun (x : Slot) => if x.number = n then { old with elapsed := old.elapsed + 1 } else x) := by
      refine hs.slots.map _ (fun x _ => ?_) (fun x hx => ?_)
      · split_ifs with h
        · exact hnum.trans h.symm
        · rfl
      · split_ifs with h
        · rw [hsame x hx h]
        · exact Nat.le_refl _
    have advanced := (hs.setSlots table).setPb_same old.playback (x := { s.pb old.playback with
      look := ({ old with elapsed := old.elapsed + 1 } : Slot).writeLook (old.elapsed + 1) (s.pb old.playback).look }) rfl
    exact bounded_ite hs (bounded_ite (bounded_endSlot advanced _) advanced)

theorem bounded_fadeStep {s : State} (hs : s.Bounded) : s.fadeStep.Bounded :=
  bounded_ite hs (hs.foldl (fun _ n ht => bounded_advanceSlot ht n) _)

/-! ### Standbys, fetches and GO -/

@[simp] theorem bounded_inputResult {s : State} (hs : s.Bounded) (i : Fin 4) (p : PbId) (a : InputCommand)
    (r : InputResult) (cue : Nat) : (s.inputResult i p a r cue).Bounded := by
  have kept := hs.of_sizes (t := { s with inputs := s.inputs.set i { s.inputs.get i with last := some (a, r) } }) rfl
  unfold inputResult
  dsimp only
  split
  · exact bounded_ite (bounded_report kept _ _ _) (bounded_raise (bounded_report kept _ _ _) _)
  · exact bounded_report kept _ _ _

@[simp] theorem bounded_standbyChanged {s : State} (hs : s.Bounded) (p : PbId) : (s.standbyChanged p).Bounded :=
  bounded_report hs _ _ _

@[simp] theorem bounded_dropFetch {s : State} (hs : s.Bounded) (p : PbId) : (s.dropFetch p).Bounded := by
  unfold dropFetch
  exact (hs.setCtl hs.queue).setPb_same p rfl

@[simp] theorem bounded_endAtOnce {s : State} (hs : s.Bounded) (p : PbId) (before now : Standby) :
    (s.endAtOnce p before now).Bounded := by
  have set := hs.setPb_same p (x := { s.pb p with standby := now }) rfl
  exact bounded_ite set (bounded_standbyChanged set p)

@[simp] theorem bounded_takeStandby {s : State} (hs : s.Bounded) (p : PbId) (now : Standby) :
    (s.takeStandby p now).Bounded := bounded_standbyChanged (hs.setPb_same p (by rfl)) p

@[simp] theorem bounded_startFetchCore {s : State} (hs : s.Bounded) (p : PbId) : (s.startFetchCore p).Bounded := by
  unfold startFetchCore
  dsimp only
  split
  · split
    · simp [hs]
    · split
      · simp [hs]
      · simp [hs]
      · exact ((bounded_dropFetch hs p).setCtl (bounded_dropFetch hs p).queue).setPb_same p rfl
  · simp [hs]

@[simp] theorem bounded_endGo {s : State} (hs : s.Bounded) (p : PbId) (src : GoSource) (st : Status) :
    (s.endGo p src st).Bounded := by
  unfold endGo
  split
  · simp [hs]
  · simp [hs]
  · split_ifs <;> simp [hs]

@[simp] theorem bounded_goReply {s : State} (hs : s.Bounded) (p : PbId) (src : GoSource) (o : Option Nat) (a : Bool)
    (cue slot : Nat) (kept : Bool) : (s.goReply p src o a cue slot kept).Bounded := by
  unfold goReply; split <;> simp [hs]

@[simp] theorem bounded_goAction {s : State} (hs : s.Bounded) (p : PbId) (src : GoSource) (cue : Nat) :
    (s.goAction p src cue).Bounded := by
  unfold goAction; split <;> simp [hs]

/-- A GO that is taken makes room for its back entry and, past the tests of R68, for its slot (R69, R70). -/
@[simp] theorem bounded_goTake {s : State} (hs : s.Bounded) (p : PbId) (src : GoSource) (o : Option Nat) (a : Bool) (c : Cue) :
    (s.goTake p src o a c).Bounded := by
  unfold goTake
  dsimp only
  split
  · simp [hs]
  · rename_i hroom
    have hroom := room_of_slotRefusal hs.slots.1 hroom
    have huse := stackUse_le_backUse s p
    obtain ⟨hlen, hpool⟩ := pushBack_fits (s.pb p).back (s.backUse - stackUse (s.pb p).back)
      { cue := c.number, levels := (cueMoves p (s.pb p).look s.slots c).map (fun m => (m.channel, m.start)) }
      (hs.backs.1 p) (by have := hs.backs.2; omega)
    have pushed := hs.setPb p (x := { s.pb p with
      follow := none
      back := (pushBack (s.pb p).back (s.backUse - stackUse (s.pb p).back)
        { cue := c.number, levels := (cueMoves p (s.pb p).look s.slots c).map (fun m => (m.channel, m.start)) }).1 })
      hlen hpool
    have left := bounded_ite (b := (s.pb p).state = .held) (bounded_unhold pushed p) pushed
    have made := bounded_createSlot left p .cue (some c.number) (cueTimes c o) _
      (room_unhold ((s.pb p).state = .held) hroom)
    have running := made.setPb_same p (x := { (State.createSlot _ _).pb p with
      state := .running, lastRun := some { number := c.number, link := c.link }, explicit := none,
      follow := c.follow.map (fun n => { steps := n * 10, paused := false, due := false }) }) rfl
    exact bounded_startFetchCore (bounded_goAction (bounded_report (bounded_goReply running _ _ _ _ _ _ _) _ _ _) _ _ _) _

@[simp] theorem bounded_handPending {s : State} (hs : s.Bounded) (p : PbId) : (s.handPending p).Bounded := by
  unfold handPending
  split
  · exact hs
  · have freed := hs.setPb_same p (x := { s.pb p with pendingGo := none }) rfl
    dsimp only
    split
    · exact hs
    · exact bounded_goTake freed _ _ _ _ _
    · exact bounded_endGo freed _ _ _
    · exact bounded_endGo freed _ _ _
    · exact bounded_endGo freed _ _ _

@[simp] theorem bounded_startFetch {s : State} (hs : s.Bounded) (p : PbId) : (s.startFetch p).Bounded :=
  bounded_handPending (bounded_startFetchCore hs p) p

@[simp] theorem bounded_endPending {s : State} (hs : s.Bounded) (p : PbId) (st : Status) : (s.endPending p st).Bounded := by
  unfold endPending
  split
  · exact hs
  · exact bounded_endGo (hs.setPb_same p (by rfl)) _ _ _

theorem bounded_makePending {s : State} (hs : s.Bounded) (p : PbId) (src : GoSource) (o : Option Nat) (a : Bool) :
    (s.makePending p src o a).Bounded := by
  have made := hs.setPb_same p (x := { s.pb p with
    pendingGo := some { source := src, override := o, adjusted := a } }) rfl
  unfold makePending
  dsimp only
  split
  · exact bounded_inputResult made _ _ _ _ _
  · exact made

@[simp] theorem bounded_goCommand {s : State} (hs : s.Bounded) (p : PbId) (src : GoSource) (o : Option Nat) (a : Bool) :
    (s.goCommand p src o a).Bounded := by
  unfold goCommand
  split
  · simp [hs]
  · split
    · simp [hs]
    · simp [hs]
    · simp [hs]
    · exact bounded_ite (bounded_endGo hs _ _ _) (bounded_makePending hs _ _ _ _)
    · exact bounded_ite (bounded_endGo hs _ _ _) (bounded_goTake hs _ _ _ _ _)

@[simp] theorem bounded_takeOutcome {s : State} (hs : s.Bounded) (p : PbId) (f : Fetch) (r : Option Cue) :
    (s.takeOutcome p f r).Bounded := by
  unfold takeOutcome
  split
  · exact bounded_handPending (bounded_takeStandby hs p _) p
  · exact bounded_handPending (bounded_takeStandby (bounded_raise hs _) p _) p

/-! ### BACK, HOLD, RESUME, JUMP, RELEASE and the follows -/

theorem bounded_backCommand {s t : State} (hs : s.Bounded) {p : PbId} {r : BackTaken}
    (h : s.backCommand p = .ok (t, r)) : t.Bounded := by
  unfold backCommand at h
  dsimp only at h
  split at h
  · cases h
  · rename_i top rest hback
    split at h
    · cases h
    · split at h
      · cases h
      · rename_i hroom
        cases h
        have hroom := room_of_slotRefusal hs.slots.1 hroom
        have hsub : rest.Sublist (s.pb p).back := by rw [hback]; exact List.sublist_cons_self _ _
        have popped := hs.setPb_sublist p (x := { s.pb p with back := rest, follow := none }) hsub
        have left := bounded_ite (b := (s.pb p).state = .held) (bounded_unhold popped p) popped
        have made := fun t => bounded_createSlot left p .back (some top.cue) t _
          (room_unhold ((s.pb p).state = .held) hroom)
        exact bounded_startFetch ((made _).setPb_same p (by rfl)) p

theorem bounded_holdCommand {s t : State} (hs : s.Bounded) {p : PbId} (h : s.holdCommand p = .ok t) : t.Bounded := by
  unfold holdCommand at h
  split at h
  · cases h; exact bounded_enterHeld hs p
  · split_ifs at h
    cases h; exact bounded_enterHeld hs p
  · cases h
  · cases h; exact hs

theorem bounded_resumeCommand {s t : State} (hs : s.Bounded) {p : PbId} (h : s.resumeCommand p = .ok t) : t.Bounded := by
  unfold resumeCommand at h
  split_ifs at h
  cases h
  exact (bounded_unhold hs p).setPb_same p (by rfl)

theorem bounded_releaseReply {s : State} (hs : s.Bounded) (q : Requester) (p : PbId) (slot time : Nat) (a : Bool) :
    (s.releaseReply q p slot time a).Bounded :=
  bounded_startFetch (bounded_answer (hs.setPb_same p (by rfl)) _ _ _) p

/-- The slots left once a playback's own are freed do not depend on whether it left HELD before (R65, R76). -/
theorem left_dropSlots (b : Prop) [Decidable b] (s : State) (p : PbId) :
    ((if b then s.unhold p else s).dropSlots p).slots = withoutSlotsOf p s.slots := by
  split_ifs
  · exact withoutSlotsOf_pausedSlots p false s.slots
  · rfl

/-- A RELEASE frees every slot of its playback before it makes its own (R76). -/
theorem bounded_releaseSlot {s : State} (hs : s.Bounded) (q : Requester) (p : PbId) (time : Nat) (a : Bool)
    (moves : List Move) (h : releaseRefusal p moves s.slots = none) : (s.releaseSlot q p time a moves).Bounded := by
  have hroom := room_of_releaseRefusal hs.slots.1 h
  have ended := bounded_endPending hs p .cancelled
  have cleared := ended.setPb_sublist p
    (x := { (s.endPending p .cancelled).pb p with follow := none, back := [] }) (List.nil_sublist _)
  have left := bounded_ite (b := ((s.endPending p .cancelled).pb p).state = .held) (bounded_unhold cleared p) cleared
  have dropped := bounded_dropSlots left p
  have hslots := left_dropSlots (((s.endPending p .cancelled).pb p).state = .held)
    ((s.endPending p .cancelled).setPb p { (s.endPending p .cancelled).pb p with follow := none, back := [] }) p
  rw [setPb_slots, endPending_slots] at hslots
  have made := bounded_createSlot dropped p .release none { up := time, down := time, upDelay := 0, downDelay := 0 } moves
    (by rw [hslots, takeover_withoutSlotsOf]; exact hroom)
  exact bounded_releaseReply (made.setPb_same p (by rfl)) _ _ _ _ _

theorem bounded_releaseCommand {s : State} (hs : s.Bounded) (q : Requester) (p : PbId) (time : Nat) (a : Bool) :
    (s.releaseCommand q p time a).Bounded := by
  unfold releaseCommand
  split
  · exact bounded_releaseReply (bounded_endPending hs _ _) _ _ _ _ _
  · dsimp only
    split
    · exact bounded_answer hs _ _ _
    · exact bounded_releaseSlot hs _ _ _ _ _ ‹_›

theorem bounded_backWork {s : State} (hs : s.Bounded) (q : Requester) (p : PbId) : (s.backWork q p).Bounded := by
  unfold backWork
  split
  · exact bounded_answer hs _ _ _
  · exact bounded_answer (bounded_backCommand hs ‹_›) _ _ _

theorem bounded_holdWork {s : State} (hs : s.Bounded) (q : Requester) (p : PbId) : (s.holdWork q p).Bounded := by
  unfold holdWork
  split
  · exact bounded_answer hs _ _ _
  · exact bounded_answer (bounded_holdCommand hs ‹_›) _ _ _

theorem bounded_resumeWork {s : State} (hs : s.Bounded) (q : Requester) (p : PbId) : (s.resumeWork q p).Bounded := by
  unfold resumeWork
  split
  · exact bounded_answer hs _ _ _
  · exact bounded_answer (bounded_resumeCommand hs ‹_›) _ _ _

theorem bounded_jumpWork {s : State} (hs : s.Bounded) (q : Requester) (a : PbId × Nat) : (s.jumpWork q a).Bounded :=
  bounded_ite (bounded_answer hs _ _ _) (bounded_ite (bounded_answer hs _ _ _) (bounded_ite (bounded_answer hs _ _ _)
    (bounded_answer (bounded_startFetch (hs.setPb_same _ (by rfl)) _) _ _ _)))

theorem bounded_masterWork {s : State} (hs : s.Bounded) (q : Requester) (a : Nat × Nat × Bool) :
    (s.masterWork q a).Bounded := by
  refine bounded_answer ?_ _ _ _
  unfold setMaster
  split
  · exact hs.setPb_same _ (by rfl)
  · exact hs.setMerge hs.parks.1 hs.parks.2

theorem bounded_countFollows {s : State} (hs : s.Bounded) : s.countFollows.Bounded := by
  refine bounded_ite hs (hs.of_sizes ?_)
  have backs : (fun p => ((s.eng.pb.map fun x : Playback => { x with follow := x.follow.map FollowTimer.count }).get p).back)
      = fun p => (s.pb p).back := funext fun p => by rw [Four.get_map]; rfl
  unfold sizes pb
  rw [backs]
  rfl

theorem bounded_expireFollow {s : State} (hs : s.Bounded) (p : PbId) : (s.expireFollow p).Bounded := by
  unfold expireFollow
  split
  · exact bounded_ite (bounded_settle (bounded_goCommand (hs.setPb_same p (by rfl)) _ _ _ _)) hs
  · exact hs

end Sys2Proof.Machine.State

namespace Sys2Proof.Machine.State

/-! ### The Supervisor -/

theorem bounded_tick {s : State} (hs : s.Bounded) : s.tick.Bounded := by
  have counted : ({ s with sup := { s.sup with showTime := (s.sup.showTime + 1) % 4294967296 } } : State).Bounded :=
    hs.setSup (Nat.mod_lt _ (by decide))
  unfold tick
  exact bounded_ite (counted.of_sizes rfl) counted

theorem bounded_applyLoss {s : State} (hs : s.Bounded) : s.applyLoss.Bounded := by
  have frozen (t : State) (ht : t.Bounded) : (four.foldl freeze t).Bounded :=
    ht.foldl (fun u p hu => bounded_ite (bounded_enterHeld hu p) hu) _
  have applied := hs.of_sizes (t := { s with sup := { s.sup with loss := some s.sup.policy } }) rfl
  unfold applyLoss
  dsimp only
  split
  · exact applied
  · exact frozen _ applied
  · have held := frozen _ applied
    generalize four.foldl freeze _ = u at held ⊢
    exact held.of_sizes rfl

theorem bounded_goSilent {s : State} (hs : s.Bounded) : s.goSilent.Bounded := by
  have silent := hs.of_sizes (t := { s with link := { s.link with silent := true, timer := false, silence := 0 } }) rfl
  exact bounded_ite (bounded_pump (bounded_applyLoss (bounded_report silent _ _ _))) hs

theorem bounded_enterHalted {s : State} (hs : s.Bounded) : s.enterHalted.Bounded :=
  (hs.of_sizes (t := { s with sup := { s.sup with halted := true } }) rfl).foldl (fun _ p ht => bounded_endPending ht p _) _

theorem bounded_takeFault {s : State} (hs : s.Bounded) (f : EngineFault) : (s.takeFault f).Bounded := by
  have recorded : ({ (s.report 0xE2 true (f.fields ++ bBool s.sup.record.isNone)) with
      sup := { (s.report 0xE2 true (f.fields ++ bBool s.sup.record.isNone)).sup with
        record := s.sup.record.or (some f) } } : State).Bounded := (bounded_report hs _ _ _).of_sizes rfl
  exact bounded_ite (bounded_report (bounded_enterHalted recorded) _ _ _) recorded

theorem bounded_takeRaised {s : State} (hs : s.Bounded) (place : Nat) : (s.takeRaised place).Bounded := by
  unfold takeRaised
  split
  · split
    · exact hs
    · exact bounded_pump (bounded_takeFault (hs.of_sizes (by rfl)) _)
  · exact hs

/-! ### The changeover -/

@[simp] theorem bounded_answerOwed {s : State} (hs : s.Bounded) (o : Option Byte) (st : Status) (b : List Byte) :
    (s.answerOwed o st b).Bounded := by cases o <;> simp [answerOwed, hs]

@[simp] theorem bounded_endChangeover {s : State} (hs : s.Bounded) : s.endChangeover.Bounded := hs.of_sizes rfl

@[simp] theorem bounded_startChangeover {s : State} (hs : s.Bounded) (b : Bank) (d : Bool) (o : Option Byte) :
    (s.startChangeover b d o).Bounded := hs.of_sizes rfl

theorem bounded_cancelChangeover {s : State} (hs : s.Bounded) (c : Change) : (s.cancelChangeover c).Bounded :=
  bounded_answerOwed (bounded_endChangeover hs) _ _ _

theorem bounded_commitPlayback {s : State} (hs : s.Bounded) (p : PbId) : (s.commitPlayback p).Bounded :=
  (bounded_dropSlots (bounded_endPending hs p _) p).setPb_sublist p (List.nil_sublist _)

theorem bounded_releaseParks {s : State} (hs : s.Bounded) : s.releaseParks.Bounded :=
  bounded_ite hs ((bounded_report hs _ _ _).setMerge (Nat.zero_le _) List.nodup_nil)

theorem bounded_commit {s : State} (hs : s.Bounded) (c : Change) : (s.commit c).Bounded := by
  have cleared (t : State) (ht : t.Bounded) : (four.foldl commitPlayback t).Bounded :=
    ht.foldl (fun _ p hu => bounded_commitPlayback hu p) _
  have shown (t : State) (ht : t.Bounded) (n : Option Bank) (b : List Byte) :
      ((t.releaseParks.showActive n c).answerOwed c.owed .ok b).Bounded :=
    bounded_answerOwed (bounded_report (bounded_releaseParks ht) _ _ _) _ _ _
  have fetched (t : State) (ht : t.Bounded) : (four.foldl startFetch t).Bounded :=
    ht.foldl (fun _ p hu => bounded_startFetch hu p) _
  have installed : (State.withdrawFetches { s with
      patch := s.patch.install, bank := { s.bank with active := some c.target, change := none } }).Bounded := hs.of_sizes rfl
  unfold commit
  dsimp only
  refine fetched _ (shown _ (cleared _ ?_) _ _)
  exact installed

theorem bounded_darkCheck {s : State} (hs : s.Bounded) (c : Change) : (s.darkCheck c).Bounded :=
  bounded_ite (bounded_commit hs c) hs

theorem bounded_darkExpiry {s : State} (hs : s.Bounded) : s.darkExpiry.Bounded := by
  unfold darkExpiry
  split
  · exact hs
  · exact bounded_ite (bounded_settle (bounded_darkCheck (hs.of_sizes (by rfl)) _)) hs

theorem bounded_takeLoad {s : State} (hs : s.Bounded) (b : Bank) (n : Nat) (passes : Bool) :
    (s.takeLoad b n passes).Bounded := by
  have passed (c : Change) (u : PatchUnit) : (s.passLoad c u).Bounded :=
    bounded_ite (hs.of_sizes (by rfl)) (bounded_ite (bounded_darkCheck (hs.of_sizes (by rfl)) _) (bounded_commit (hs.of_sizes (by rfl)) c))
  have failed (c : Change) : (s.failLoad c).Bounded := by
    unfold failLoad; dsimp only; split <;> simp [hs]
  unfold takeLoad
  split
  · exact hs
  · split
    · exact passed _ _
    · exact failed _

theorem bounded_loadDone {s : State} (hs : s.Bounded) (a : StoreAnswer) : (s.loadDone a).Bounded := by
  unfold loadDone
  split
  · exact hs
  · exact bounded_settle (bounded_ite (bounded_takeLoad (bounded_freePort hs) _ _ _) (bounded_freePort hs))
  · exact hs

theorem bounded_decideStartUp {s : State} (hs : s.Bounded) : s.decideStartUp.Bounded := by
  have decided := hs.of_sizes (t := { s with bank := { s.bank with decided := true } }) rfl
  unfold decideStartUp
  refine bounded_ite ?_ hs
  dsimp only
  split
  · exact bounded_settle (bounded_ite (bounded_raise decided _) decided)
  · exact bounded_ite (bounded_settle (bounded_ite (bounded_raise decided _) decided))
      (bounded_settle (bounded_startChangeover (bounded_ite (bounded_raise decided _) decided) _ _ _))

theorem bounded_restartPlayback {s : State} (hs : s.Bounded) (p : PbId) : (s.restartPlayback p).Bounded :=
  (bounded_dropSlots (bounded_endPending hs p _) p).setPb_sublist p (List.nil_sublist _)

theorem bounded_restartWork {s : State} (hs : s.Bounded) (q : Requester) (a : Unit) : (s.restartWork q a).Bounded := by
  have cleared := hs.of_sizes (t := { s with sup := { s.sup with record := none, halted := false } }) rfl
  have restarted (t : State) (ht : t.Bounded) : (four.foldl (fun t p => (t.restartPlayback p).startFetch p) t).Bounded :=
    ht.foldl (fun _ p hu => bounded_startFetch (bounded_restartPlayback hu p) p) _
  unfold restartWork
  dsimp only
  refine bounded_answer (restarted _ ?_) _ _ _
  split
  · exact bounded_cancelChangeover cleared _
  · exact cleared

theorem bounded_changeoverWork {s : State} (hs : s.Bounded) (q : Requester) (a : Bank × Bool) :
    (s.changeoverWork q a).Bounded :=
  bounded_ite (bounded_answer hs _ _ _) (bounded_ite (bounded_answer hs _ _ _) (bounded_startChangeover hs _ _ _))

theorem bounded_changeoverCancelWork {s : State} (hs : s.Bounded) (q : Requester) (a : Unit) :
    (s.changeoverCancelWork q a).Bounded := by
  unfold changeoverCancelWork
  split
  · exact bounded_answer hs _ _ _
  · exact bounded_answer (bounded_cancelChangeover hs _) _ _ _

/-! ### The lines -/

theorem take_seq (x : Line) (n : LineSettings) : (x.take n).seq = x.seq := by
  unfold Line.take
  split_ifs <;> rfl

theorem start_seq (x : Line) : x.start.seq = x.seq := by
  unfold Line.start
  split
  · split_ifs <;> rfl
  · rfl

theorem shut_seq (x : Line) : x.shut.seq = x.seq := by
  unfold Line.shut
  split
  · split_ifs <;> rfl
  · rfl

theorem goodReturn_seq (x : Line) (m n : Nat) : (x.goodReturn m n).1.seq = x.seq := by
  unfold Line.goodReturn
  dsimp only
  (repeat' split) <;> rfl

theorem badReturn_seq (x : Line) : x.badReturn.1.seq = x.seq := by
  unfold Line.badReturn
  dsimp only
  (repeat' split) <;> rfl

/-- A line changed in anything but its sequence. -/
theorem Bounded.setLine_same {s : State} (hs : s.Bounded) (l : Fin 6) {x : Line} (hx : x.seq = (s.line l).seq) :
    (s.setLine l x).Bounded := hs.setLine l (hx ▸ hs.seqs l)

theorem bounded_rackReport {s : State} (hs : s.Bounded) (stage line : Nat) (rack : Nat × Nat) (n : RackNews) :
    (s.rackReport stage line rack n).Bounded := by
  cases n <;> simp [rackReport, hs]

/-- An event joins the circuit fault table where it holds fewer than 64 (R144). -/
theorem bounded_tableEvent {s : State} (hs : s.Bounded) (stage : Nat) (e : CircuitEvent) :
    (s.tableEvent stage e).Bounded := by
  have marked : (s.markFault e.circuit e.kind e.raises).Bounded :=
    hs.setOutp (by exact (List.length_map _).trans_le hs.faults) (fun l => hs.seqs l)
  have told (t : State) (ht : t.Bounded) (seen : Option Nat) : (t.circuitReport stage e seen).Bounded :=
    bounded_report ht _ _ _
  unfold tableEvent
  split
  · exact told _ marked _
  · split_ifs with hraise hroom
    · exact told _ hs _
    · refine told _ (hs.setOutp ?_ (by exact fun l => hs.seqs l)) _
      rw [List.length_append]
      exact hroom
    · exact told _ (hs.setOutp (by exact hs.faults) (by exact fun l => hs.seqs l)) _

theorem bounded_setDebounce {s : State} (hs : s.Bounded) (l : Fin 6) (i : Nat) (d : Debounce) :
    (s.setDebounce l i d).Bounded := hs.setLine_same l (by rfl)

/-- The events of a circuit join the queue of a follower where it has room for all of them (R143). -/
theorem bounded_handEvents {s : State} (hs : s.Bounded) (l : Fin 6) (i : Nat) (d : Debounce) :
    (s.handEvents l i d).Bounded := by
  unfold handEvents
  dsimp only
  split_ifs with hnone hfollower hroom
  · exact bounded_setDebounce hs _ _ _
  · refine (bounded_setDebounce hs l i d.handOver).setCas ?_
    have hroom := show _ ≤ 16 from hroom
    rw [List.length_append]
    exact hroom
  · exact bounded_setDebounce hs _ _ _
  · exact (bounded_setDebounce hs _ _ _).foldl (fun _ e ht => bounded_tableEvent ht _ e) _

theorem bounded_takeStatuses {s : State} (hs : s.Bounded) (l : Fin 6) (statuses : List CircuitStatus) :
    (s.takeStatuses l statuses).Bounded :=
  hs.foldl (fun _ _ ht => bounded_ite ht (bounded_handEvents ht _ _ _)) _

theorem bounded_setRack {s : State} (hs : s.Bounded) (l : Fin 6) (r : Line × RackNews) (h : r.1.seq = (s.line l).seq) :
    (s.setRack l r).Bounded := bounded_rackReport (hs.setLine_same l h) _ _ _ _

theorem bounded_countReturn {s : State} (hs : s.Bounded) (l : Fin 6) (r : Return) : (s.countReturn l r).Bounded := by
  cases r with
  | bad => exact bounded_setRack hs l _ (badReturn_seq _)
  | good m n statuses =>
    have racked := bounded_setRack hs l ((s.line l).goodReturn m n) (goodReturn_seq _ _ _)
    exact bounded_ite (bounded_takeStatuses racked l statuses) racked

theorem bounded_closeInterval {s : State} (hs : s.Bounded) (l : Fin 6) : (s.closeInterval l).Bounded :=
  hs.setLine_same l (by rfl)

theorem bounded_takeReturn {s : State} (hs : s.Bounded) (l : Fin 6) (clean : Bool) (b : List Byte) :
    (s.takeReturn l clean b).Bounded :=
  bounded_ite (bounded_pump (bounded_countReturn (bounded_closeInterval hs l) l _)) hs

theorem bounded_sendLevels {s : State} (hs : s.Bounded) (l : Fin 6) : (s.sendLevels l).Bounded := by
  unfold sendLevels
  exact bounded_emit (hs.setLine l (Nat.le_of_lt_succ (Nat.mod_lt ((s.line l).seq + 1) (by decide)))) _

theorem bounded_lineExpiry {s : State} (hs : s.Bounded) (l : Fin 6) : (s.lineExpiry l).Bounded :=
  bounded_ite hs (bounded_pump (bounded_sendLevels
    (bounded_ite (bounded_countReturn (bounded_closeInterval hs l) l .bad) hs) l))

theorem bounded_lineHoldWork {s : State} (hs : s.Bounded) (q : Requester) (a : Nat × Bool) :
    (s.lineHoldWork q a).Bounded := by
  unfold lineHoldWork
  refine bounded_answer ?_ _ _ _
  split
  · exact hs.setLine_same _ (by rfl)
  · exact hs.mapLines (f := fun x : Line => { x with hold := a.2 }) (fun _ => rfl) rfl rfl

theorem bounded_faultClearWork {s : State} (hs : s.Bounded) (q : Requester) (a : Option (Nat × FaultKind)) :
    (s.faultClearWork q a).Bounded := by
  have left (f : CircuitFault → Bool) (b : List Byte) :
      (State.answer { s with outp := { s.outp with faults := s.outp.faults.filter f } } q .ok b).Bounded :=
    bounded_answer (hs.setOutp (by exact (List.length_filter_le _ _).trans hs.faults) (by exact fun l => hs.seqs l)) _ _ _
  unfold faultClearWork
  dsimp only
  split
  · exact left _ _
  · split
    · exact bounded_answer hs _ _ _
    · exact bounded_ite (bounded_answer hs _ _ _) (left _ _)

/-! ### Reads -/

theorem bounded_listReadWork {s : State} (hs : s.Bounded) (q : Requester) (a : (Bank × PbId) × Nat) :
    (s.listReadWork q a).Bounded := bounded_ite (bounded_answer hs _ _ _) (bounded_answer hs _ _ _)

theorem bounded_statusWork {s : State} (hs : s.Bounded) (q : Requester) (a : Unit) : (s.statusWork q a).Bounded :=
  bounded_ite (bounded_answer hs _ _ _) (bounded_ite (bounded_answer hs _ _ _) (bounded_answer (hs.of_sizes (by rfl)) _ _ _))

theorem bounded_levelsReadWork {s : State} (hs : s.Bounded) (q : Requester) (a : Nat × Nat × Nat) :
    (s.levelsReadWork q a).Bounded := by
  unfold levelsReadWork
  dsimp only
  split
  · exact bounded_answer hs _ _ _
  · exact bounded_ite (bounded_answer hs _ _ _) (bounded_answer hs _ _ _)

theorem bounded_slotReadWork {s : State} (hs : s.Bounded) (q : Requester) (a : Nat × Nat) :
    (s.slotReadWork q a).Bounded := by
  unfold slotReadWork; split <;> exact bounded_answer hs _ _ _

theorem bounded_answerPatch {s : State} (hs : s.Bounded) (q : Requester) (first count : Nat) (m : Assoc PatchEntry)
    (w : Windows) : (s.answerPatch q first count m w).Bounded := bounded_answer (hs.of_sizes (by rfl)) _ _ _

theorem bounded_cueReadWork {s : State} (hs : s.Bounded) (q : Requester) (a : (Bank × PbId) × Nat × Nat) :
    (s.cueReadWork q a).Bounded := by
  unfold cueReadWork
  refine bounded_ite (bounded_answer hs _ _ _) ?_
  split
  · exact bounded_answer hs _ _ _
  · exact bounded_answer hs _ _ _
  · exact hs.of_sizes rfl

theorem bounded_patchReadWork {s : State} (hs : s.Bounded) (q : Requester) (a : Bank × Nat × Nat) :
    (s.patchReadWork q a).Bounded := by
  unfold patchReadWork
  refine bounded_ite (bounded_answer hs _ _ _) ?_
  split
  · exact bounded_answerPatch hs _ _ _ _ _
  · exact hs.of_sizes rfl

theorem bounded_endHostRead {s : State} (hs : s.Bounded) (r : HostRead) (passes : Bool) :
    (s.endHostRead r passes).Bounded := by
  cases r with
  | cue q b l n first => simp only [endHostRead]; split <;> exact bounded_answer hs _ _ _
  | patch q b first count =>
    simp only [endHostRead]
    split
    · exact bounded_answerPatch hs _ _ _ _ _
    · exact bounded_answer hs _ _ _

theorem bounded_hostReadDone {s : State} (hs : s.Bounded) (a : StoreAnswer) : (s.hostReadDone a).Bounded := by
  unfold hostReadDone
  split
  · exact hs
  · exact bounded_settle (bounded_endHostRead (bounded_freePort hs) _ _)
  · exact hs

/-! ### Parks -/

/-- A park replaces the park of its channel, or joins a table that has room (R109, R110). -/
theorem bounded_parkWork {s : State} (hs : s.Bounded) (q : Requester) (a : Nat × Nat × Bool) : (s.parkWork q a).Bounded := by
  obtain ⟨hlen, hnodup⟩ := hs.parks
  unfold parkWork
  dsimp only
  split_ifs with hfull
  · exact bounded_answer hs _ _ _
  · refine bounded_answer (hs.setMerge ?_ ?_) _ _ _
    · suffices h : (s.parksWithout a.1).length < 64 by simp; omega
      rcases Nat.lt_or_ge s.merge.parks.length 64 with hlt | hge
      · exact (List.length_filter_le _ _).trans_lt hlt
      · have parked : (s.parkOf a.1).isSome = true := by
          cases h : s.parkOf a.1
          · exact absurd ⟨by simp [h], hge⟩ hfull
          · rfl
        obtain ⟨x, hx⟩ := Option.isSome_iff_exists.mp parked
        refine (List.length_filter_lt_length_iff_exists.mpr ⟨x, List.mem_of_find?_eq_some hx, ?_⟩).trans_le hlen
        have := List.find?_some hx
        simp_all
    · rw [List.map_append, List.nodup_append]
      refine ⟨hnodup.sublist (List.filter_sublist.map _), List.nodup_singleton _, ?_⟩
      intro c hc d hd
      obtain ⟨x, hx, rfl⟩ := List.mem_map.mp hc
      have hx : x.channel ≠ a.1 := by simpa using (List.mem_filter.mp hx).2
      simp_all

theorem bounded_unparkWork {s : State} (hs : s.Bounded) (q : Requester) (c : Nat) : (s.unparkWork q c).Bounded := by
  have kept (rest : List Park) (h : rest.Sublist s.merge.parks) : (s.keepParks q rest).Bounded :=
    bounded_answer (hs.setMerge (h.length_le.trans hs.parks.1) (hs.parks.2.sublist (h.map _))) _ _ _
  unfold unparkWork
  split_ifs
  · split
    · exact kept _ (List.nil_sublist _)
    · exact kept _ List.filter_sublist
  · exact bounded_answer hs _ _ _
  · exact kept _ List.filter_sublist

/-! ### The ports -/

theorem bounded_heard {s : State} (hs : s.Bounded) (p : PortId) (kind : Byte) : (s.heard p kind).Bounded := by
  cases p
  · exact bounded_ite (bounded_report (hs.of_sizes (by rfl)) _ _ _) (hs.of_sizes (by rfl))
  · exact hs

/-- A frame is queued where the request queue holds fewer than 8 (R166). -/
theorem bounded_queueFrame {s : State} (hs : s.Bounded) (p : PortId) (kind tag : Byte) (body : List Byte) :
    (s.queueFrame p kind tag body).Bounded := by
  unfold queueFrame
  dsimp only
  split_ifs with h
  · have h : (s.port p).requests.length < 8 := h
    exact hs.setPort p (by simp; omega)
  · exact bounded_answer hs _ _ _

theorem bounded_receive {s : State} (hs : s.Bounded) (p : PortId) (kind tag : Byte) (body : List Byte) :
    (s.receive p kind tag body).Bounded := by
  have replied (t : State) (ht : t.Bounded) : t.startReplies.Bounded := by unfold startReplies; simp [ht]
  exact bounded_ite (hs.setPort_same p (by rfl))
    (replied _ (bounded_queueFrame (bounded_heard (hs.setPort_same p (by rfl)) p kind) p kind tag body))

theorem bounded_finishSending {s : State} (hs : s.Bounded) (p : PortId) : (s.finishSending p).Bounded := by
  unfold finishSending
  split
  · exact hs
  · rename_i f _
    refine bounded_pump (bounded_emit (hs.setPort_same p ?_) _)
    cases f <;> rfl

theorem bounded_takeUnknown {s : State} (hs : s.Bounded) (p : PortId) : (s.takeUnknown p).Bounded := by
  unfold takeUnknown
  split
  · exact hs
  · exact bounded_ite hs (bounded_pump (bounded_answer (bounded_takeOff hs ‹_›) _ _ _))

theorem bounded_syncFound {s : State} (hs : s.Bounded) (p : PortId) : (s.setPort p (s.port p).syncFound).Bounded := by
  refine hs.setPort_same p ?_
  unfold Port.syncFound
  split <;> rfl

/-! ### Inputs -/

theorem bounded_actOnInput {s : State} (hs : s.Bounded) (i : Fin 4) : (s.actOnInput i).Bounded := by
  have commanded (p : PbId) (a : InputCommand) : (s.inputCommand i p a).Bounded := by
    cases a with
    | go => exact bounded_goCommand hs _ _ _ _
    | back =>
      simp only [inputCommand]
      split
      · exact bounded_inputResult hs _ _ _ _ _
      · exact bounded_inputResult (bounded_backCommand hs ‹_›) _ _ _ _ _
    | hold =>
      simp only [inputCommand]
      split
      · exact bounded_inputResult hs _ _ _ _ _
      · exact bounded_inputResult (bounded_holdCommand hs ‹_›) _ _ _ _ _
    | resume =>
      simp only [inputCommand]
      split
      · exact bounded_inputResult hs _ _ _ _ _
      · exact bounded_inputResult (bounded_resumeCommand hs ‹_›) _ _ _ _ _
  unfold actOnInput
  refine bounded_ite ?_ hs
  split
  · exact hs
  · exact bounded_ite (bounded_inputResult hs _ _ _ _ _) (commanded _ _)

theorem bounded_debounce {s : State} (hs : s.Bounded) (i : Fin 4) : (s.debounce i).Bounded :=
  bounded_ite hs (bounded_ite (hs.of_sizes (by rfl)) (bounded_settle (bounded_actOnInput (hs.of_sizes (by rfl)) i)))

end Sys2Proof.Machine.State

namespace Sys2Proof.Machine.State

/-! ### House items -/

theorem bounded_startLines {s : State} (hs : s.Bounded) : s.startLines.Bounded :=
  bounded_ite (hs.mapLines (f := Line.start) start_seq rfl rfl) hs

theorem bounded_deliver {s : State} (hs : s.Bounded) (item : HouseItem) (c : Bool) : (s.deliver item c).Bounded := by
  cases item with
  | line st l x =>
    show (s.deliverLine st l x c).Bounded
    unfold deliverLine
    split
    · exact hs
    · split
      · exact hs.of_sizes rfl
      · exact bounded_ite (hs.setLine_same _ (take_seq _ _)) (bounded_startLines (hs.setLine_same _ (by rfl)))
  | _ => exact hs.of_sizes rfl

theorem bounded_deliverHeld {s : State} (hs : s.Bounded) (h : Held) : (s.deliverHeld h).Bounded := by
  have gens (t : State) (ht : t.Bounded) (i : HouseItem) : (t.raiseGens i).Bounded := by
    unfold raiseGens
    cases i <;> dsimp only <;> (try split) <;> exact ht.of_sizes rfl
  cases h with
  | fault f => exact bounded_raise hs f
  | item i c => exact bounded_ite (gens _ (bounded_deliver hs i c) i) (bounded_deliver hs i c)

theorem bounded_handOver {s : State} (hs : s.Bounded) (h : Held) : (s.handOver h).Bounded := by
  unfold handOver
  split
  · exact hs.of_sizes rfl
  · exact bounded_deliverHeld hs h
  · exact hs

/-! ### The ends of store operations -/

theorem bounded_endStartUpRead {s : State} (hs : s.Bounded) (i : Nat) (passes : Bool) :
    (s.endStartUpRead i passes).Bounded := by
  have house (t : State) (ht : t.Bounded) : (t.houseRead i passes).Bounded := by
    unfold houseRead
    split
    · exact bounded_handOver ht _
    · exact bounded_handOver (ht.of_sizes (by rfl)) _
  have header (t : State) (ht : t.Bounded) (b : Bank) : (t.headerRead b passes).Bounded := ht.of_sizes rfl
  have read := bounded_ite (b := i ≤ 42) (house _ (bounded_freePort hs)) (header _ (bounded_freePort hs) (Fin.ofNat 4 (i - 43)))
  unfold endStartUpRead
  dsimp only
  generalize (if i ≤ 42 then s.freePort.houseRead i passes else s.freePort.headerRead (Fin.ofNat 4 (i - 43)) passes) = u
    at read
  exact bounded_settle (bounded_ite (read.of_sizes (by rfl)) (read.of_sizes (by rfl)))

theorem bounded_startUpDone {s : State} (hs : s.Bounded) (a : StoreAnswer) : (s.startUpDone a).Bounded := by
  unfold startUpDone
  split
  · exact hs
  · exact bounded_endStartUpRead hs _ _
  · exact hs

theorem bounded_listNotice {s : State} (hs : s.Bounded) (w : WriteEntry) : (s.listNotice w).Bounded := by
  unfold listNotice
  cases w.kind <;> dsimp only <;> (try split_ifs) <;> exact hs.of_sizes rfl

theorem bounded_notify {s : State} (hs : s.Bounded) (w : WriteEntry) (pairs : List (Nat × Option PatchEntry)) :
    (s.notify w pairs).Bounded := by
  have noticed (t : State) (ht : t.Bounded) : (t.patchNoticeFor w pairs).Bounded := by
    unfold patchNoticeFor
    dsimp only
    split
    · exact ht
    · split
      · split <;> exact ht.of_sizes rfl
      · exact ht
  unfold notify
  split
  · exact bounded_handOver hs _
  · exact noticed _ (bounded_listNotice hs w)

theorem bounded_completeWrite {s : State} (hs : s.Bounded) (w : WriteEntry) (damaged : List Nat) :
    (s.completeWrite w damaged).Bounded := by
  have headed (t : State) (ht : t.Bounded) : (t.headerAfter w).Bounded := by
    unfold headerAfter; split <;> exact ht.of_sizes rfl
  unfold completeWrite
  exact bounded_notify (bounded_endHeadWrite (headed _ (hs.of_sizes (by rfl))) _ _) _ _

/-- A projection worked out anew keeps the length of the store queue (R14). -/
theorem bounded_projectAnew {s : State} (hs : s.Bounded) (b : Bank) : (s.projectAnew b).Bounded := by
  refine bounded_setProj (hs.setCtl ?_) _ _
  show (reproject b (s.ram b) s.ctl.queue).2.length ≤ 8
  rw [reproject_length]
  exact hs.queue

theorem bounded_failWrite {s : State} (hs : s.Bounded) (w : WriteEntry) : (s.failWrite w).Bounded := by
  have headed : (s.failedHeader w).Bounded := by
    unfold failedHeader; split <;> simp [hs]
  have projected (t : State) (ht : t.Bounded) : (t.failedProjection w).Bounded := by
    unfold failedProjection
    split
    · exact bounded_projectAnew ht _
    · exact ht
  rw [failWrite_eq]
  exact bounded_listNotice (projected _ (bounded_raise (bounded_endHeadWrite headed _ _) _)) w

theorem bounded_confirmWrite {s : State} (hs : s.Bounded) (w : WriteEntry) (damaged : List Nat) :
    (s.confirmWrite w damaged).Bounded := by
  refine bounded_ite ?_ (bounded_completeWrite hs w damaged)
  unfold eraseOn
  dsimp only
  split
  · exact bounded_ite (hs.of_sizes (by rfl)) (hs.of_sizes (by rfl))
  · exact hs.of_sizes rfl

theorem bounded_writeDone {s : State} (hs : s.Bounded) (a : WriteAnswer) : (s.writeDone a).Bounded := by
  unfold writeDone
  split
  · exact bounded_settle (bounded_confirmWrite (bounded_freePort hs) _ _)
  · exact bounded_settle (bounded_failWrite (bounded_freePort hs) _)
  · exact bounded_settle (bounded_failWrite (bounded_freePort hs) _)
  · exact hs

theorem bounded_fetchDone {s : State} (hs : s.Bounded) (a : StoreAnswer) : (s.fetchDone a).Bounded := by
  unfold fetchDone
  split
  · exact hs
  · exact bounded_settle (bounded_ite (bounded_takeOutcome (bounded_freePort hs) _ _ _) (bounded_freePort hs))
  · exact hs

theorem bounded_timeout {s : State} (hs : s.Bounded) : s.timeout.Bounded := by
  have raised (f : EngineFault) : (s.freePort.raise f).Bounded := bounded_raise (bounded_freePort hs) f
  unfold timeout
  split
  · exact bounded_endStartUpRead (bounded_handOver hs _) _ _
  · exact bounded_settle (bounded_ite (bounded_takeOutcome (raised _) _ _ _) (raised _))
  · exact bounded_settle (bounded_ite (bounded_takeLoad (raised _) _ _ _) (raised _))
  · exact bounded_settle (bounded_endHostRead (raised _) _ _)
  · exact bounded_settle (bounded_failWrite (bounded_freePort hs) _)
  · exact hs
  · exact hs

theorem bounded_takePatchNotice {s : State} (hs : s.Bounded) : s.takePatchNotice.Bounded := by
  unfold takePatchNotice applyPatchNotice
  split
  · exact hs
  · dsimp only; split <;> exact hs.of_sizes rfl

theorem bounded_takeListNotice {s : State} (hs : s.Bounded) : s.takeListNotice.Bounded := by
  unfold takeListNotice
  split
  · exact hs
  · exact bounded_settle (bounded_startFetch (hs.of_sizes (by rfl)) _)

/-! ### The role and the cascade -/

theorem bounded_reset : State.reset.Bounded := by
  have seqs : ∀ l : Fin 6, (State.reset.line l).seq ≤ 255 := by decide
  rw [bounded_iff]
  exact ⟨by decide, by decide, by decide, by decide, ⟨by decide, by decide⟩, by decide, by decide,
    ⟨by decide, by decide, by decide, by decide⟩, ⟨by decide, by decide⟩, seqs, by decide⟩

theorem bounded_deviceReset (s : State) (m : Option (List Nat)) : (s.deviceReset m).Bounded := bounded_reset.of_sizes rfl

/-- A follower's playbacks, slots, parks and reports are empty (R148). -/
theorem bounded_becomeFollower {s : State} (hs : s.Bounded) : s.becomeFollower.Bounded := by
  refine bounded_settle ?_
  have reset : ({ s with link := { s.link with timer := false, reports := [], lost := false }, merge := .reset, slots := [] }
      : State).Bounded :=
    ((hs.setLink (x := { s.link with timer := false, reports := [], lost := false }) (Nat.zero_le _)).setMerge
      (m := .reset) (Nat.zero_le _) List.nodup_nil).setSlots (l := []) ⟨Nat.zero_le _, List.nodup_nil, by simp, Nat.zero_le _⟩
  have emptied := reset.setEng (e := .reset) ⟨by decide, show 0 ≤ 8192 from Nat.zero_le _⟩
  exact (emptied.of_sizes (t := { s with
    cas := { s.cas with role := .follower }
    ctl := { s.ctl with held := [], fetches := ⟨none, none, none, none⟩ }
    sup := { s.sup with raised := [] }
    link := { s.link with timer := false, reports := [], lost := false }
    patch := .reset, merge := .reset, eng := .reset, slots := [] }) rfl).mapLines
      (f := fun x : Line => { x with hold := false }) (fun _ => rfl) rfl rfl

theorem bounded_becomeLeader {s : State} (hs : s.Bounded) : s.becomeLeader.Bounded :=
  bounded_startLines ((hs.of_sizes (by rfl)).foldl (fun _ h ht => bounded_deliverHeld ht h) _)

theorem bounded_decideRole {s : State} (hs : s.Bounded) (d : Bool) : (s.decideRole d).Bounded :=
  bounded_ite (bounded_ite (bounded_becomeFollower hs) (bounded_becomeLeader hs)) hs

theorem bounded_cascadeExpiry {s : State} (hs : s.Bounded) : s.cascadeExpiry.Bounded := by
  have stages : (three.foldl sendStage s).Bounded := hs.foldl (fun _ _ ht => ht.of_sizes (by rfl)) _
  have setups (t : State) (ht : t.Bounded) : (three.foldl sendSetup t).Bounded :=
    ht.foldl (fun _ _ hu => hu.of_sizes (by rfl)) _
  unfold cascadeExpiry
  dsimp only
  generalize three.foldl sendStage s = u at stages
  exact bounded_ite (bounded_ite (setups _ (stages.of_sizes (by rfl))) (stages.of_sizes (by rfl))) hs

theorem bounded_roleOfStage {s : State} (hs : s.Bounded) (n : Nat) : (s.roleOfStage n).Bounded := by
  have shut := hs.mapLines (f := Line.shut) (o := { s.outp with lines := s.outp.lines.map Line.shut }) shut_seq rfl rfl
  have orphan : s.enterOrphan.Bounded :=
    shut.setCas (c := { s.cas with role := .orphan, events := [], genHeld := 0 }) (Nat.zero_le _)
  exact bounded_ite (bounded_ite hs orphan) (hs.of_sizes rfl)

theorem bounded_watchHop {s : State} (hs : s.Bounded) (hop : Nat) : (s.watchHop hop).Bounded := by
  unfold watchHop changeId
  split
  · exact bounded_roleOfStage (hs.of_sizes (by rfl)) _
  · dsimp only
    generalize (if s.cas.cand = some hop then s.cas.candRun + 1 else 1) = run
    exact bounded_ite (hs.of_sizes (by rfl)) (bounded_ite (bounded_roleOfStage (hs.of_sizes (by rfl)) _)
      (hs.of_sizes (by rfl)))

/-- The six lines changed one after another, each in anything but its sequence. -/
theorem Bounded.foldLines {s : State} (hs : s.Bounded) {f : Fin 6 → Line → Line} (hf : ∀ l x, (f l x).seq = x.seq) :
    (six.foldl (fun t l => t.setLine l (f l (t.line l))) s).Bounded :=
  hs.foldl (fun _ l ht => ht.setLine_same l (hf _ _)) _

theorem bounded_takeStage {s : State} (hs : s.Bounded) (f : StageFrame) : (s.takeStage f).Bounded := by
  have taken := (hs.of_sizes (t := { s with
    outp := { s.outp with target := (stageSettled f s.free).blend }, free := s.free + stageOpens f }) rfl).foldLines
    (f := fun l x => { x with next := levelsOfLine (stageSettled f s.free).levels l }) (fun _ _ => rfl)
  unfold takeStage
  dsimp only at taken ⊢
  generalize List.foldl _ _ six = u at taken ⊢
  exact taken.of_sizes rfl

theorem bounded_applySetup {s : State} (hs : s.Bounded) (f : SetupFrame) : (s.applySetup f).Bounded := by
  have taken := (hs.of_sizes (t := { s with free := s.free + setupOpens f }) rfl).foldLines
    (f := fun l x => x.take ((setupSettled f s.free).lines.getD l.val defaultLine)) (fun _ _ => take_seq _ _)
  unfold applySetup
  dsimp only at taken ⊢
  generalize List.foldl _ _ six = u at taken ⊢
  exact taken.of_sizes rfl

theorem bounded_stageFrameIn {s : State} (hs : s.Bounded) (f : StageFrame) : (s.stageFrameIn f).Bounded := by
  have watched := bounded_watchHop (bounded_decideRole hs true) f.hop
  have found : ((s.dinByte.watchHop f.hop).endLeaderLost).Bounded := bounded_ite (watched.of_sizes rfl) watched
  exact bounded_ite hs (bounded_emit (bounded_ite (bounded_takeStage found f) found) _)

theorem bounded_setupFrameIn {s : State} (hs : s.Bounded) (f : SetupFrame) : (s.setupFrameIn f).Bounded := by
  have watched : (s.dinByte.watchHop f.hop).Bounded := bounded_watchHop (bounded_decideRole hs true) f.hop
  exact bounded_ite hs (bounded_emit (bounded_ite (bounded_applySetup watched f) watched) _)

theorem bounded_countError {s : State} (hs : s.Bounded) (i : CasInput) : (s.countError i).Bounded := by
  cases i with
  | uin => exact hs.of_sizes rfl
  | din =>
    have heard : s.dinByte.Bounded := bounded_decideRole hs true
    unfold countError
    exact bounded_ite heard (heard.of_sizes rfl)

theorem bounded_sendUp {s : State} (hs : s.Bounded) : s.sendUp.Bounded := by
  unfold sendUp
  split
  · refine bounded_emit (hs.setCas ?_) _
    exact (List.drop_sublist _ _).length_le.trans hs.2.2.2.2.2.2.2.1
  · exact hs

theorem bounded_takeUp {s : State} (hs : s.Bounded) (n : Fin 3) (f : UpFrame) : (s.takeUp n f).Bounded := by
  have joined (t : State) (ht : t.Bounded) (g : UpFrame) : (t.joinStage n g).Bounded :=
    bounded_ite ht (bounded_report (ht.of_sizes (by rfl)) _ _ _)
  have lines (t : State) (ht : t.Bounded) (x : List LineReport) : (t.reportStageLines n x).Bounded :=
    ht.foldl (fun _ _ hu => bounded_rackReport hu _ _ _ _) _
  have told := lines _ (joined { s with free := s.free + upOpens f } (hs.of_sizes rfl) (upSettled f s.free))
    (upSettled f s.free).lines
  unfold takeUp
  dsimp only
  generalize State.reportStageLines _ n _ = u at told ⊢
  exact (told.of_sizes (by rfl)).foldl (fun _ e ht => bounded_tableEvent ht _ e) _

theorem bounded_upFrameIn {s : State} (hs : s.Bounded) (f : UpFrame) : (s.upFrameIn f).Bounded := by
  have orphan : s.seeOrphan.Bounded := bounded_ite hs (bounded_raise (hs.of_sizes (by rfl)) _)
  unfold upFrameIn
  refine bounded_ite (bounded_countError hs _) (bounded_ite (bounded_emit hs _) (bounded_ite (bounded_ite orphan ?_) hs))
  split
  · exact bounded_pump (bounded_takeUp hs _ f)
  · exact hs

theorem bounded_loseStage {s : State} (hs : s.Bounded) (n : Fin 3) : (s.loseStage n).Bounded := by
  have absent := hs.of_sizes (t := { s with cas := { s.cas with
    stages := s.cas.stages.set n { s.cas.stages.get n with present := false } } }) rfl
  unfold loseStage
  exact bounded_ite (bounded_pump (bounded_raise (bounded_report absent _ _ _) _)) hs

/-! ### Every command keeps the bounds -/

theorem exec_bounded (c : Instr) (s : State) : Runs c s (fun t => s.Bounded → t.Bounded) := by
  cases c with
  | deviceReset m => exact ⟨_, rfl, fun _ => bounded_deviceReset s m⟩
  | roleDecided d => exact ⟨_, rfl, fun hs => bounded_decideRole hs d⟩
  | startUpReadDone a => exact ⟨_, rfl, fun hs => bounded_startUpDone hs a⟩
  | startUpDecision => exact ⟨_, rfl, fun hs => bounded_decideStartUp hs⟩
  | showTimeTick => exact ⟨_, rfl, fun hs => bounded_tick hs⟩
  | frameReceived p kind tag body =>
    exact ⟨_, rfl, fun hs => bounded_ite (bounded_receive hs p kind tag body) (hs.setPort_same p (by rfl))⟩
  | portFrameError p => exact ⟨_, rfl, fun hs => hs.setPort_same p (by rfl)⟩
  | portFrameGap p l => exact ⟨_, rfl, fun hs => hs.setPort_same p (by rfl)⟩
  | frameSent p => exact ⟨_, rfl, fun hs => bounded_finishSending hs p⟩
  | consoleSilent => exact ⟨_, rfl, fun hs => bounded_goSilent hs⟩
  | ping p => exact ⟨_, rfl, fun hs => bounded_takeRequest hs fun _ _ _ h => bounded_answer h _ _ _⟩
  | status p => exact ⟨_, rfl, fun hs => bounded_takeRequest hs fun _ _ _ h => bounded_statusWork h _ _⟩
  | levelsRead p => exact ⟨_, rfl, fun hs => bounded_takeRequest hs fun _ _ _ h => bounded_levelsReadWork h _ _⟩
  | circuitRead p => exact ⟨_, rfl, fun hs => bounded_takeRequest hs fun _ _ _ h => bounded_answer h _ _ _⟩
  | playbackRead p => exact ⟨_, rfl, fun hs => bounded_takeRequest hs fun _ _ _ h => bounded_answer h _ _ _⟩
  | rackRead p => exact ⟨_, rfl, fun hs => bounded_takeRequest hs fun _ _ _ h => bounded_answer h _ _ _⟩
  | stageRead p => exact ⟨_, rfl, fun hs => bounded_takeRequest hs fun _ _ _ h => bounded_answer h _ _ _⟩
  | cueRead p => exact ⟨_, rfl, fun hs => bounded_takeStoreRequest hs fun _ _ _ h => bounded_cueReadWork h _ _⟩
  | listRead p => exact ⟨_, rfl, fun hs => bounded_takeRequest hs fun _ _ _ h => bounded_listReadWork h _ _⟩
  | bankInfo p => exact ⟨_, rfl, fun hs => bounded_takeRequest hs fun _ _ _ h => bounded_answer h _ _ _⟩
  | patchRead p => exact ⟨_, rfl, fun hs => bounded_takeStoreRequest hs fun _ _ _ h => bounded_patchReadWork h _ _⟩
  | faultsRead p => exact ⟨_, rfl, fun hs => bounded_takeRequest hs fun _ _ _ h => bounded_answer h _ _ _⟩
  | faultRecordRead p => exact ⟨_, rfl, fun hs => bounded_takeRequest hs fun _ _ _ h => bounded_answer h _ _ _⟩
  | houseRead p => exact ⟨_, rfl, fun hs => bounded_takeRequest hs fun _ _ _ h => bounded_answer h _ _ _⟩
  | slotRead p => exact ⟨_, rfl, fun hs => bounded_takeRequest hs fun _ _ _ h => bounded_slotReadWork h _ _⟩
  | cueOpen p => exact ⟨_, rfl, fun hs => bounded_takeRequest hs fun _ _ _ h => bounded_cueOpenWork h _ _⟩
  | cueAdd p => exact ⟨_, rfl, fun hs => bounded_takeRequest hs fun _ _ _ h => bounded_cueAddWork h _ _⟩
  | cueClose p => exact ⟨_, rfl, fun hs => bounded_takeStoreRequest hs fun _ _ _ h => bounded_cueCloseWork h _ _⟩
  | cueAbandon p => exact ⟨_, rfl, fun hs => bounded_takeRequest hs fun _ _ _ h => bounded_cueAbandonWork h _ _⟩
  | cueDelete p => exact ⟨_, rfl, fun hs => bounded_takeStoreRequest hs fun _ _ _ h => bounded_cueDeleteWork h _ _⟩
  | patchSet p => exact ⟨_, rfl, fun hs => bounded_takeStoreRequest hs fun _ _ _ h => bounded_acceptBankWrite h _ _ _⟩
  | windowSet p => exact ⟨_, rfl, fun hs => bounded_takeStoreRequest hs fun _ _ _ h => bounded_windowSetWork h _ _⟩
  | bankTitle p => exact ⟨_, rfl, fun hs => bounded_takeStoreRequest hs fun _ _ _ h => bounded_acceptBankWrite h _ _ _⟩
  | record p => exact ⟨_, rfl, fun hs => bounded_takeStoreRequest hs fun _ _ _ h => bounded_recordWork h _ _⟩
  | go p => exact ⟨_, rfl, fun hs => bounded_takeStoreRequest hs fun _ _ _ h => bounded_goCommand h _ _ _ _⟩
  | back p => exact ⟨_, rfl, fun hs => bounded_takeStoreRequest hs fun _ _ _ h => bounded_backWork h _ _⟩
  | hold p => exact ⟨_, rfl, fun hs => bounded_takeRequest hs fun _ _ _ h => bounded_holdWork h _ _⟩
  | resume p => exact ⟨_, rfl, fun hs => bounded_takeRequest hs fun _ _ _ h => bounded_resumeWork h _ _⟩
  | jump p => exact ⟨_, rfl, fun hs => bounded_takeStoreRequest hs fun _ _ _ h => bounded_jumpWork h _ _⟩
  | release p => exact ⟨_, rfl, fun hs => bounded_takeStoreRequest hs fun _ _ _ h => bounded_releaseCommand h _ _ _ _⟩
  | master p => exact ⟨_, rfl, fun hs => bounded_takeRequest hs fun _ _ _ h => bounded_masterWork h _ _⟩
  | park p => exact ⟨_, rfl, fun hs => bounded_takeRequest hs fun _ _ _ h => bounded_parkWork h _ _⟩
  | unpark p => exact ⟨_, rfl, fun hs => bounded_takeRequest hs fun _ _ _ h => bounded_unparkWork h _ _⟩
  | faultClear p => exact ⟨_, rfl, fun hs => bounded_takeRequest hs fun _ _ _ h => bounded_faultClearWork h _ _⟩
  | faultAck p => exact ⟨_, rfl, fun hs => bounded_takeRequest hs fun _ _ _ h => bounded_answer (h.of_sizes (by rfl)) _ _ _⟩
  | changeover p => exact ⟨_, rfl, fun hs => bounded_takeStoreRequest hs fun _ _ _ h => bounded_changeoverWork h _ _⟩
  | bankErase p => exact ⟨_, rfl, fun hs => bounded_takeStoreRequest hs fun _ _ _ h => bounded_bankEraseWork h _ _⟩
  | houseSet p => exact ⟨_, rfl, fun hs => bounded_takeStoreRequest hs fun _ _ _ h => bounded_acceptWrite h _ _ _ _⟩
  | curveSet p => exact ⟨_, rfl, fun hs => bounded_takeStoreRequest hs fun _ _ _ h => bounded_acceptWrite h _ _ _ _⟩
  | houseCircuitsSet p => exact ⟨_, rfl, fun hs => bounded_takeStoreRequest hs fun _ _ _ h => bounded_acceptWrite h _ _ _ _⟩
  | safeLookSet p => exact ⟨_, rfl, fun hs => bounded_takeStoreRequest hs fun _ _ _ h => bounded_acceptWrite h _ _ _ _⟩
  | lineSet p => exact ⟨_, rfl, fun hs => bounded_takeStoreRequest hs fun _ _ _ h => bounded_acceptWrite h _ _ _ _⟩
  | inputSet p => exact ⟨_, rfl, fun hs => bounded_takeStoreRequest hs fun _ _ _ h => bounded_acceptWrite h _ _ _ _⟩
  | houseFade p => exact ⟨_, rfl, fun hs => bounded_takeRequest hs fun _ _ _ h => bounded_answer (h.of_sizes (by rfl)) _ _ _⟩
  | blackout p => exact ⟨_, rfl, fun hs => bounded_takeRequest hs fun _ _ _ h => bounded_answer (h.of_sizes (by rfl)) _ _ _⟩
  | lineHold p => exact ⟨_, rfl, fun hs => bounded_takeRequest hs fun _ _ _ h => bounded_lineHoldWork h _ _⟩
  | accessSet p => exact ⟨_, rfl, fun hs => bounded_takeRequest hs fun _ _ _ h => bounded_answer (h.of_sizes (by rfl)) _ _ _⟩
  | lossClear p => exact ⟨_, rfl, fun hs => bounded_takeRequest hs fun _ _ _ h => bounded_answer (h.of_sizes (by rfl)) _ _ _⟩
  | restart p => exact ⟨_, rfl, fun hs => bounded_takeStoreRequest hs fun _ _ _ h => bounded_restartWork h _ _⟩
  | changeoverCancel p => exact ⟨_, rfl, fun hs => bounded_takeRequest hs fun _ _ _ h => bounded_changeoverCancelWork h _ _⟩
  | unknownKindRequest p => exact ⟨_, rfl, fun hs => bounded_takeUnknown hs p⟩
  | fetchDone a => exact ⟨_, rfl, fun hs => bounded_fetchDone hs a⟩
  | loadStepDone a => exact ⟨_, rfl, fun hs => bounded_loadDone hs a⟩
  | hostReadDone a => exact ⟨_, rfl, fun hs => bounded_hostReadDone hs a⟩
  | writeStepDone a => exact ⟨_, rfl, fun hs => bounded_writeDone hs a⟩
  | storeTimeout => exact ⟨_, rfl, fun hs => bounded_timeout hs⟩
  | patchNotice => exact ⟨_, rfl, fun hs => bounded_takePatchNotice hs⟩
  | listNotice => exact ⟨_, rfl, fun hs => bounded_takeListNotice hs⟩
  | fadeStep => exact ⟨_, rfl, fun hs => bounded_pump (bounded_fadeStep hs)⟩
  | followTimerCount => exact ⟨_, rfl, fun hs => bounded_countFollows hs⟩
  | followExpiry n =>
    show Runs _ s _
    cases h : idx4 n with
    | none => exact ⟨s, by simp [exec, execFollowExpiry, h], id⟩
    | some p => exact ⟨_, by simp only [exec, execFollowExpiry, h], fun hs => bounded_expireFollow hs p⟩
  | houseFadeStep => exact ⟨_, rfl, fun hs => hs.of_sizes rfl⟩
  | darkCheck => exact ⟨_, rfl, fun hs => bounded_darkExpiry hs⟩
  | blendStep => exact ⟨_, rfl, fun hs => bounded_ite hs (hs.of_sizes rfl)⟩
  | followerBlendStep => exact ⟨_, rfl, fun hs => bounded_ite (hs.of_sizes rfl) hs⟩
  | lineClockExpiry n =>
    cases h : line? n with
    | none => exact ⟨s, by simp [exec, execLineClockExpiry, h], id⟩
    | some l => exact ⟨_, by simp only [exec, execLineClockExpiry, h], fun hs => bounded_lineExpiry hs l⟩
  | returnFrame n clean b =>
    cases h : line? n with
    | none => exact ⟨s, by simp [exec, execReturnFrame, h], id⟩
    | some l => exact ⟨_, by simp only [exec, execReturnFrame, h], fun hs => bounded_takeReturn hs l clean b⟩
  | contactChange n closed =>
    cases h : idx4 n with
    | none => exact ⟨s, by simp [exec, execContactChange, h], id⟩
    | some i =>
      exact ⟨s.changeContact i closed, by simp only [exec, execContactChange, h],
        fun hs => bounded_ite hs (hs.of_sizes rfl)⟩
  | debounceExpiry n =>
    cases h : idx4 n with
    | none => exact ⟨s, by simp [exec, execDebounceExpiry, h], id⟩
    | some i => exact ⟨_, by simp only [exec, execDebounceExpiry, h], fun hs => bounded_debounce hs i⟩
  | cascadeFrameExpiry => exact ⟨_, rfl, fun hs => bounded_cascadeExpiry hs⟩
  | stageFrame f => exact ⟨_, rfl, fun hs => bounded_ite (bounded_stageFrameIn hs f) (bounded_countError hs .din)⟩
  | setupFrame f => exact ⟨_, rfl, fun hs => bounded_ite (bounded_setupFrameIn hs f) (bounded_countError hs .din)⟩
  | cascadeFrameError i => exact ⟨_, rfl, fun hs => bounded_countError hs i⟩
  | cascadeByteGap i => exact ⟨_, rfl, fun hs => bounded_countError hs i⟩
  | leaderLost => exact ⟨_, rfl, fun hs => bounded_ite (hs.of_sizes rfl) hs⟩
  | upFrameSend => exact ⟨_, rfl, fun hs => bounded_sendUp hs⟩
  | upFrame f => exact ⟨_, rfl, fun hs => bounded_ite (bounded_upFrameIn hs f) (bounded_countError hs .uin)⟩
  | stageLost n =>
    cases h : stage? n with
    | none => exact ⟨s, by simp [exec, execStageLost, h], id⟩
    | some k => exact ⟨_, by simp only [exec, execStageLost, h], fun hs => bounded_loseStage hs k⟩
  | orphanWatchExpiry => exact ⟨_, rfl, fun hs => hs.of_sizes rfl⟩
  | engineFault n => exact ⟨_, rfl, fun hs => bounded_takeRaised hs n⟩
  | syncAfterBytesPassedOver p => exact ⟨_, rfl, fun hs => bounded_syncFound hs p⟩

end Sys2Proof.Machine.State

namespace Sys2Proof.Machine

/-- Settles O56: the bounds are an invariant of the step, which `exec_bounded` carries over every command. -/
theorem boundsAreKept : Obligations.BoundsAreKept := fun _ _ =>
  step_keeps (P := State.Bounded) (fun _ _ hs => hs.of_sizes rfl) State.exec_bounded

end Sys2Proof.Machine

namespace Sys2Proof.Machine

/-- The port performs the first start-up read at device reset, so nothing waits at an idle port (R9). -/
theorem State.calm_reset : State.reset.Calm := .inl rfl

theorem State.noticeGoesFirst_reset : State.reset.NoticeGoesFirst := ⟨fun _ => rfl, Nat.zero_le 1⟩

theorem State.standsWithoutShow_reset : State.reset.StandsWithoutShow := fun _ =>
  ⟨rfl, rfl, rfl, fun p => by fin_cases p <;> exact ⟨rfl, rfl, rfl, rfl⟩⟩

/-- Settles O55: each of the four invariants holds of the reset values. -/
theorem invariantsHoldAtReset : Obligations.InvariantsHoldAtReset :=
  ⟨State.bounded_reset, State.calm_reset, State.noticeGoesFirst_reset, State.standsWithoutShow_reset⟩

/-! ### The values of a device reset -/

/-- A playback context at device reset (R63). -/
theorem State.pb_reset (p : PbId) : State.reset.pb p = .reset := by fin_cases p <;> rfl

theorem State.line_reset (l : Fin 6) : State.reset.line l = .reset := by fin_cases l <;> rfl

theorem State.port_reset (p : PortId) : State.reset.port p = .reset := by cases p <;> rfl

theorem State.stages_reset (n : Fin 3) : State.reset.cas.stages.get n = .reset := by fin_cases n <;> rfl

theorem State.groups_reset (g : Fin 4) : State.reset.patch.groups.get g = .reset := by fin_cases g <;> rfl

/-- The contacts are found as they are, and each debounced state with them (R80). -/
theorem State.inputs_deviceReset (s : State) (stepMade : Option (List Nat)) (i : Fin 4) :
    (s.deviceReset stepMade).inputs.get i = .reset (s.inputs.get i).raw := Four.get_map _ _ _

/-- A write step that was not being performed, or had not been made, leaves the store as it is (R18). -/
theorem State.storeAtReset_kept {s : State} {stepMade : Option (List Nat)} (h : s.ctl.op ≠ some .write ∨ stepMade = none) :
    s.storeAtReset stepMade = s.store := by
  unfold storeAtReset
  split
  · rename_i hop _
    rcases h with h | h
    · exact absurd hop h
    · cases h
  · rfl

/-- A write step that had been made has landed (R18). -/
theorem State.storeAtReset_landed {s : State} {w : WriteEntry} {ws : List WriteEntry} (damaged : List Nat)
    (hop : s.ctl.op = some .write) (hq : s.ctl.queue = w :: ws) :
    s.storeAtReset (some damaged) = s.storeAfter w damaged := by
  unfold storeAtReset
  rw [hop, hq]

/-- Settles O2: the fields that stand at their reset values by the reset of each block, the rest by the device reset. -/
theorem deviceResetValues : Obligations.DeviceResetValues := by
  intro s stepMade
  have ports (p : PortId) : (s.deviceReset stepMade).port p = .reset := by cases p <;> rfl
  have playbacks (p : PbId) : (s.deviceReset stepMade).pb p = .reset := State.pb_reset p
  have lines (l : Fin 6) : (s.deviceReset stepMade).line l = .reset := State.line_reset l
  have groups (g : Fin 4) : (s.deviceReset stepMade).patch.groups.get g = .reset := State.groups_reset g
  have stages (n : Fin 3) : (s.deviceReset stepMade).cas.stages.get n = .reset := State.stages_reset n
  have inputs := s.inputs_deviceReset stepMade
  refine ⟨_, rfl, fun p => ?_, rfl, rfl, rfl, rfl, rfl, rfl, rfl, rfl, rfl, rfl, rfl, rfl, rfl, fun g => ?_, playbacks, rfl,
    rfl, fun l => ?_, rfl, rfl, rfl, rfl, rfl, rfl, rfl, rfl, rfl, rfl, rfl, stages, rfl, rfl, rfl, rfl, rfl, rfl, rfl, rfl,
    rfl, rfl, rfl, rfl, rfl, rfl, rfl, rfl, rfl, fun i => ?_, fun h => ?_, fun h => ?_, fun w ws damaged hop hq h => ?_,
    rfl, rfl⟩
  · rw [ports]; exact ⟨rfl, rfl, rfl, rfl, rfl, rfl, rfl⟩
  · rw [groups]; exact ⟨rfl, rfl, rfl⟩
  · rw [lines]; exact ⟨rfl, rfl, rfl, rfl, rfl, rfl, rfl, rfl, rfl, rfl⟩
  · rw [inputs]; exact ⟨rfl, rfl, rfl, rfl⟩
  · exact State.storeAtReset_kept (.inl h)
  · exact State.storeAtReset_kept (.inr h)
  · subst h; exact State.storeAtReset_landed damaged hop hq

end Sys2Proof.Machine

namespace Sys2Proof.Machine

namespace State

/-! ### The decision of the role -/

theorem decideRole_decided {s : State} (h : s.cas.role ≠ .undecided) (d : Bool) : s.decideRole d = s := if_neg h

theorem decideRole_seen {s : State} (h : s.cas.role = .undecided) : s.decideRole true = s.becomeFollower := if_pos h

theorem decideRole_unseen {s : State} (h : s.cas.role = .undecided) : s.decideRole false = s.becomeLeader := if_pos h

/-- A line that is handed its settings starts with them, an enabled one as SEEKING with its clock running (R130, R132). -/
theorem start_of_settings {l : Line} {x : LineSettings} (h : l.settings = some x) :
    l.start = if x.enabled then
        { l with monitor := .seeking, goodRun := 0, badRun := 0, rack := none, clock := some (if x.slow then 40 else 20) }
      else l := by
  unfold Line.start
  rw [h]
  dsimp only
  split
  · rw [Line.enable, ← h]; rfl
  · rfl

theorem all_settings {s : State} (h : ∀ l, (s.line l).settings.isSome = true) :
    s.outp.lines.toList.all (fun x => x.settings.isSome) = true := by
  simp only [Six.toList, List.all_cons, List.all_nil, Bool.and_true, Bool.and_eq_true]
  exact ⟨h 0, h 1, h 2, h 3, h 4, h 5⟩

/-- A leader with nothing held back and every line handed its settings starts its lines (R2, R130). -/
theorem becomeLeader_starts {s : State} (hheld : s.ctl.held = []) (hst : s.outp.started = false)
    (hall : ∀ l, (s.line l).settings.isSome = true) :
    s.becomeLeader.cas.role = .leader ∧ ∀ l, s.becomeLeader.line l = (s.line l).start := by
  have starts : s.becomeLeader = ({ s with
      cas := { s.cas with role := .leader }, ctl := { s.ctl with held := [] },
      outp := { s.outp with started := true, lines := s.outp.lines.map Line.start } } : State) := by
    unfold becomeLeader startLines
    rw [hheld]
    exact if_pos ⟨rfl, hst, all_settings hall⟩
  rw [starts]
  exact ⟨rfl, fun l => Six.get_map _ _ _⟩

end State

/-- Settles O3: the two outcomes of the decision are its definition; the lines start each by its own settings. -/
theorem roleIsDecidedOnce : Obligations.RoleIsDecidedOnce := by
  intro s
  refine ⟨fun h => ?_, fun h => ?_, fun h hheld hst hall => ?_, fun h d => ?_⟩
  · exact congrArg Host.Outcome.next (State.decideRole_seen h)
  · exact congrArg Host.Outcome.next (State.decideRole_unseen h)
  · obtain ⟨hrole, hlines⟩ := State.becomeLeader_starts hheld hst hall
    refine ⟨_, congrArg Host.Outcome.next (State.decideRole_unseen h), hrole, fun l x hx => ?_⟩
    rw [hlines, State.start_of_settings hx]
  · exact congrArg Host.Outcome.next (State.decideRole_decided h d)

namespace State

/-! ### Start-up reads -/

/-- What a start-up read that has ended leaves: the next one due, or none after the last (R2, R3). -/
def afterRead (v : State) (i : Nat) : State :=
  if i < 46 then { v with ctl := { v.ctl with startUp := some (i + 1) } }
  else { v with ctl := { v.ctl with startUp := none, houseFailed := !v.ctl.failed.isEmpty } }

theorem endStartUpRead_house {s : State} {i : Nat} (h : i ≤ 42) (passes : Bool) :
    s.endStartUpRead i passes = ((s.freePort.houseRead i passes).afterRead i).settle := by
  unfold endStartUpRead; dsimp only; rw [if_pos h]; rfl

theorem endStartUpRead_header {s : State} {i : Nat} (b : Bank) (h : i = 43 + b.val) (passes : Bool) :
    s.endStartUpRead i passes = ((s.freePort.headerRead b passes).afterRead i).settle := by
  have hb : Fin.ofNat 4 (i - 43) = b := by
    subst h; ext; simp
  unfold endStartUpRead
  dsimp only
  rw [if_neg (show ¬ i ≤ 42 by omega), hb]; rfl

theorem exec_startUpReadDone {s : State} {i : Nat} {a : StoreAnswer} (h : s.ctl.op = some (.startUp i)) (ha : a ≠ .busy) :
    exec (.startUpReadDone a) s = .next (s.endStartUpRead i (a = .done true)) := by
  show Host.Outcome.next (s.startUpDone a) = _
  unfold startUpDone
  rw [h]
  cases a with
  | busy => exact absurd rfl ha
  | done b => rfl
  | notDone => rfl

/-- The end of a start-up read changes of the Store Controller's records only what the read itself has. -/
theorem settle_afterRead (v : State) (i : Nat) :
    (v.afterRead i).settle.ctl.held = v.ctl.held ∧ (v.afterRead i).settle.ctl.failed = v.ctl.failed
      ∧ (v.afterRead i).settle.ctl.ram = v.ctl.ram ∧ (v.afterRead i).settle.ctl.proj = v.ctl.proj
      ∧ (v.afterRead i).settle.inside = ({ v with ctl := (v.afterRead i).settle.ctl }).inside := by
  obtain ⟨hheld, hfailed, hram, hproj, -, -⟩ := arbitrate_kept (v.afterRead i)
  have hctl : (v.afterRead i).settle.ctl = (v.afterRead i).arbitrate.ctl := pump_ctl _
  have hin := inside_settle (v.afterRead i)
  rw [hctl] at hin ⊢
  rw [hheld, hfailed, hram, hproj, hin]
  unfold afterRead
  split <;> exact ⟨rfl, rfl, rfl, rfl, rfl⟩

/-- The read that follows is granted at once (R2). -/
theorem settle_afterRead_next {v : State} {i : Nat} (hop : v.ctl.op = none) (hi : i < 46) :
    (v.afterRead i).settle.ctl.op = some (.startUp (i + 1)) ∧ (v.afterRead i).settle.ctl.startUp = some (i + 1) := by
  have hctl : (v.afterRead i).settle.ctl = (v.afterRead i).arbitrate.ctl := pump_ctl _
  have due : v.afterRead i = { v with ctl := { v.ctl with startUp := some (i + 1) } } := if_pos hi
  have granted := arbitrate_startUp (s := v.afterRead i) (i := i + 1) (by rw [due]; exact hop) (by rw [due])
  rw [hctl, granted, due]
  exact ⟨rfl, rfl⟩

/-- After the last read the Bank Controller is told whether an item has failed (R3). -/
theorem settle_afterRead_last {v : State} {i : Nat} (hi : i = 46) :
    (v.afterRead i).settle.ctl.startUp = none ∧ (v.afterRead i).settle.ctl.houseFailed = !v.ctl.failed.isEmpty := by
  have hctl : (v.afterRead i).settle.ctl = (v.afterRead i).arbitrate.ctl := pump_ctl _
  have last : v.afterRead i = { v with ctl := { v.ctl with startUp := none, houseFailed := !v.ctl.failed.isEmpty } } :=
    if_neg (by omega)
  obtain ⟨-, -, -, -, hst, hfl⟩ := arbitrate_kept (v.afterRead i)
  rw [hctl, hst, hfl, last]
  exact ⟨rfl, rfl⟩

theorem houseRead_op (s : State) (i : Nat) (passes : Bool) : (s.houseRead i passes).ctl.op = s.ctl.op := by
  unfold houseRead
  split
  · exact op_of_claims (claims_handOver _ _)
  · exact (op_of_claims (claims_handOver _ _)).trans rfl

/-- The house items listed as failed grow by one (R2). -/
def listFailed (s : State) (i : Nat) : State := { s with ctl := { s.ctl with failed := s.ctl.failed ++ [i] } }

theorem houseRead_passes {s : State} {i : Nat} {item : HouseItem} (h : s.storedItem i = some item) :
    s.freePort.houseRead i true = s.freePort.handOver (.item item false) := by
  have h : s.freePort.storedItem i = some item := h
  unfold houseRead; rw [h]

/-- A start-up read does not pass where it has not been performed, its checks fail, or the store holds none that passes. -/
def ReadFails (s : State) (i : Nat) (a : StoreAnswer) : Prop :=
  a = .done false ∨ a = .notDone ∨ (a = .done true ∧ s.storedItem i = none)

theorem houseRead_failed {s : State} {i : Nat} {a : StoreAnswer} (h : s.ReadFails i a) :
    a ≠ .busy ∧ s.freePort.houseRead i (a = .done true) =
      (s.freePort.listFailed i).handOver (.item (defaultItem i) false) := by
  rcases h with rfl | rfl | ⟨rfl, h⟩
  · exact ⟨by decide, houseRead_fails _ _⟩
  · exact ⟨by decide, houseRead_fails _ _⟩
  · have h : s.freePort.storedItem i = none := h
    refine ⟨by decide, ?_⟩
    unfold houseRead; rw [h]; rfl

/-- An item that is held back while the role is undecided joins what is held, and changes nothing else (R2). -/
theorem held_settles {s u : State} {i : Nat} (x : Held) (c : StoreCtl) (hu : u = { s with ctl := c })
    (hr : s.cas.role = .undecided) :
    let t := ((u.handOver x).afterRead i).settle
    t.ctl.held = u.ctl.held ++ [x] ∧ t.ctl.failed = u.ctl.failed ∧ t.inside = ({ s with ctl := t.ctl }).inside := by
  subst hu
  have held : ({ s with ctl := c } : State).handOver x = { s with ctl := { c with held := c.held ++ [x] } } := by
    unfold handOver; rw [hr]
  obtain ⟨hheld, hfailed, -, -, hin⟩ := settle_afterRead (({ s with ctl := c } : State).handOver x) i
  exact ⟨hheld.trans (by rw [held]), hfailed.trans (by rw [held]), hin.trans (by rw [held])⟩

/-- An item that is handed over on a part that is not the leader is dropped (R2). -/
theorem dropped_settles {s u : State} {i : Nat} (x : Held) (c : StoreCtl) (hu : u = { s with ctl := c })
    (hr : s.isFollower = true) :
    let t := ((u.handOver x).afterRead i).settle
    t.ctl.held = u.ctl.held ∧ t.ctl.failed = u.ctl.failed ∧ t.inside = ({ s with ctl := t.ctl }).inside := by
  subst hu
  have dropped : ({ s with ctl := c } : State).handOver x = { s with ctl := c } := by
    unfold handOver
    unfold isFollower at hr
    cases h : s.cas.role <;> simp_all
  obtain ⟨hheld, hfailed, -, -, hin⟩ := settle_afterRead (({ s with ctl := c } : State).handOver x) i
  exact ⟨hheld.trans (by rw [dropped]), hfailed.trans (by rw [dropped]), hin.trans (by rw [dropped])⟩

theorem handOver_leader {s : State} (h : s.cas.role = .leader) (item : HouseItem) :
    s.handOver (.item item false) = s.deliver item false := by
  unfold handOver; rw [h]; rfl

/-- Whether an item has been handed over does not depend on the Store Controller. -/
theorem hasHanded_setCtl {s : State} {item : HouseItem} {t : State} (c : StoreCtl)
    (h : ({ s with ctl := c } : State).HasHanded item t) : s.HasHanded item t := by
  cases item <;> exact h

/-- An item handed over on a leader stands in its block; the Store Controller's records are those before it (R2). -/
theorem handed_settles {s u : State} {i : Nat} {item : HouseItem} (c : StoreCtl) (hu : u = { s with ctl := c })
    (hr : s.cas.role = .leader) :
    let t := ((u.handOver (.item item false)).afterRead i).settle
    t.ctl.held = u.ctl.held ∧ t.ctl.failed = u.ctl.failed ∧ s.HasHanded item t := by
  intro t
  have hrole : u.cas.role = .leader := by rw [hu]; exact hr
  obtain ⟨hheld, hfailed, -, -, hin⟩ := settle_afterRead (u.handOver (.item item false)) i
  have hd := handOver_leader hrole item
  refine ⟨hheld.trans ?_, hfailed.trans ?_, ?_⟩
  · rw [hd, deliver_ctl]
  · rw [hd, deliver_ctl]
  · subst hu
    exact hasHanded_setCtl c (deliver_hasHanded _ item t _ hd hin)

/-- A header read leaves the bank with the header read, or BLANK where it does not pass (R3). -/
theorem headerRead_settles (s : State) (b : Bank) (i : Nat) (passes : Bool) (h : Header)
    (hh : (s.freePort.headerRead b passes) = (s.freePort.setRam b h).setProj b h) :
    let t := ((s.freePort.headerRead b passes).afterRead i).settle
    t.ram b = h ∧ t.proj b = h ∧ t.ctl.held = s.ctl.held ∧ t.ctl.failed = s.ctl.failed
      ∧ t.inside = ({ s with ctl := t.ctl }).inside := by
  intro t
  obtain ⟨hheld, hfailed, hram, hproj, hin⟩ := settle_afterRead (s.freePort.headerRead b passes) i
  rw [hh] at hheld hfailed hram hproj hin
  refine ⟨?_, ?_, ?_, ?_, ?_⟩
  · show t.ctl.ram.get b = h
    simp only [t, hh, hram]; exact Four.get_set_same _ _ _
  · show t.ctl.proj.get b = h
    simp only [t, hh, hproj]; exact Four.get_set_same _ _ _
  · simp only [t, hh, hheld]; rfl
  · simp only [t, hh, hfailed]; rfl
  · simp only [t, hh, hin]; rfl

theorem headerRead_passes {s : State} {b : Bank} {h : Header} (hs : s.storedHeader b = some h) :
    s.freePort.headerRead b true = (s.freePort.setRam b h).setProj b h := by
  have hs : s.freePort.storedHeader b = some h := hs
  unfold headerRead; rw [hs]

theorem headerRead_failed {s : State} {b : Bank} {a : StoreAnswer}
    (h : a = .done false ∨ a = .notDone ∨ (a = .done true ∧ s.storedHeader b = none)) :
    a ≠ .busy ∧ s.freePort.headerRead b (a = .done true) = (s.freePort.setRam b .blank).setProj b .blank := by
  have fails : s.freePort.headerRead b false = (s.freePort.setRam b .blank).setProj b .blank := by
    unfold headerRead; cases s.freePort.storedHeader b <;> rfl
  rcases h with rfl | rfl | ⟨rfl, h⟩
  · exact ⟨by decide, fails⟩
  · exact ⟨by decide, fails⟩
  · have h : s.freePort.storedHeader b = none := h
    refine ⟨by decide, ?_⟩
    unfold headerRead; rw [h]

end State

/-- The defaults of the house items are those of Table 1-1. -/
theorem defaultItem_table :
    [0, 1, 2, 3, 4, 5, 13, 14].map defaultItem = [.resident none, .silence 20, .policy .freeze, .safeFade 30, .backTime 20,
          .lamp 100, .groups ⟨⟨[], 0⟩, ⟨[], 0⟩, ⟨[], 0⟩, ⟨[], 0⟩⟩, .safeLook []]
    ∧ (∀ n, 1 ≤ n → n ≤ 7 → defaultItem (5 + n) = .curve n ((List.range 21).map (fun k => k * 65535 / 20)))
    ∧ (∀ stage l, stage ≤ 3 → 1 ≤ l → l ≤ 6 → defaultItem (15 + 6 * stage + (l - 1)) =
        .line stage l { enabled := true, slow := false, wide := false })
    ∧ ∀ k : Fin 4, defaultItem (39 + k.val) = .input k { enabled := false, playback := 0, action := .go } := by
  refine ⟨rfl, fun n h1 h7 => ?_, fun stage l hst h1 h6 => ?_, fun k => ?_⟩
  · interval_cases n <;> rfl
  · interval_cases stage <;> interval_cases l <;> rfl
  · fin_cases k <;> rfl

/-- A read hands over a value exactly where it stands with the check value of its bytes (R6). -/
theorem Checked.read_iff {α : Type} {bytes : α → List Byte} {x : Option (Checked α)} {v : α} :
    Checked.read bytes x = some v ↔ ∃ c, x = some c ∧ c.value = v ∧ c.check = crc32 (bytes v) := by
  rw [Checked.read_eq_some]
  exact exists_congr fun c => and_congr_right fun _ => and_comm

/-- Settles O4: a read that ends is handed over by the role of the part, then the next is due. -/
theorem startUpReads : Obligations.StartUpReads := by
  intro s i hop
  have done {a : StoreAnswer} {post : State → Prop} (ha : a ≠ .busy)
      (h : post (s.endStartUpRead i (a = .done true))) : Runs (.startUpReadDone a) s post :=
    ⟨_, State.exec_startUpReadDone hop ha, h⟩
  refine ⟨?_, fun a ha hi => ?_, fun hi hrole => ⟨fun item hs => ?_, fun a ha => ?_⟩,
    fun hi hrole => ⟨fun item hs => ?_, fun a ha => ?_⟩, fun hi hrole => ⟨fun item hs => ?_, fun a ha => ?_⟩,
    fun b hb => ⟨fun h hs => ?_, fun a ha => ?_⟩, fun hi => ?_, defaultItem_table, fun item => ?_, fun b h => ?_⟩
  · show Host.Outcome.next (s.startUpDone .busy) = .next s
    unfold State.startUpDone; rw [hop]
  · refine done ha ?_
    rcases Nat.lt_or_ge 42 i with h | h
    · rw [State.endStartUpRead_header (i := i) ⟨i - 43, by omega⟩ (by show i = 43 + (i - 43); omega)]
      exact State.settle_afterRead_next rfl hi
    · rw [State.endStartUpRead_house h]
      exact State.settle_afterRead_next (State.houseRead_op _ _ _) hi
  · refine done (by decide) ?_
    rw [State.endStartUpRead_house hi, show decide (StoreAnswer.done true = .done true) = true from rfl,
      State.houseRead_passes hs]
    exact State.held_settles _ _ rfl hrole
  · obtain ⟨hb, hread⟩ := State.houseRead_failed ha
    refine done hb ?_
    rw [State.endStartUpRead_house hi, hread]
    exact State.held_settles _ _ rfl hrole
  · refine done (by decide) ?_
    rw [State.endStartUpRead_house hi, show decide (StoreAnswer.done true = .done true) = true from rfl,
      State.houseRead_passes hs]
    exact State.handed_settles _ rfl hrole
  · obtain ⟨hb, hread⟩ := State.houseRead_failed ha
    refine done hb ?_
    rw [State.endStartUpRead_house hi, hread]
    exact State.handed_settles _ rfl hrole
  · refine done (by decide) ?_
    rw [State.endStartUpRead_house hi, show decide (StoreAnswer.done true = .done true) = true from rfl,
      State.houseRead_passes hs]
    exact State.dropped_settles _ _ rfl hrole
  · obtain ⟨hb, hread⟩ := State.houseRead_failed ha
    refine done hb ?_
    rw [State.endStartUpRead_house hi, hread]
    exact State.dropped_settles _ _ rfl hrole
  · refine done (by decide) ?_
    rw [State.endStartUpRead_header b hb]
    exact State.headerRead_settles s b i _ h (State.headerRead_passes hs)
  · obtain ⟨hbusy, hread⟩ := State.headerRead_failed ha
    refine done hbusy ?_
    rw [State.endStartUpRead_header b hb]
    exact State.headerRead_settles s b i _ _ hread
  · refine done (by decide) ?_
    rw [State.endStartUpRead_header (3 : Fin 4) hi]
    exact State.settle_afterRead_last hi
  · rw [State.storedItem, Checked.read_iff]
  · rw [State.storedHeader, Checked.read_iff]

end Sys2Proof.Machine

namespace Sys2Proof.Machine

namespace State

/-! ### The taking of a request, from its general checks to its reply -/

section Taking

variable {β : Type} {s : State} {p : PortId} {code : Nat} {r : Request} {rest : List Request}
  {parse : List Byte → Except Status β} {work : State → Requester → β → State}

theorem headRequest_of_head (h : s.Head p code r rest) : s.headRequest p = some (r, rest) := by
  obtain ⟨hq, -, howed⟩ := h
  simp [headRequest, hq, Config.owedReplies, howed]

theorem kind_of_head (hc : code < 256) (h : s.Head p code r rest) : r.kind.toNat = code := by
  simp [h.2.1, BitVec.toNat_ofNat, Nat.mod_eq_of_lt hc]

/-- A request that one of the first three general checks refuses (R169). -/
theorem takeRequest_gated {st : Status} (hc : code < 256) (h : s.Head p code r rest) (hg : s.gate p code = some st) :
    s.takeRequest p code parse work = ((s.takeOff p rest).answer (requesterOf p r) st []).pump := by
  simp [takeRequest, headRequest_of_head h, kind_of_head hc h, hg, requesterOf]

/-- A request whose body fails its checks is refused, whether or not it would have to wait (R167, R169). -/
theorem takeRequest_refused {st : Status} (hc : code < 256) (h : s.Head p code r rest) (hg : s.gate p code = none)
    (hp : parse r.body = .error st) :
    s.takeRequest p code parse work = ((s.takeOff p rest).answer (requesterOf p r) st []).pump := by
  simp [takeRequest, headRequest_of_head h, kind_of_head hc h, hg, hp, requesterOf]

/-- A request that passes the general checks and has to wait stays at the head of its queue (R167). -/
theorem takeRequest_waits {v : β} (hc : code < 256) (h : s.Head p code r rest) (hg : s.gate p code = none)
    (hp : parse r.body = .ok v) (hw : s.mustWait code = true) : s.takeRequest p code parse work = s := by
  simp [takeRequest, headRequest_of_head h, kind_of_head hc h, hg, hp, hw]

theorem takeRequest_owing (h : 13 ≤ (s.port p).owed) : s.takeRequest p code parse work = s := by
  have none_taken : s.headRequest p = none := by
    unfold headRequest
    split
    · rfl
    · exact if_neg (Nat.not_lt.mpr h)
  simp [takeRequest, none_taken]

theorem takeRequest_empty (h : (s.port p).requests = []) : s.takeRequest p code parse work = s := by
  simp [takeRequest, headRequest, h]

theorem takeRequest_other (hq : (s.port p).requests = r :: rest) (hk : r.kind.toNat ≠ code) :
    s.takeRequest p code parse work = s := by
  unfold takeRequest headRequest
  rw [hq]
  dsimp only
  split
  · rfl
  · rename_i h
    split_ifs at h
    cases h
    rw [if_pos hk]

end Taking

/-- A request answered once its work has left the ports and the reports alone (R168). -/
theorem replies_answer {s u : State} {p : PortId} {r : Request} {rest : List Request} (st : Status) (b : List Byte)
    (hp : u.port p = (s.takeOff p rest).port p) (ho : u.port (otherPort p) = s.port (otherPort p)) (hl : u.link = s.link) :
    s.Replies (u.answer (requesterOf p r) st b).pump p r rest st b u :=
  ⟨answered_of s u p r rest st b hp ho, keepsReports_pump s _ (by rw [answer_link, hl]) (by rw [answer_link, hl]), by simp⟩

theorem refuses_of {c : Instr} {s : State} {p : PortId} {r : Request} {rest : List Request} {st : Status}
    (h : exec c s = .next ((s.takeOff p rest).answer (requesterOf p r) st []).pump) : Refuses c s p r rest st := by
  obtain ⟨ha, hk, hi⟩ := replies_answer (r := r) (s := s) (u := s.takeOff p rest) st [] rfl (takeOff_port s p rest).2 (by simp)
  exact ⟨_, h, ha, hk, hi.trans (inside_takeOff s p rest)⟩

end State

/-! ### The requests of Table 10-2 -/

/-- A command is the taking of a request of a kind: the checks of its body, and the work of its rule (R167, R169). -/
structure TakenAs (c : Instr) (p : PortId) (code : Nat) : Prop where
  small : code < 256
  taken : ∃ (β : Type) (parse : List Byte → Except Status β) (work : State → Requester → β → State),
    (code = 0x01 ∨ Checks code parse) ∧ ∀ s, exec c s = .next (s.takeRequest p code parse work)

theorem takenAs_of {β : Type} {c : Instr} {p : PortId} {code : Nat} {parse : List Byte → Except Status β}
    (work : State → Requester → β → State) (hc : code < 256) (hk : Checks code parse)
    (hx : ∀ s, exec c s = .next (s.takeRequest p code parse work)) : TakenAs c p code :=
  ⟨hc, β, parse, work, .inr hk, hx⟩

/-- Every request row of the table is the taking of a request of its kind, with the body checks of R169. -/
theorem takenAs_of_requestOf {c : Instr} {p : PortId} {code : Nat} (h : requestOf c = some (p, code)) :
    TakenAs c p code := by
  cases c <;> cases h
  case ping => exact ⟨by decide, _, _, _, .inl rfl, fun _ => rfl⟩
  case status => exact takenAs_of _ (by decide) (checks_none _ (by decide)) fun _ => rfl
  case levelsRead => exact takenAs_of _ (by decide) checks_levelsRead fun _ => rfl
  case circuitRead => exact takenAs_of _ (by decide) checks_circuitRead fun _ => rfl
  case playbackRead => exact takenAs_of _ (by decide) (checks_playback _ (by decide)) fun _ => rfl
  case rackRead => exact takenAs_of _ (by decide) checks_rackRead fun _ => rfl
  case stageRead => exact takenAs_of _ (by decide) checks_stageRead fun _ => rfl
  case cueRead => exact takenAs_of _ (by decide) checks_cueRead fun _ => rfl
  case listRead => exact takenAs_of _ (by decide) checks_listRead fun _ => rfl
  case bankInfo => exact takenAs_of _ (by decide) (checks_bank _ (by decide)) fun _ => rfl
  case patchRead => exact takenAs_of _ (by decide) checks_patchRead fun _ => rfl
  case faultsRead => exact takenAs_of _ (by decide) (checks_none _ (by decide)) fun _ => rfl
  case faultRecordRead => exact takenAs_of _ (by decide) (checks_none _ (by decide)) fun _ => rfl
  case houseRead => exact takenAs_of _ (by decide) checks_houseRead fun _ => rfl
  case slotRead => exact takenAs_of _ (by decide) checks_slotRead fun _ => rfl
  case cueOpen => exact takenAs_of _ (by decide) checks_cueOpen fun _ => rfl
  case cueAdd => exact takenAs_of _ (by decide) checks_cueAdd fun _ => rfl
  case cueClose => exact takenAs_of _ (by decide) (checks_none _ (by decide)) fun _ => rfl
  case cueAbandon => exact takenAs_of _ (by decide) (checks_none _ (by decide)) fun _ => rfl
  case cueDelete => exact takenAs_of _ (by decide) checks_cueDelete fun _ => rfl
  case patchSet => exact takenAs_of _ (by decide) checks_patchSet fun _ => rfl
  case windowSet => exact takenAs_of _ (by decide) checks_windowSet fun _ => rfl
  case bankTitle => exact takenAs_of _ (by decide) checks_bankTitle fun _ => rfl
  case record => exact takenAs_of _ (by decide) checks_record fun _ => rfl
  case go => exact takenAs_of _ (by decide) checks_go fun _ => rfl
  case back => exact takenAs_of _ (by decide) (checks_playback _ (by decide)) fun _ => rfl
  case hold => exact takenAs_of _ (by decide) (checks_playback _ (by decide)) fun _ => rfl
  case resume => exact takenAs_of _ (by decide) (checks_playback _ (by decide)) fun _ => rfl
  case jump => exact takenAs_of _ (by decide) checks_jump fun _ => rfl
  case release => exact takenAs_of _ (by decide) checks_release fun _ => rfl
  case master => exact takenAs_of _ (by decide) checks_master fun _ => rfl
  case park => exact takenAs_of _ (by decide) checks_park fun _ => rfl
  case unpark => exact takenAs_of _ (by decide) checks_unpark fun _ => rfl
  case faultClear => exact takenAs_of _ (by decide) checks_faultClear fun _ => rfl
  case faultAck => exact takenAs_of _ (by decide) (checks_none _ (by decide)) fun _ => rfl
  case changeover => exact takenAs_of _ (by decide) checks_changeover fun _ => rfl
  case changeoverCancel => exact takenAs_of _ (by decide) (checks_none _ (by decide)) fun _ => rfl
  case bankErase => exact takenAs_of _ (by decide) (checks_bank _ (by decide)) fun _ => rfl
  case houseSet => exact takenAs_of _ (by decide) checks_houseSet fun _ => rfl
  case curveSet => exact takenAs_of _ (by decide) checks_curveSet fun _ => rfl
  case houseCircuitsSet => exact takenAs_of _ (by decide) checks_houseCircuitsSet fun _ => rfl
  case safeLookSet => exact takenAs_of _ (by decide) checks_safeLookSet fun _ => rfl
  case lineSet => exact takenAs_of _ (by decide) checks_lineSet fun _ => rfl
  case inputSet => exact takenAs_of _ (by decide) checks_inputSet fun _ => rfl
  case houseFade => exact takenAs_of _ (by decide) checks_houseFade fun _ => rfl
  case blackout => exact takenAs_of _ (by decide) checks_blackout fun _ => rfl
  case lineHold => exact takenAs_of _ (by decide) checks_lineHold fun _ => rfl
  case accessSet => exact takenAs_of _ (by decide) checks_accessSet fun _ => rfl
  case lossClear => exact takenAs_of _ (by decide) (checks_none _ (by decide)) fun _ => rfl
  case restart => exact takenAs_of _ (by decide) (checks_none _ (by decide)) fun _ => rfl

/-- The kinds that need the Store Controller, as R167 lists them. -/
theorem needsStore_iff (code : Nat) : needsStore code = true ↔ code ∈ [0x20, 0x21, 0x22, 0x23, 0x24, 0x25, 0x26, 0x27, 0x28,
    0x52, 0x53, 0x54, 0x55, 0x56, 0x57, 0x58, 0x08, 0x09, 0x0A, 0x0B] := by
  simp only [needsStore, Bool.or_eq_true, Bool.and_eq_true, decide_eq_true_eq, List.mem_cons, List.not_mem_nil, or_false]
  omega

/-- A body that passes its checks is read, one that does not is refused BAD_LENGTH or BAD_VALUE (R169). -/
theorem checks_cases {β : Type} {code : Nat} {parse : List Byte → Except Status β} (h : Checks code parse) (b : List Byte) :
    (bodyPasses code b = true ∧ ∃ v, parse b = .ok v)
      ∨ (bodyPasses code b = false ∧ (parse b = .error .badLength ∨ parse b = .error .badValue)) := by
  obtain ⟨hlen, hval, hok⟩ := h b
  cases hp : bodyPasses code b with
  | true => exact .inl ⟨rfl, hok hp⟩
  | false =>
    refine .inr ⟨rfl, ?_⟩
    cases hf : bodyFits code b with
    | false => exact .inl (hlen hf)
    | true =>
      simp only [bodyPasses, hf, Bool.true_and, Bool.not_eq_false'] at hp
      exact .inr (hval hf hp)

/-- Settles O11: a request waits, or is refused, by the outcome of its body checks (`checks_cases`). -/
theorem requestsAreTakenInTurn : Obligations.RequestsAreTakenInTurn := by
  refine ⟨fun c p code s h => ?_, fun c p code s r rest h hneeds hstart hhead hgate => ?_, needsStore_iff,
    fun s p r rest => ⟨fun b hstart hhead hgate hbody hb => ?_, fun hstart hhead hgate hbody => ?_,
      fun hdec hhead hgate hbody => ?_, fun b m hdec hhead hgate hbody hb hm => ?_⟩⟩
  · obtain ⟨-, β, parse, work, -, hx⟩ := takenAs_of_requestOf h
    rw [hx]
    exact ⟨fun ho => by rw [State.takeRequest_owing ho], fun hq => by rw [State.takeRequest_empty hq],
      fun r rest hq hk => by rw [State.takeRequest_other hq hk]⟩
  · obtain ⟨hc, β, parse, work, hk, hx⟩ := takenAs_of_requestOf h
    have hk : Checks code parse := hk.resolve_left fun he => by rw [he] at hneeds; cases hneeds
    have hw : s.mustWait code = true := by simp [State.mustWait, hneeds, hstart]
    rcases checks_cases hk r.body with ⟨hpass, v, hv⟩ | ⟨hpass, hbad⟩
    · exact ⟨fun _ => by rw [hx, State.takeRequest_waits hc hhead hgate hv hw], fun hf => absurd (hpass.symm.trans hf) (by decide)⟩
    · refine ⟨fun ht => absurd (hpass.symm.trans ht) (by decide), fun _ => ?_⟩
      exact hbad.imp (fun hv => State.refuses_of (by rw [hx, State.takeRequest_refused hc hhead hgate hv]))
        (fun hv => State.refuses_of (by rw [hx, State.takeRequest_refused hc hhead hgate hv]))
  · have hv : ∃ v, parseBank r.body = .ok v := by rw [hbody]; interval_cases b <;> exact ⟨_, rfl⟩
    obtain ⟨v, hv⟩ := hv
    exact congrArg Host.Outcome.next
      (State.takeRequest_waits (by decide) hhead hgate hv (by simp [State.mustWait, hstart, needsStore]))
  · have hv : parseNone r.body = .ok () := by rw [hbody]; rfl
    exact congrArg Host.Outcome.next
      (State.takeRequest_waits (by decide) hhead hgate hv (by simp [State.mustWait, hstart, needsStore]))
  · have hv : parseNone r.body = .ok () := by rw [hbody]; rfl
    exact congrArg Host.Outcome.next
      (State.takeRequest_waits (by decide) hhead hgate hv (by simp [State.mustWait, hdec, needsDecision]))
  · have hv : ∃ v, parseChangeover r.body = .ok v := by
      rw [hbody]; interval_cases b <;> interval_cases m <;> exact ⟨_, rfl⟩
    obtain ⟨v, hv⟩ := hv
    exact congrArg Host.Outcome.next
      (State.takeRequest_waits (by decide) hhead hgate hv (by simp [State.mustWait, hdec, needsDecision]))

end Sys2Proof.Machine

namespace Sys2Proof.Machine

/-! ### The fields of a body -/

theorem byteAt_cons_zero (x : Byte) (l : List Byte) : byteAt (x :: l) 0 = x.toNat := rfl

theorem byteAt_cons_succ (x : Byte) (l : List Byte) (i : Nat) : byteAt (x :: l) (i + 1) = byteAt l i := rfl

theorem toNat_byte (n : Nat) : (byte n).toNat = n % 256 := BitVec.toNat_ofNat n 8

theorem bank?_val (b : Bank) : bank? b.val = some b := by simp [bank?]

theorem idx4_num (l : PbId) : idx4 (num l) = some l := by simp [idx4, num]

/-- A bank byte of a body reads as its bank. -/
theorem bank?_byteAt (b : Bank) (l : List Byte) : bank? (byteAt (byte b.val :: l) 0) = some b := by
  rw [byteAt_cons_zero, toNat_byte, Nat.mod_eq_of_lt (by omega), bank?_val]

/-- A 2-byte number at the front of a body reads as itself. -/
theorem wordAt_byte {n : Nat} (h : n < 65536) (l : List Byte) : wordAt (byte n :: byte (n / 256) :: l) 0 = n := by
  rw [wordAt, byteAt_cons_zero, byteAt_cons_succ, byteAt_cons_zero, toNat_byte, toNat_byte]
  omega

theorem wordAt_cons_succ (x : Byte) (l : List Byte) (i : Nat) : wordAt (x :: l) (i + 1) = wordAt l i := rfl

/-- The bank and the list in front of a cue request's body read as themselves. -/
theorem bankList_cons (b : Bank) (l : PbId) (rest : List Byte) :
    bankList (byte b.val :: byte (num l) :: rest) = some (b, l) := by
  have hl : byteAt (byte b.val :: byte (num l) :: rest) 1 = num l := by
    rw [byteAt_cons_succ, byteAt_cons_zero, toNat_byte, Nat.mod_eq_of_lt (by simp only [num]; omega)]
  unfold bankList
  rw [bank?_byteAt, hl, idx4_num]

theorem parseListRead_eq (b : Bank) (l : PbId) {after : Nat} (h : after ≤ 9999) :
    parseListRead (b1 b.val ++ b1 (num l) ++ b2 after) = .ok ((b, l), after) := by
  have hw : wordAt (b1 b.val ++ b1 (num l) ++ b2 after) 2 = after := wordAt_byte (by omega) []
  have hb : bankList (b1 b.val ++ b1 (num l) ++ b2 after) = some (b, l) := bankList_cons b l (b2 after)
  unfold parseListRead
  rw [hb, hw, Option.bind_some, if_pos h]
  rfl

theorem parseBank_eq (b : Bank) : parseBank (b1 b.val) = .ok b := by
  have hb : bank? (byteAt (b1 b.val) 0) = some b := bank?_byteAt b []
  unfold parseBank
  rw [hb]; rfl

namespace State

/-! ### What a request answered at once leaves -/

section Answering

variable {β : Type} {c : Instr} {s t u : State} {p : PortId} {code : Nat} {r : Request} {rest : List Request}
  {parse : List Byte → Except Status β} {work : State → Requester → β → State} {v : β} {st : Status} {fields : List Byte}

/-- A request whose work leaves the ports and the reports alone and ends in an answer (R168). -/
theorem does_of (hx : exec c s = .next (s.takeRequest p code parse work)) (hc : code < 256) (ht : s.Takes p code r rest)
    (hp : parse r.body = .ok v)
    (hw : work (s.takeOff p rest) (requesterOf p r) v = t.answer (requesterOf p r) st fields)
    (hport : t.port p = (s.takeOff p rest).port p) (hother : t.port (otherPort p) = s.port (otherPort p))
    (hlink : t.link = s.link) (hi : t.inside = u.inside) : Does c s p r rest st fields u := by
  obtain ⟨ha, hk, hin⟩ := replies_answer (r := r) (s := s) (u := t) st fields hport hother hlink
  exact ⟨_, by rw [hx, takeRequest_takes hc ht hp, hw], ha, hk, hin.trans hi⟩

/-- A request whose work is its answer alone. -/
theorem does_at_once (hx : exec c s = .next (s.takeRequest p code parse work)) (hc : code < 256)
    (ht : s.Takes p code r rest) (hp : parse r.body = .ok v)
    (hw : work (s.takeOff p rest) (requesterOf p r) v = (s.takeOff p rest).answer (requesterOf p r) st fields) :
    Does c s p r rest st fields s :=
  does_of hx hc ht hp hw rfl (takeOff_port s p rest).2 (takeOff_link s p rest) (inside_takeOff s p rest)

/-- A request whose body fails its checks is refused (R169). -/
theorem refuses_body (hx : exec c s = .next (s.takeRequest p code parse work)) (hc : code < 256) (hd : s.Head p code r rest)
    (hg : s.gate p code = none) (hp : parse r.body = .error st) : Refuses c s p r rest st :=
  refuses_of (by rw [hx, takeRequest_refused hc hd hg hp])

/-- A request that the first three general checks refuse (R169). -/
theorem refuses_gate (hx : exec c s = .next (s.takeRequest p code parse work)) (hc : code < 256) (hd : s.Head p code r rest)
    (hg : s.gate p code = some st) : Refuses c s p r rest st :=
  refuses_of (by rw [hx, takeRequest_gated hc hd hg])

end Answering

/-- A request that a port may use, of a kind taken in either state of the engine, passes the general checks (R169). -/
theorem takes_always {s : State} {p : PortId} {code : Nat} {r : Request} {rest : List Request} {g : Group}
    (hd : s.Head p code r rest) (hu : s.MayUse p g) (hk : kindInfo code = some (g, true)) (hw : s.mustWait code = false) :
    s.Takes p code r rest := takes_of g true hd hu hk (.inl rfl) hw

/-- The start-up reads ended, a kind that does not wait for the start-up decision waits for nothing (R167). -/
theorem mustWait_ended {s : State} {code : Nat} (h : s.ctl.startUp = none) (hd : needsDecision code = false) :
    s.mustWait code = false := by simp [mustWait, h, hd]

/-- A kind that needs neither the Store Controller nor the start-up decision waits for nothing (R167). -/
theorem mustWait_free (s : State) {code : Nat} (hn : needsStore code = false) (hd : needsDecision code = false) :
    s.mustWait code = false := by simp [mustWait, hn, hd]

end State

/-! ### LIST_READ -/

theorem listed_length (e : Nat × DirCue) : (listed e).length = 3 + e.2.label.length := by
  simp [listed, bText, b1, b2]; omega

/-- The cues of a LIST_READ reply are the first of the list, as many as fit, and the next one does not fit where neither
the number nor the list has run out (R25). -/
theorem fitting_spec (k room : Nat) (l : List (Nat × DirCue)) : ∃ n, n ≤ k ∧ n ≤ l.length ∧ fitting k room l = l.take n
    ∧ ((l.take n).flatMap listed).length ≤ room
    ∧ (n = k ∨ n = l.length ∨ ∃ e, l[n]? = some e ∧ room < ((l.take n).flatMap listed).length + (listed e).length) := by
  induction k generalizing room l with
  | zero => exact ⟨0, Nat.le_refl _, Nat.zero_le _, by cases l <;> rfl, by simp, .inl rfl⟩
  | succ k ih =>
    cases l with
    | nil => exact ⟨0, Nat.zero_le _, Nat.le_refl _, rfl, by simp, .inr (.inl rfl)⟩
    | cons e rest =>
      unfold fitting
      split_ifs with hfit
      · obtain ⟨n, hk, hn, htake, hroom, hend⟩ := ih (room - (listed e).length) rest
        refine ⟨n + 1, by omega, by simpa using hn, by rw [htake]; rfl, ?_, ?_⟩
        · rw [List.take_succ_cons, List.flatMap_cons, List.length_append]; omega
        · rcases hend with h | h | ⟨x, hx, hlt⟩
          · exact .inl (by omega)
          · exact .inr (.inl (by simpa using h))
          · refine .inr (.inr ⟨x, by simpa using hx, ?_⟩)
            rw [List.take_succ_cons, List.flatMap_cons, List.length_append]; omega
      · exact ⟨0, Nat.zero_le _, Nat.zero_le _, rfl, by simp, .inr (.inr ⟨e, rfl, by simpa using hfit⟩)⟩

namespace State

/-- LIST_READ of a VALID bank answers with the cues that fit (R25). -/
theorem listReadWork_valid {s : State} {b : Bank} (h : (s.proj b).valid = true) (q : Requester) (l : PbId) (after : Nat) :
    let cues := ((s.proj b).dir.get l).filter (fun e => after < e.1)
    let run := fitting 200 1020 cues
    s.listReadWork q ((b, l), after) =
      s.answer q .ok (b2 run.length ++ bBool (decide (run.length < cues.length)) ++ run.flatMap listed) := by
  unfold listReadWork
  exact if_neg (by simp [h])

theorem listReadWork_blank {s : State} {b : Bank} (h : (s.proj b).valid = false) (q : Requester) (l : PbId) (after : Nat) :
    s.listReadWork q ((b, l), after) = s.answer q .blank [] := if_pos h

theorem isTarget_eq (s : State) (b : Bank) : s.isTarget b = (match s.bank.change with
    | some c => decide (c.target = b)
    | none => false) := rfl

theorem proj_takeOff (s : State) (p : PortId) (rest : List Request) (b : Bank) : (s.takeOff p rest).proj b = s.proj b := by
  cases p <;> rfl

end State

/-- Settles O17: each read is its answer alone; the cues of a list are those of `fitting_spec`. -/
theorem listsBanksAndHouseAreRead : Obligations.ListsBanksAndHouseAreRead := by
  refine ⟨fun s p r rest hu hst => ⟨fun b l after hd hbody hafter => ?_, fun b hd hbody => ?_⟩, fun s p r rest hd hu => ?_⟩
  · have ht : s.Takes p 0x09 r rest := State.takes_always hd hu rfl (State.mustWait_ended hst rfl)
    have hp : parseListRead r.body = .ok ((b, l), after) := by rw [hbody]; exact parseListRead_eq b l hafter
    refine ⟨fun hv => State.does_at_once rfl (by decide) ht hp
      (State.listReadWork_blank (by rw [State.proj_takeOff]; exact hv) _ _ _), fun hv => ?_⟩
    obtain ⟨n, hk, hn, htake, hroom, hend⟩ := fitting_spec 200 1020 (((s.proj b).dir.get l).filter (fun e => after < e.1))
    have told : (fun e : Nat × DirCue => b2 e.1 ++ b1 e.2.label.length ++ e.2.label) = listed :=
      funext fun e => List.append_assoc _ _ _
    have hlen : ∀ m x, (b2 m ++ bBool x ++ (List.take n (((s.proj b).dir.get l).filter (fun e => after < e.1))).flatMap
        listed).length = 3 + ((List.take n (((s.proj b).dir.get l).filter (fun e => after < e.1))).flatMap listed).length := by
      intro m x; simp [b2, b1, bBool]; omega
    refine ⟨n, hk, ?_, by simpa using hn, ?_, ?_⟩
    · refine State.does_at_once rfl (by decide) ht hp ?_
      rw [State.listReadWork_valid (by rw [State.proj_takeOff]; exact hv), State.proj_takeOff, htake, told]
    · rw [told, hlen]; omega
    · rw [told, hlen]
      refine hend.imp_right (Or.imp_right ?_)
      rintro ⟨e, he, hlt⟩
      rw [listed_length] at hlt
      exact ⟨e, he, by omega⟩
  · have ht : s.Takes p 0x0A r rest := State.takes_always hd hu rfl (State.mustWait_ended hst rfl)
    refine ⟨Config.bankStateCode, State.does_at_once rfl (by decide) ht (v := b) (by rw [hbody]; exact parseBank_eq b) ?_⟩
    cases p <;> rfl
  · have ht : s.Takes p 0x0E r rest := State.takes_always hd hu rfl (State.mustWait_free s rfl rfl)
    have part {n : Nat} (hbody : r.body = b1 n) (hn : n ≤ 3) : parseHouseRead r.body = .ok n := by
      rw [hbody]; interval_cases n <;> rfl
    refine ⟨fun hlen hval => ?_, fun hb => ?_, fun hb => ?_, fun hb => ?_, fun hb => ?_⟩
    · refine State.refuses_body rfl (by decide) hd ht.2.2.2.1 ?_
      unfold parseHouseRead sized
      rw [if_neg (by simp [hlen]), if_neg (Nat.not_le.mpr hval)]
    · refine State.does_at_once rfl (by decide) ht (part hb (by decide)) ?_
      cases p <;> simp [State.houseReadWork, State.houseSettings] <;> rfl
    · refine State.does_at_once rfl (by decide) ht (part hb (by decide)) ?_
      cases p <;> rfl
    · refine State.does_at_once rfl (by decide) ht (part hb (by decide)) ?_
      cases p <;> rfl
    · refine State.does_at_once rfl (by decide) ht (part hb (by decide)) ?_
      cases p <;> simp [State.houseReadWork]

end Sys2Proof.Machine

namespace Sys2Proof.Machine

theorem parseCueRead_eq (b : Bank) (l : PbId) {n first : Nat} (h1 : 1 ≤ n) (h2 : n ≤ 9999) (h3 : first ≤ 1535) :
    parseCueRead (b1 b.val ++ b1 (num l) ++ b2 n ++ b2 first) = .ok ((b, l), n, first) := by
  have hb : bankList (b1 b.val ++ b1 (num l) ++ b2 n ++ b2 first) = some (b, l) := bankList_cons b l (b2 n ++ b2 first)
  have hn : wordAt (b1 b.val ++ b1 (num l) ++ b2 n ++ b2 first) 2 = n := wordAt_byte (by omega) (b2 first)
  have hf : wordAt (b1 b.val ++ b1 (num l) ++ b2 n ++ b2 first) 4 = first := wordAt_byte (by omega) []
  unfold parseCueRead
  rw [hb, hn, hf, Option.bind_some, if_pos ⟨(isCueNumber_iff n).mpr ⟨h1, h2⟩, h3⟩]
  rfl

namespace State

/-! ### What a free port grants -/

theorem arbitrate_busy {s : State} (h : s.ctl.op ≠ none) : s.arbitrate = s :=
  if_pos (Option.isSome_iff_ne_none.mpr h)

/-- A free port, the start-up reads ended and no list notice waiting, past the fetches (R9). -/
theorem arbitrate_pastFetches {s : State} (hop : s.ctl.op = none) (hst : s.ctl.startUp = none) (hn : s.eng.notices = [])
    (hf : s.firstFetch = none) : s.arbitrate = (match s.loadWaiting with
      | some (b, n) => { s with ctl := { s.ctl with op := some (.load b n true), loadClaim := none } }
      | none => match s.ctl.hostReads with
        | r :: rest => { s with ctl := { s.ctl with op := some (.hostRead r), hostReads := rest } }
        | [] => grantWrite s.ctl.queue.length s) := by
  unfold arbitrate
  rw [if_neg (by simp [hop]), hst]
  dsimp only
  rw [if_neg (by simp [hn]), hf] <;> rfl

theorem firstFetch_eq_none {s : State} (h : ∀ p, s.ctl.fetches.get p = none) : s.firstFetch = none := by
  simp [firstFetch, four, h]

/-- The oldest host read is granted where no fetch and no load step waits (R9). -/
theorem arbitrate_hostRead {s : State} {r : HostRead} {rs : List HostRead} (hop : s.ctl.op = none)
    (hst : s.ctl.startUp = none) (hn : s.eng.notices = []) (hf : ∀ p, s.ctl.fetches.get p = none)
    (hl : s.loadWaiting = none) (hr : s.ctl.hostReads = r :: rs) :
    s.arbitrate = { s with ctl := { s.ctl with op := some (.hostRead r), hostReads := rs } } := by
  rw [arbitrate_pastFetches hop hst hn (firstFetch_eq_none hf), hl, hr]

section Answering

variable {β : Type} {c : Instr} {s t u : State} {p : PortId} {code : Nat} {r : Request} {rest : List Request}
  {parse : List Byte → Except Status β} {work : State → Requester → β → State} {v : β} {st : Status} {fields : List Byte}

/-- A request that may ask for the store port and does not, answered at a calm port, which then grants nothing (R9, R168). -/
theorem does_of_store (hx : exec c s = .next (s.takeStoreRequest p code parse work)) (hc : code < 256)
    (ht : s.Takes p code r rest) (hp : parse r.body = .ok v) (hcalm : s.Calm)
    (hw : work (s.takeOff p rest) (requesterOf p r) v = t.answer (requesterOf p r) st fields)
    (hport : t.port p = (s.takeOff p rest).port p) (hother : t.port (otherPort p) = s.port (otherPort p))
    (hlink : t.link = s.link) (hclaims : t.claims = s.claims) (hi : t.inside = u.inside) : Does c s p r rest st fields u := by
  refine does_of hx hc ht hp ?_ hport hother hlink hi
  rw [hw]
  exact arbitrate_of_calm ((calm_of_claims ((claims_answer _ _ _ _).trans hclaims)).mpr hcalm)

theorem does_at_once_store (hx : exec c s = .next (s.takeStoreRequest p code parse work)) (hc : code < 256)
    (ht : s.Takes p code r rest) (hp : parse r.body = .ok v) (hcalm : s.Calm)
    (hw : work (s.takeOff p rest) (requesterOf p r) v = (s.takeOff p rest).answer (requesterOf p r) st fields) :
    Does c s p r rest st fields s :=
  does_of_store hx hc ht hp hcalm hw rfl (takeOff_port s p rest).2 (takeOff_link s p rest) (claims_takeOff s p rest)
    (inside_takeOff s p rest)

/-- A host read taken at a calm port: it waits where the port is busy or a list notice waits, and is at the port at once
where the port is free (R9, R24; log 50). -/
theorem queueRead_taken (hx : exec c s = .next (s.takeStoreRequest p code parse work)) (hc : code < 256)
    (ht : s.Takes p code r rest) (hp : parse r.body = .ok v) (hcalm : s.Calm) (hst : s.ctl.startUp = none) {rd : HostRead}
    (hw : work (s.takeOff p rest) (requesterOf p r) v = (s.takeOff p rest).queueRead rd) :
    Runs c s (fun t => s.Answered t p rest [] ∧ s.KeepsReports t
      ∧ ((s.ctl.op.isSome = true ∨ s.eng.notices ≠ []) →
          t.inside = ({ s with ctl := { s.ctl with hostReads := s.ctl.hostReads ++ [rd] } }).inside)
      ∧ (s.ctl.op = none → s.eng.notices = [] →
          t.inside = ({ s with ctl := { s.ctl with op := some (.hostRead rd) } }).inside)) := by
  have hq : ((s.takeOff p rest).queueRead rd).ctl = { s.ctl with hostReads := s.ctl.hostReads ++ [rd] } := by
    simp [queueRead]
  have waits (h : s.ctl.op.isSome = true ∨ s.eng.notices ≠ []) :
      ((s.takeOff p rest).queueRead rd).arbitrate = (s.takeOff p rest).queueRead rd := by
    rcases h with h | h
    · exact arbitrate_busy (by rw [hq]; exact Option.isSome_iff_ne_none.mp h)
    · exact arbitrate_waits (by rw [hq]; exact hst) (by simpa [queueRead] using h)
  have granted (hop : s.ctl.op = none) (hn : s.eng.notices = []) : ((s.takeOff p rest).queueRead rd).arbitrate =
      { s.takeOff p rest with ctl := { s.ctl with op := some (.hostRead rd) } } := by
    rcases hcalm with h | ⟨-, h⟩ | ⟨-, hf, hl, hh, -⟩
    · rw [hop] at h; cases h
    · exact absurd hn h
    · rw [arbitrate_hostRead (by rw [hq]; exact hop) (by rw [hq]; exact hst) (by simpa [queueRead] using hn)
        (by rw [hq]; exact hf) (by simpa [loadWaiting, queueRead] using hl) (by rw [hq, hh]; rfl)]
      cases p <;> simp [queueRead, takeOff, setPort, hh]
  have ports (u : State) (hu : u = (s.takeOff p rest).queueRead rd
      ∨ u = { s.takeOff p rest with ctl := { s.ctl with op := some (.hostRead rd) } }) :
      s.Answered u.pump p rest [] ∧ s.KeepsReports u.pump := by
    have hport : u.port p = (s.takeOff p rest).port p := by rcases hu with rfl | rfl <;> cases p <;> rfl
    have hother : u.port (otherPort p) = s.port (otherPort p) := by rcases hu with rfl | rfl <;> cases p <;> rfl
    have hlink : u.link = s.link := by rcases hu with rfl | rfl <;> cases p <;> rfl
    exact ⟨answered_none s u p rest hport hother, keepsReports_pump s u (by rw [hlink]) (by rw [hlink])⟩
  have hrun : exec c s = .next ((s.takeOff p rest).queueRead rd).arbitrate.pump := by
    rw [hx, takeStoreRequest_takes hc ht hp, hw]; rfl
  by_cases hbusy : s.ctl.op.isSome = true ∨ s.eng.notices ≠ []
  · rw [waits hbusy] at hrun
    obtain ⟨ha, hk⟩ := ports _ (.inl rfl)
    refine ⟨_, hrun, ha, hk, fun _ => ?_, fun hop hn => ?_⟩
    · rw [inside_pump]; cases p <;> rfl
    · simp [hop, hn] at hbusy
  · simp only [not_or, Bool.not_eq_true, Option.isSome_eq_false_iff, Option.isNone_iff_eq_none, ne_eq, not_not] at hbusy
    obtain ⟨hop, hn⟩ := hbusy
    rw [granted hop hn] at hrun
    obtain ⟨ha, hk⟩ := ports _ (.inr rfl)
    refine ⟨_, hrun, ha, hk, fun h => ?_, fun _ _ => ?_⟩
    · simp [hop, hn] at h
    · rw [inside_pump]; cases p <;> rfl

end Answering

/-! ### CUE_READ -/

theorem cueAnswer_takeOff (s : State) (p : PortId) (rest : List Request) (b : Bank) (l : PbId) (n : Nat) :
    (s.takeOff p rest).cueAnswer b l n = s.cueAnswer b l n := by cases p <;> rfl

theorem cueReadWork_blank {s : State} {b : Bank} (h : (s.proj b).valid = false) (q : Requester) (l : PbId) (n first : Nat) :
    s.cueReadWork q ((b, l), n, first) = s.answer q .blank [] := if_pos h

theorem cueReadWork_valid {s : State} {b : Bank} (h : (s.proj b).valid = true) (q : Requester) (l : PbId) (n first : Nat) :
    s.cueReadWork q ((b, l), n, first) = (match s.cueAnswer b l n with
      | .notFound => s.answer q .notFound []
      | .ready c => s.answer q .ok (cueFields b l first c)
      | .readPort => s.queueRead (.cue q b l n first)) := by
  unfold cueReadWork
  dsimp only
  rw [if_neg (by simp [h])] <;> rfl

/-- The newest queued write that affects a cue decides the answer (R10). -/
theorem cueAnswer_decided {s : State} {b : Bank} {l : PbId} {n : Nat} {front back : List WriteEntry} {w : WriteEntry}
    {x : Option Cue} (hq : s.ctl.queue = front ++ w :: back) (hback : ∀ y ∈ back, y.onCue b l n = none)
    (hw : w.onCue b l n = some x) : s.cueAnswer b l n = (match x with
      | some c => .ready c
      | none => .notFound) := by
  have newest : s.ctl.queue.reverse.findSome? (fun w => w.onCue b l n) = some x := by
    have later : back.reverse.findSome? (fun w => w.onCue b l n) = none := by
      rw [List.findSome?_eq_none_iff]; exact fun y hy => hback y (List.mem_reverse.mp hy)
    rw [hq, List.reverse_append, List.reverse_cons, List.append_assoc, List.findSome?_append, later]
    simp [hw]
  unfold cueAnswer
  rw [newest]
  cases x <;> rfl

/-- Where no queued write affects a cue, the directory of the RAM copy decides (R10). -/
theorem cueAnswer_undecided {s : State} {b : Bank} {l : PbId} {n : Nat} (h : ∀ x ∈ s.ctl.queue, x.onCue b l n = none) :
    s.cueAnswer b l n = if (Assoc.find ((s.ram b).dir.get l) n).isSome then .readPort else .notFound := by
  have undecided : s.ctl.queue.reverse.findSome? (fun w => w.onCue b l n) = none := by
    rw [List.findSome?_eq_none_iff]; exact fun y hy => h y (List.mem_reverse.mp hy)
  unfold cueAnswer
  rw [undecided]

end State

/-- What a write of a bank that is not doomed makes of a cue is given by its kind (R10). -/
theorem WriteEntry.onCue_live {w : WriteEntry} {b : Bank} (hb : w.bank = some b) (hd : w.doomed = none) (l : PbId) (n : Nat) :
    w.onCue b l n = (match w.kind with
      | .cueWrite l' c => if l' = l ∧ c.number = n then some (some c) else none
      | .cueDelete l' n' => if l' = l ∧ n' = n then some none else none
      | .bankErase => some none
      | _ => none) := by
  unfold WriteEntry.onCue
  rw [if_neg (by simp [hb, hd])]
  cases w.kind <;> rfl

theorem WriteEntry.onCue_other {w : WriteEntry} {b : Bank} (h : w.bank ≠ some b ∨ w.doomed ≠ none) (l : PbId) (n : Nat) :
    w.onCue b l n = none := if_pos (h.imp_right Option.isSome_iff_ne_none.mpr)

/-- A write leaves a cue alone where it is of another bank, doomed, or neither writes nor deletes it nor erases (R10). -/
theorem WriteEntry.onCue_eq_none (w : WriteEntry) (b : Bank) (l : PbId) (n : Nat) : w.onCue b l n = none ↔
    (w.bank ≠ some b ∨ w.doomed ≠ none ∨
      ((∀ c, w.kind = .cueWrite l c → c.number ≠ n) ∧ w.kind ≠ .cueDelete l n ∧ w.kind ≠ .bankErase)) := by
  by_cases hb : w.bank = some b
  · by_cases hd : w.doomed = none
    · rw [WriteEntry.onCue_live hb hd]
      simp only [hb, hd, ne_eq, not_true_eq_false, false_or]
      cases hk : w.kind <;> simp
    · exact iff_of_true (WriteEntry.onCue_other (.inr hd) l n) (.inr (.inl hd))
  · exact iff_of_true (WriteEntry.onCue_other (.inl hb) l n) (.inl hb)

/-- Settles O19: the answer by the queue and the directory, then the host read at the port. -/
theorem cuesAreReadThroughTheQueue : Obligations.CuesAreReadThroughTheQueue := by
  refine ⟨fun s p r rest b l n first hd hu hst hcalm hbody h1 h2 h3 => ?_, fun s b l n front back =>
    ⟨fun w hq hback hlive hbank => ⟨fun c hk hn => ?_, fun hk => ?_, fun hk => ?_⟩, State.cueAnswer_undecided,
      fun w => w.onCue_eq_none b l n⟩⟩
  · have ht : s.Takes p 0x08 r rest := State.takes_always hd hu rfl (State.mustWait_ended hst rfl)
    have hp : parseCueRead r.body = .ok ((b, l), n, first) := by rw [hbody]; exact parseCueRead_eq b l h1 h2 h3
    have valid (hv : (s.proj b).valid = true) := State.cueReadWork_valid (s := s.takeOff p rest) (b := b)
      (by rw [State.proj_takeOff]; exact hv) (requesterOf p r) l n first
    refine ⟨fun hv => ?_, fun hv ha => ?_, fun c hv ha => ?_, fun hv ha => ?_⟩
    · exact State.does_at_once_store rfl (by decide) ht hp hcalm
        (State.cueReadWork_blank (by rw [State.proj_takeOff]; exact hv) _ _ _ _)
    · refine State.does_at_once_store rfl (by decide) ht hp hcalm ((valid hv).trans ?_)
      rw [State.cueAnswer_takeOff, ha]
    · refine State.does_at_once_store rfl (by decide) ht hp hcalm ((valid hv).trans ?_)
      rw [State.cueAnswer_takeOff, ha]
      simp [cueFields, cueHeader, bText]
    · refine State.queueRead_taken rfl (by decide) ht hp hcalm hst ((valid hv).trans ?_)
      rw [State.cueAnswer_takeOff, ha]
  · refine State.cueAnswer_decided hq hback (x := some c) ?_
    rw [WriteEntry.onCue_live hbank hlive, hk]
    exact if_pos ⟨rfl, hn⟩
  · refine State.cueAnswer_decided hq hback (x := none) ?_
    rw [WriteEntry.onCue_live hbank hlive, hk]
    exact if_pos ⟨rfl, rfl⟩
  · refine State.cueAnswer_decided hq hback (x := none) ?_
    rw [WriteEntry.onCue_live hbank hlive, hk]

end Sys2Proof.Machine

namespace Sys2Proof.Machine

/-! ### The fields of a PATCH_READ reply -/

theorem patchFields_length (free : Nat) (e : Option PatchEntry) : (patchFields free e).length = 4 := by
  cases e <;> rfl

/-- Pieces of four bytes in a row are as long as four times their number. -/
theorem flatMap_four_length {f : Nat → List Byte} (hf : ∀ i, (f i).length = 4) (n : Nat) :
    ((List.range n).flatMap f).length = 4 * n := by
  induction n with
  | zero => rfl
  | succ n ih => rw [List.range_succ, List.flatMap_append, List.length_append, ih]; simp [hf]; omega

/-- Piece i of pieces of four bytes in a row stands at place 4 i. -/
theorem flatMap_four_at {f : Nat → List Byte} (hf : ∀ i, (f i).length = 4) (tail : List Byte) {i n : Nat} (h : i < n) :
    (((List.range n).flatMap f ++ tail).drop (4 * i)).take 4 = f i := by
  induction n generalizing tail with
  | zero => omega
  | succ n ih =>
    have last : (List.range (n + 1)).flatMap f ++ tail = (List.range n).flatMap f ++ (f n ++ tail) := by
      rw [List.range_succ, List.flatMap_append]; simp
    rw [last]
    rcases Nat.lt_or_eq_of_le (Nat.le_of_lt_succ h) with hlt | rfl
    · exact ih (f n ++ tail) hlt
    · rw [← flatMap_four_length hf i, List.drop_left, ← hf i, List.take_left]

/-- The windows of a PATCH_READ reply: how many are present, then each with its number (R36). -/
def windowRun (w : Windows) : List Byte :=
  b1 (w.toList.zipIdx.filter (fun e : Option Window × Nat => e.1.isSome)).length ++ w.toList.zipIdx.flatMap windowFields

/-- The entries of a PATCH_READ reply, with the free values of the absent ones (R36; log 12). -/
def patchRun (free first count : Nat) (m : Assoc PatchEntry) : List Byte :=
  (List.range count).flatMap (fun i => patchFields (free + 2 * i) (Assoc.find m (first + i)))

/-- The fields of the reply OK of PATCH_READ (R36). -/
def patchReplyFields (free first count : Nat) (m : Assoc PatchEntry) (w : Windows) : List Byte :=
  b2 first ++ b1 count ++ (patchRun free first count m ++ windowRun w)

theorem State.answerPatch_eq (s : State) (q : Requester) (first count : Nat) (m : Assoc PatchEntry) (w : Windows) :
    s.answerPatch q first count m w =
      ({ s with free := s.free + 2 * count } : State).answer q .ok (patchReplyFields s.free first count m w) := by
  unfold State.answerPatch patchReplyFields windowRun patchRun
  simp only [List.append_assoc]

/-- The fields of the reply are those that the claim of a patch reply asks for (R36). -/
theorem patchReply_fields (free first count : Nat) (m : Assoc PatchEntry) (w : Windows) :
    PatchReply first count m w (patchReplyFields free first count m w) := by
  have head_drop (n : Nat) : (patchReplyFields free first count m w).drop (3 + n) =
      (patchRun free first count m ++ windowRun w).drop n := by
    rw [patchReplyFields, Nat.add_comm 3 n]; rfl
  have entry (i : Nat) (hi : i < count) : ((patchReplyFields free first count m w).drop (3 + 4 * i)).take 4 =
      patchFields (free + 2 * i) (Assoc.find m (first + i)) := by
    rw [head_drop]
    exact flatMap_four_at (fun _ => patchFields_length _ _) (windowRun w) hi
  refine ⟨rfl, fun i hi => ⟨fun hnone => ?_, fun e he => ?_⟩, ?_⟩
  · have h := congrArg (List.take 2) (entry i hi)
    rw [List.take_take, hnone] at h
    exact h
  · rw [entry i hi, he]; rfl
  · have hrun : (patchRun free first count m).length = 4 * count := flatMap_four_length (fun _ => patchFields_length _ _) count
    have hwin : w.toList.zipIdx = four.map (fun i => (w.get i, i.val)) := rfl
    rw [head_drop, ← hrun, List.drop_left, windowRun, hwin, List.filter_map, List.length_map]
    rfl

/-! ### The writes that a PATCH_READ applies -/

/-- The writes after the newest erase of a bank (R36). -/
theorem afterErase_append {b : Bank} {front back : List WriteEntry} {w : WriteEntry} (hb : w.bank = some b)
    (hk : w.kind = .bankErase) (hback : ∀ x ∈ back, ¬ (x.bank = some b ∧ x.kind = .bankErase)) :
    afterErase b (front ++ w :: back) = some back := by
  have later : ∀ l : List WriteEntry, (∀ x ∈ l, ¬ (x.bank = some b ∧ x.kind = .bankErase)) → afterErase b l = none := by
    intro l hl
    induction l with
    | nil => rfl
    | cons x rest ih =>
      rw [afterErase, ih (fun y hy => hl y (List.mem_cons_of_mem _ hy))]
      exact if_neg (hl x List.mem_cons_self)
  induction front with
  | nil =>
    rw [List.nil_append, afterErase, later back hback]
    exact if_pos ⟨hb, hk⟩
  | cons x rest ih => rw [List.cons_append, afterErase, ih]

theorem afterErase_none {b : Bank} {l : List WriteEntry} (hl : ∀ x ∈ l, ¬ (x.bank = some b ∧ x.kind = .bankErase)) :
    afterErase b l = none := by
  induction l with
  | nil => rfl
  | cons x rest ih =>
    rw [afterErase, ih (fun y hy => hl y (List.mem_cons_of_mem _ hy))]
    exact if_neg (hl x List.mem_cons_self)

namespace WriteEntry

theorem ontoPatch_other {w : WriteEntry} {b : Bank} (h : w.bank ≠ some b) (t : Assoc PatchEntry × Windows) :
    w.ontoPatch b t = t := if_pos h

theorem ontoPatch_of_bank {w : WriteEntry} {b : Bank} (h : w.bank = some b) (t : Assoc PatchEntry × Windows) :
    w.ontoPatch b t = (match w.kind with
      | .patchWrite pairs => (writePairs pairs t.1, t.2)
      | .windowWrite x => (t.1, x)
      | _ => t) := by
  unfold WriteEntry.ontoPatch
  rw [if_neg (not_not_intro h)] <;> rfl

end WriteEntry

namespace State

/-! ### PATCH_READ and the host reads -/

theorem patchReadWork_blank {s : State} {b : Bank} (h : (s.proj b).valid = false) (q : Requester) (first count : Nat) :
    s.patchReadWork q (b, first, count) = s.answer q .blank [] := if_pos h

theorem patchReadWork_erased {s : State} {b : Bank} {writes : List WriteEntry} (h : (s.proj b).valid = true)
    (he : afterErase b s.ctl.queue = some writes) (q : Requester) (first count : Nat) :
    let t := writes.foldl (fun t w => w.ontoPatch b t) (([], .empty) : Assoc PatchEntry × Windows)
    s.patchReadWork q (b, first, count) = s.answerPatch q first count t.1 t.2 := by
  unfold patchReadWork
  dsimp only
  rw [if_neg (by simp [h]), he]

theorem patchReadWork_queued {s : State} {b : Bank} (h : (s.proj b).valid = true) (he : afterErase b s.ctl.queue = none)
    (q : Requester) (first count : Nat) :
    s.patchReadWork q (b, first, count) = s.queueRead (.patch q b first count) := by
  unfold patchReadWork
  dsimp only
  rw [if_neg (by simp [h]), he]

theorem exec_hostReadDone {s : State} {rd : HostRead} {a : StoreAnswer} (h : s.ctl.op = some (.hostRead rd)) (ha : a ≠ .busy) :
    exec (.hostReadDone a) s = .next (s.freePort.endHostRead rd (a = .done true)).settle := by
  show Host.Outcome.next (s.hostReadDone a) = _
  unfold hostReadDone
  rw [h]
  cases a with
  | busy => exact absurd rfl ha
  | done b => rfl
  | notDone => rfl

theorem endHostRead_cue {s : State} {b : Bank} {l : PbId} {n : Nat} {c : Cue} (h : s.storedCue b l n = some c)
    (q : Requester) (first : Nat) :
    s.freePort.endHostRead (.cue q b l n first) true = s.freePort.answer q .ok (cueFields b l first c) := by
  have h : s.freePort.storedCue b l n = some c := h
  unfold endHostRead
  dsimp only
  rw [h]

theorem endHostRead_cue_fails {s : State} {b : Bank} {l : PbId} {n : Nat} {passes : Bool}
    (h : passes = true → s.storedCue b l n = none) (q : Requester) (first : Nat) :
    s.freePort.endHostRead (.cue q b l n first) passes = s.freePort.answer q .checkFailed [] := by
  unfold endHostRead
  dsimp only
  split
  · rename_i hc
    exact absurd (hc.symm.trans (h rfl)) (by simp)
  · rfl

theorem endHostRead_patch {s : State} {b : Bank} {first count : Nat} {m : Assoc PatchEntry} {w : Windows}
    (hm : s.storedRun b first count = some m) (hw : s.storedWindows b = some w) (q : Requester) :
    let t := s.ctl.queue.foldl (fun t w => w.ontoPatch b t) (m, w)
    s.freePort.endHostRead (.patch q b first count) true = s.freePort.answerPatch q first count t.1 t.2 := by
  have hm : s.freePort.storedRun b first count = some m := hm
  have hw : s.freePort.storedWindows b = some w := hw
  unfold endHostRead
  dsimp only
  rw [hm, hw]
  rfl

theorem endHostRead_patch_fails {s : State} {b : Bank} {first count : Nat} {passes : Bool}
    (h : passes = true → s.storedRun b first count = none ∨ s.storedWindows b = none) (q : Requester) :
    s.freePort.endHostRead (.patch q b first count) passes = s.freePort.answer q .checkFailed [] := by
  unfold endHostRead
  dsimp only
  split
  · rename_i hm hw
    rcases h rfl with hn | hn
    · exact absurd (hm.symm.trans hn) (by simp)
    · exact absurd (hw.symm.trans hn) (by simp)
  · rfl

/-- A run within one segment, or over two neighbours, is what the store holds of them (R36). -/
theorem storedRun_cases (s : State) (b : Bank) (first count : Nat) :
    let n1 := segmentOf first
    let n2 := segmentOf (first + count - 1)
    (∀ m, n1 = n2 → s.storedSegment b n1 = some m → s.storedRun b first count = some m)
    ∧ (∀ m1 m2, n1 ≠ n2 → s.storedSegment b n1 = some m1 → s.storedSegment b n2 = some m2 →
        s.storedRun b first count = some (m1 ++ m2))
    ∧ ((s.storedSegment b n1 = none ∨ s.storedSegment b n2 = none) → s.storedRun b first count = none) := by
  intro n1 n2
  unfold storedRun
  dsimp only
  refine ⟨fun m hn hm => ?_, fun m1 m2 hn h1 h2 => ?_, fun h => ?_⟩
  · have h2 : s.storedSegment b n2 = some m := hn ▸ hm
    simp only [n1, n2] at hn hm h2
    rw [hm, h2]
    exact congrArg some (if_pos hn)
  · simp only [n1, n2] at hn h1 h2
    rw [h1, h2]
    exact congrArg some (if_neg hn)
  · simp only [n1, n2] at h
    rcases h with h | h
    · rw [h]
    · rw [h]
      cases s.storedSegment b (segmentOf first) <;> rfl

end State

theorem parsePatchRead_eq (b : Bank) {first count : Nat} (h1 : 1 ≤ first) (h2 : 1 ≤ count) (h3 : count ≤ 96)
    (h4 : first + count ≤ 2305) : parsePatchRead (b1 b.val ++ b2 first ++ b1 count) = .ok (b, first, count) := by
  have hb : bank? (byteAt (b1 b.val ++ b2 first ++ b1 count) 0) = some b := bank?_byteAt b _
  have hf : wordAt (b1 b.val ++ b2 first ++ b1 count) 1 = first := wordAt_byte (by omega) (b1 count)
  have hc : byteAt (b1 b.val ++ b2 first ++ b1 count) 3 = count :=
    (toNat_byte count).trans (Nat.mod_eq_of_lt (by omega))
  unfold parsePatchRead
  dsimp only
  rw [hb, hf, hc, Option.bind_some, if_pos ⟨(isCircuit_iff first).mpr ⟨h1, by omega⟩, h2, h3, h4⟩]
  rfl

/-- Settles O20: the reply by `patchReply_fields`, the queue by `afterErase_append`, the ends by the outcome of the read. -/
theorem patchReadsAndHostReadsEnd : Obligations.PatchReadsAndHostReadsEnd := by
  refine ⟨fun s p r rest b first count hd hu hst hcalm hbody h1 h2 h3 h4 => ?_, fun s q b => ?_, fun s b =>
    ⟨s.storedRun_cases b, fun n m => ?_, fun w => ?_, fun l n x => ?_⟩, fun w b m v => ?_⟩
  · have ht : s.Takes p 0x0B r rest := State.takes_always hd hu rfl (State.mustWait_ended hst rfl)
    have hp : parsePatchRead r.body = .ok (b, first, count) := by rw [hbody]; exact parsePatchRead_eq b h1 h2 h3 h4
    refine ⟨fun hv => ?_, fun front w back hv hq hb hk hback => ?_, fun hv hnone => ?_⟩
    · exact State.does_at_once_store rfl (by decide) ht hp hcalm
        (State.patchReadWork_blank (by rw [State.proj_takeOff]; exact hv) _ _ _)
    · have he : afterErase b (s.takeOff p rest).ctl.queue = some back := by
        rw [State.takeOff_ctl, hq]; exact afterErase_append hb hk hback
      have hw := State.patchReadWork_erased (s := s.takeOff p rest) (by rw [State.proj_takeOff]; exact hv) he
        (requesterOf p r) first count
      obtain ⟨t, hx, hrep⟩ := State.does_of_store (c := .patchRead p)
        (u := { s with free := s.free + 2 * count }) rfl (by decide) ht hp hcalm
        (hw.trans (State.answerPatch_eq _ _ _ _ _ _)) (by cases p <;> rfl) (by cases p <;> rfl) (by cases p <;> rfl)
        (by cases p <;> rfl) (by cases p <;> rfl)
      exact ⟨t, hx, _, hrep, patchReply_fields _ _ _ _ _⟩
    · refine State.queueRead_taken rfl (by decide) ht hp hcalm hst ?_
      exact State.patchReadWork_queued (by rw [State.proj_takeOff]; exact hv)
        (by rw [State.takeOff_ctl]; exact afterErase_none hnone) _ _ _
  · refine ⟨fun rd hop => ?_, fun l n first c hop hc => ?_, fun l n first a hop ha => ?_, fun first count m w hop hm hw => ?_,
      fun first count a hop ha => ?_, fun first count m w => ⟨_, patchReply_fields _ _ _ _ _, State.answerPatch_eq _ _ _ _ _ _⟩⟩
    · show Host.Outcome.next (s.hostReadDone .busy) = .next s
      unfold State.hostReadDone; rw [hop]
    · rw [State.exec_hostReadDone hop (by decide)]
      exact congrArg (fun u : State => Host.Outcome.next u.settle) (State.endHostRead_cue hc q first)
    · rw [State.exec_hostReadDone hop (by rcases ha with rfl | rfl | ⟨rfl, -⟩ <;> decide),
        State.endHostRead_cue_fails (by rcases ha with rfl | rfl | ⟨rfl, h⟩ <;> simp [*]) q first]
      rfl
    · rw [State.exec_hostReadDone hop (by decide)]
      exact congrArg (fun u : State => Host.Outcome.next u.settle) (State.endHostRead_patch hm hw q)
    · rw [State.exec_hostReadDone hop (by rcases ha with rfl | rfl | ⟨rfl, -⟩ <;> decide),
        State.endHostRead_patch_fails (by rcases ha with rfl | rfl | ⟨rfl, h⟩ <;> simp [*]) q]
      rfl
  · rw [State.storedSegment, Checked.read_iff]
  · rw [State.storedWindows, Checked.read_iff]
  · rw [State.storedCue, Checked.read_iff]
  · refine ⟨fun hb => WriteEntry.ontoPatch_other hb _, fun pairs hb hk => ?_, fun x hb hk => ?_, fun hp hx => ?_⟩
    · rw [WriteEntry.ontoPatch_of_bank hb, hk]
    · rw [WriteEntry.ontoPatch_of_bank hb, hk]
    · by_cases hb : w.bank = some b
      · rw [WriteEntry.ontoPatch_of_bank hb]
        cases hk : w.kind <;> simp_all
      · exact WriteEntry.ontoPatch_other hb _

end Sys2Proof.Machine

namespace Sys2Proof.Machine

namespace State

/-! ### The order of the grants -/

theorem arbitrate_startUp_state {s : State} {i : Nat} (hop : s.ctl.op = none) (hs : s.ctl.startUp = some i) :
    s.arbitrate = { s with ctl := { s.ctl with op := some (.startUp i) } } := by
  unfold arbitrate
  rw [if_neg (by simp [hop]), hs]

/-- The waiting fetch of the lowest playback is the first (R9). -/
theorem firstFetch_lowest {s : State} {p : PbId} {f : Fetch} (hp : s.ctl.fetches.get p = some f)
    (hlow : ∀ q : PbId, q < p → s.ctl.fetches.get q = none) : s.firstFetch = some (p, f) := by
  unfold firstFetch four
  match p with
  | 0 => simp [hp]
  | 1 => simp [hp, hlow 0 (by decide)]
  | 2 => simp [hp, hlow 0 (by decide), hlow 1 (by decide)]
  | 3 => simp [hp, hlow 0 (by decide), hlow 1 (by decide), hlow 2 (by decide)]

theorem arbitrate_fetch {s : State} {p : PbId} {f : Fetch} (hop : s.ctl.op = none) (hst : s.ctl.startUp = none)
    (hn : s.eng.notices = []) (hf : s.firstFetch = some (p, f)) :
    s.arbitrate = { s with ctl := { s.ctl with op := some (.fetch p f true), fetches := s.ctl.fetches.set p none } } := by
  unfold arbitrate
  rw [if_neg (by simp [hop]), hst]
  dsimp only
  rw [if_neg (by simp [hn]), hf]

theorem arbitrate_load {s : State} {b : Bank} {n : Nat} (hop : s.ctl.op = none) (hst : s.ctl.startUp = none)
    (hn : s.eng.notices = []) (hf : ∀ p, s.ctl.fetches.get p = none) (hl : s.loadWaiting = some (b, n)) :
    s.arbitrate = { s with ctl := { s.ctl with op := some (.load b n true), loadClaim := none } } := by
  rw [arbitrate_pastFetches hop hst hn (firstFetch_eq_none hf), hl]

/-- With no other claim the port comes to the writes (R9). -/
theorem arbitrate_writes {s : State} (hop : s.ctl.op = none) (hst : s.ctl.startUp = none) (hn : s.eng.notices = [])
    (hf : ∀ p, s.ctl.fetches.get p = none) (hl : s.ctl.loadClaim = none) (hh : s.ctl.hostReads = []) :
    s.arbitrate = grantWrite s.ctl.queue.length s := by
  have hl : s.loadWaiting = none := by simp [loadWaiting, hl]
  rw [arbitrate_pastFetches hop hst hn (firstFetch_eq_none hf), hl, hh]

theorem grantWrite_granted {s : State} {w : WriteEntry} {ws : List WriteEntry} (n : Nat) (hq : s.ctl.queue = w :: ws)
    (ht : s.headTest w = none) : grantWrite (n + 1) s = { s with ctl := { s.ctl with op := some .write } } := by
  unfold grantWrite
  rw [hq]
  dsimp only
  rw [ht]

theorem grantWrite_ended {s : State} {w : WriteEntry} {ws : List WriteEntry} {st : Status} (n : Nat)
    (hq : s.ctl.queue = w :: ws) (ht : s.headTest w = some st) :
    grantWrite (n + 1) s =
      grantWrite n (({ s with ctl := { s.ctl with queue := ws, eraseStep := 0 } } : State).answer w.req st []) := by
  have ended : s.endHeadWrite st [] =
      ({ s with ctl := { s.ctl with queue := ws, eraseStep := 0 } } : State).answer w.req st [] := by
    unfold endHeadWrite; rw [hq]
  rw [grantWrite, hq]
  dsimp only
  rw [ht]
  exact congrArg _ ended

/-- A head write that ends without an operation leaves the grant to the writes behind it (R12). -/
theorem arbitrate_headEnds {s : State} {w : WriteEntry} {ws : List WriteEntry} {st : Status} (hop : s.ctl.op = none)
    (hst : s.ctl.startUp = none) (hn : s.eng.notices = []) (hf : ∀ p, s.ctl.fetches.get p = none)
    (hl : s.ctl.loadClaim = none) (hh : s.ctl.hostReads = []) (hq : s.ctl.queue = w :: ws) (ht : s.headTest w = some st) :
    s.arbitrate = (({ s with ctl := { s.ctl with queue := ws, eraseStep := 0 } } : State).answer w.req st []).arbitrate := by
  have behind := arbitrate_writes (s := ({ s with ctl := { s.ctl with queue := ws, eraseStep := 0 } } : State).answer
    w.req st []) (by rw [answer_ctl]; exact hop) (by rw [answer_ctl]; exact hst) (by rw [answer_eng]; exact hn)
    (by rw [answer_ctl]; exact hf) (by rw [answer_ctl]; exact hl) (by rw [answer_ctl]; exact hh)
  rw [behind, answer_ctl, arbitrate_writes hop hst hn hf hl hh, hq]
  exact grantWrite_ended _ hq ht

/-! ### The test of a head write -/

/-- A write that no BLANK bank ends: it erases, names no bank, or names a VALID one (R12). -/
def PassesBlank (s : State) (w : WriteEntry) : Prop :=
  w.kind = .bankErase ∨ w.bank = none ∨ ∃ b, w.bank = some b ∧ (s.ram b).valid = true

theorem headTest_blank {s : State} {w : WriteEntry} {b : Bank} (hb : w.bank = some b) (hk : w.kind ≠ .bankErase)
    (hv : (s.ram b).valid = false) : s.headTest w = some .blank := by
  have blank : s.blankBank w = true := by simp [blankBank, hb, hv]
  exact if_pos ⟨hk, blank⟩

theorem not_blank_of_passes {s : State} {w : WriteEntry} (h : s.PassesBlank w) :
    ¬ (w.kind ≠ .bankErase ∧ s.blankBank w = true) := by
  rintro ⟨hk, hb⟩
  rcases h with h | h | ⟨b, h, hv⟩
  · exact hk h
  · simp [blankBank, h] at hb
  · simp [blankBank, h, hv] at hb

theorem headTest_doomed {s : State} {w : WriteEntry} {st : Status} (h : s.PassesBlank w) (hd : w.doomed = some st) :
    s.headTest w = some st := by
  unfold headTest
  rw [if_neg (not_blank_of_passes h), if_pos (by simp [hd]), hd]

/-- A write past the first two tests is ended by the delete of a cue that the directory lacks alone (R12). -/
theorem headTest_live {s : State} {w : WriteEntry} (h : s.PassesBlank w) (hd : w.doomed = none) :
    s.headTest w = (match w.kind, w.bank with
      | .cueDelete l n, some b => if (Assoc.find ((s.ram b).dir.get l) n).isNone then some .notFound else none
      | _, _ => none) := by
  unfold headTest
  rw [if_neg (not_blank_of_passes h), if_neg (by simp [hd])] <;> rfl

end State

/-! ### What a write makes of a header -/

namespace Header

theorem apply_blank {h : Header} {k : WriteKind} (hk : k ≠ .bankErase) (hv : h.valid = false) : h.apply k = h := by
  cases k <;> simp_all [Header.apply]

theorem apply_cueWrite {h : Header} (hv : h.valid = true) (l : PbId) (c : Cue) : h.apply (.cueWrite l c) =
    { h with dir := h.dir.set l (Assoc.insert c.number { label := c.label, count := c.levels.length } (h.dir.get l)) } :=
  if_pos hv

theorem apply_cueDelete {h : Header} (hv : h.valid = true) (l : PbId) (n : Nat) : h.apply (.cueDelete l n) =
    { h with dir := h.dir.set l (Assoc.erase n (h.dir.get l)) } := if_pos hv

end Header

/-- Settles O21: one equation for each claim the port can grant, and for each write what it makes of a header. -/
theorem portIsGrantedInOrder : Obligations.PortIsGrantedInOrder := by
  refine ⟨fun s => ⟨rfl, State.arbitrate_busy, fun i => State.arbitrate_startUp_state, fun _ => State.arbitrate_waits,
    fun p f hop hst hn hp hlow => State.arbitrate_fetch hop hst hn (State.firstFetch_lowest hp hlow),
    fun hop hst hn hf => ⟨fun c n hc hl => ?_, fun r rs hl hr => ?_, fun w ws hl hh hq => ⟨fun ht => ?_, fun st ht => ?_⟩,
      fun hl hh hq => ?_⟩⟩,
    fun s w => ⟨fun b => State.headTest_blank, fun st => State.headTest_doomed, fun b l n hb hv hd hk => ?_,
      fun hp hd hk => ?_⟩, fun h => ?_⟩
  · exact State.arbitrate_load hop hst hn hf (by simp [State.loadWaiting, hc, hl])
  · exact State.arbitrate_hostRead hop hst hn hf (by simp [State.loadWaiting, hl]) hr
  · rw [State.arbitrate_writes hop hst hn hf hl hh, hq]
    exact State.grantWrite_granted _ hq ht
  · exact State.arbitrate_headEnds hop hst hn hf hl hh hq ht
  · rw [State.arbitrate_writes hop hst hn hf hl hh, hq]
    rfl
  · rw [State.headTest_live (.inr (.inr ⟨b, hb, hv⟩)) hd, hk, hb]
  · rw [State.headTest_live hp hd]
    cases hw : w.kind <;> simp_all
  · refine ⟨rfl, rfl, fun l => by fin_cases l <;> rfl, fun k => Header.apply_blank, fun t hv => if_pos hv, fun _ => rfl,
      fun _ => rfl, fun _ => rfl, fun l c hv hwf => ?_, fun l n hv hwf => ?_⟩
    · rw [Header.apply_cueWrite hv]
      refine ⟨?_, fun n => ?_, rfl, hv, fun l' hl => Four.get_set_other _ _ _ _ hl⟩
      · simpa using Assoc.wf_insert _ _ _ hwf
      · simpa using Assoc.find_insert _ _ _ _
    · rw [Header.apply_cueDelete hv]
      refine ⟨?_, fun m => ?_, rfl, hv, fun l' hl => Four.get_set_other _ _ _ _ hl⟩
      · simpa using Assoc.wf_erase _ _ hwf
      · simpa using Assoc.find_erase _ _ _

end Sys2Proof.Machine

namespace Sys2Proof.Machine

namespace State

/-! ### Requests that queue a write -/

/-- A request taken and worked on without touching the ports, its reply owed, before the transmitters act. -/
theorem answered_owed {s t : State} {p : PortId} {rest : List Request} (hp : t.port p = (s.takeOff p rest).port p)
    (ho : t.port (otherPort p) = s.port (otherPort p)) : s.Answered t p rest [] := by
  unfold Answered
  rw [hp, ho, (takeOff_port s p rest).1]
  simp [Port.outgoing]

theorem port_enqueue (s : State) (w : WriteEntry) (p : PortId) : (s.enqueue w).port p = s.port p := by
  unfold enqueue
  cases w.bank <;> cases p <;> rfl

theorem link_enqueue (s : State) (w : WriteEntry) : (s.enqueue w).link = s.link := by
  unfold enqueue
  cases w.bank <;> rfl

theorem inside_enqueue_takeOff (s : State) (p : PortId) (rest : List Request) (w : WriteEntry) :
    ((s.takeOff p rest).enqueue w).inside = (s.enqueue w).inside := by
  unfold enqueue
  cases w.bank <;> cases p <;> rfl

/-- An accepted write that names a bank changes its projection, one that names none only joins the queue (R7, R11). -/
theorem enqueue_house (s : State) {w : WriteEntry} (h : w.bank = none) :
    s.enqueue w = { s with ctl := { s.ctl with queue := s.ctl.queue ++ [w] } } := by
  unfold enqueue; rw [h]

theorem queueFull_iff (s : State) : s.queueFull = true ↔ 8 ≤ s.ctl.queue.length := by
  unfold queueFull
  exact decide_eq_true_iff

section Queueing

variable {β : Type} {c : Instr} {s : State} {p : PortId} {code : Nat} {r : Request} {rest : List Request}
  {parse : List Byte → Except Status β} {work : State → Requester → β → State} {v : β}

theorem owes_of (hx : exec c s = .next (s.takeStoreRequest p code parse work)) (hc : code < 256)
    (ht : s.Takes p code r rest) (hp : parse r.body = .ok v) {w : WriteEntry}
    (hw : work (s.takeOff p rest) (requesterOf p r) v = (s.takeOff p rest).enqueue w) : Owes c s p rest (s.enqueue w) :=
  ⟨_, by rw [hx, takeStoreRequest_takes hc ht hp, hw],
    answered_owed (port_enqueue _ _ _) ((port_enqueue _ _ _).trans (takeOff_port s p rest).2),
    (link_enqueue _ _).trans (takeOff_link s p rest), inside_enqueue_takeOff s p rest w⟩

/-- A write is answered STORE_BUSY by a full queue, and else joins it, its reply owed (R11). -/
theorem acceptWrite_taken (hx : exec c s = .next (s.takeStoreRequest p code parse work)) (hc : code < 256)
    (ht : s.Takes p code r rest) (hp : parse r.body = .ok v) {kind : WriteKind} {bank : Option Bank} {st : Status}
    (hw : work (s.takeOff p rest) (requesterOf p r) v = (s.takeOff p rest).acceptWrite (requesterOf p r) kind bank st) :
    (8 ≤ s.ctl.queue.length → Answers c s p r rest .storeBusy [] s)
    ∧ (s.ctl.queue.length < 8 → Owes c s p rest
        (s.enqueue { kind := kind, bank := bank, req := requesterOf p r, status := st, doomed := none })) := by
  have full : (s.takeOff p rest).queueFull = true ↔ 8 ≤ s.ctl.queue.length := by rw [queueFull_iff, takeOff_ctl]
  refine ⟨fun h => answers_of hx hc ht hp (hw.trans ?_), fun h => owes_of hx hc ht hp (hw.trans ?_)⟩
  · exact if_pos (full.mpr h)
  · exact if_neg (mt full.mp (Nat.not_le.mpr h))

/-- A write to a bank that must not be BLANK in the projection (R16, R34). -/
theorem acceptBankWrite_taken (hx : exec c s = .next (s.takeStoreRequest p code parse work)) (hc : code < 256)
    (ht : s.Takes p code r rest) (hp : parse r.body = .ok v) {kind : WriteKind} {b : Bank}
    (hw : work (s.takeOff p rest) (requesterOf p r) v = (s.takeOff p rest).acceptBankWrite (requesterOf p r) kind b) :
    ((s.proj b).valid = false → Answers c s p r rest .blank [] s)
    ∧ ((s.proj b).valid = true → 8 ≤ s.ctl.queue.length → Answers c s p r rest .storeBusy [] s)
    ∧ ((s.proj b).valid = true → s.ctl.queue.length < 8 → Owes c s p rest
        (s.enqueue { kind := kind, bank := some b, req := requesterOf p r, status := .ok, doomed := none })) := by
  have accepted (hv : (s.proj b).valid = true) := acceptWrite_taken (kind := kind) (bank := some b) (st := .ok) hx hc ht hp
    (hw.trans (if_pos (by rw [proj_takeOff]; exact hv)))
  refine ⟨fun hv => answers_of hx hc ht hp (hw.trans ?_), fun hv => (accepted hv).1, fun hv => (accepted hv).2⟩
  exact if_neg (by rw [proj_takeOff, hv]; decide)

end Queueing

theorem takes_edit {s : State} {p : PortId} {code : Nat} {r : Request} {rest : List Request} {g : Group}
    (hd : s.Head p code r rest) (hu : s.MayUse p g) (hk : kindInfo code = some (g, false)) (hh : s.sup.halted = false)
    (hst : s.ctl.startUp = none) (hdec : needsDecision code = false) : s.Takes p code r rest :=
  takes_of g false hd hu hk (.inr hh) (mustWait_ended hst hdec)

/-- A body of the size of its fields with a field out of its range is refused BAD_VALUE (R169). -/
theorem refuses_value {β : Type} {c : Instr} {s : State} {p : PortId} {code : Nat} {r : Request} {rest : List Request}
    {parse : List Byte → Except Status β} {work : State → Requester → β → State}
    (hx : exec c s = .next (s.takeRequest p code parse work)) (hc : code < 256) (hk : Checks code parse)
    (ht : s.Takes p code r rest) (hf : bodyFits code r.body = true) (ho : fieldOutOfRange code r.body = true) :
    Refuses c s p r rest .badValue := by
  obtain ⟨hq, hkind, howed, hgate, -⟩ := ht
  exact refuses_body hx hc ⟨hq, hkind, howed⟩ hgate ((hk r.body).2.1 hf ho)

end State

/-! ### The capacities of a bank -/

section Tables

variable {α : Type}

theorem Assoc.find_eq_none {m : Assoc α} {k : Nat} (h : ∀ e ∈ m, k < e.1) : Assoc.find m k = none := by
  induction m with
  | nil => rfl
  | cons e rest ih =>
    rw [Assoc.find_cons, if_neg (Nat.ne_of_gt (h e List.mem_cons_self))]
    exact ih fun x hx => h x (List.mem_cons_of_mem _ hx)

/-- The sum of a weight over a table: a value inserted adds its own, and frees that of the value it replaces (R7). -/
theorem Assoc.sum_insert (f : α → Nat) (m : Assoc α) (k : Nat) (v : α) (hwf : Assoc.wf m = true) :
    ((Assoc.insert k v m).map (fun e => f e.2)).sum + ((Assoc.find m k).map f).getD 0
      = (m.map (fun e => f e.2)).sum + f v := by
  rw [Assoc.wf_iff] at hwf
  induction m with
  | nil => simp [Assoc.insert]
  | cons e rest ih =>
    rw [List.map_cons, List.pairwise_cons] at hwf
    obtain ⟨hlt, hrest⟩ := hwf
    have above : ∀ x ∈ rest, e.1 < x.1 := fun x hx => hlt _ (List.mem_map_of_mem hx)
    have ih := ih hrest
    unfold Assoc.insert
    rw [Assoc.find_cons]
    rcases Nat.lt_trichotomy k e.1 with h | h | h
    · rw [if_pos h, if_neg (Nat.ne_of_gt h), Assoc.find_eq_none fun x hx => h.trans (above x hx)]
      simp; omega
    · rw [if_neg (by omega), if_pos h, if_pos h.symm]
      simp; omega
    · rw [if_neg (by omega), if_neg (by omega), if_neg (by omega)]
      simp only [List.map_cons, List.sum_cons]; omega

/-- The weight of a value found is part of the sum of the table's weights. -/
theorem Assoc.find_le_sum (f : α → Nat) (m : Assoc α) (k : Nat) :
    ((Assoc.find m k).map f).getD 0 ≤ (m.map (fun e => f e.2)).sum := by
  induction m with
  | nil => exact Nat.zero_le _
  | cons e rest ih =>
    rw [Assoc.find_cons, List.map_cons, List.sum_cons]
    split_ifs
    · simp
    · omega

theorem length_eq_sum (m : Assoc α) : m.length = (m.map (fun e => (fun _ : α => 1) e.2)).sum := by simp

/-- One of four tables exchanged for another exchanges its weight in the sum over the four. -/
theorem Four.sum_set {β : Type} (f : β → Nat) (d : Four β) (i : Fin 4) (x : β) :
    ((d.set i x).toList.map f).sum + f (d.get i) = (d.toList.map f).sum + f x := by
  fin_cases i <;> simp [Four.toList, Four.set, Four.get] <;> omega

theorem Four.le_sum {β : Type} (f : β → Nat) (d : Four β) (i : Fin 4) : f (d.get i) ≤ (d.toList.map f).sum := by
  fin_cases i <;> simp [Four.toList, Four.get] <;> omega

end Tables

namespace Header

/-- The cues of a bank after a cue write: one more, unless a cue of its number is freed (R7). -/
theorem cues_apply {h : Header} (hv : h.valid = true) (l : PbId) (c : Cue) (hwf : Assoc.wf (h.dir.get l) = true) :
    (h.apply (.cueWrite l c)).cues = h.cues + (if (Assoc.find (h.dir.get l) c.number).isSome then 0 else 1) := by
  have table := Assoc.sum_insert (fun _ : DirCue => 1) (h.dir.get l) c.number
    { label := c.label, count := c.levels.length } hwf
  rw [← length_eq_sum, ← length_eq_sum] at table
  have four := Four.sum_set List.length h.dir l
    (Assoc.insert c.number { label := c.label, count := c.levels.length } (h.dir.get l))
  rw [apply_cueWrite hv]
  unfold Header.cues
  dsimp only
  cases hf : Assoc.find (h.dir.get l) c.number <;> simp [hf] at table ⊢ <;> omega

/-- The level entries of a bank after a cue write, those of a cue of its number freed first (R7). -/
theorem entries_apply {h : Header} (hv : h.valid = true) (l : PbId) (c : Cue) (hwf : Assoc.wf (h.dir.get l) = true) :
    (h.apply (.cueWrite l c)).entries =
      h.entries - ((Assoc.find (h.dir.get l) c.number).map (fun x => x.count)).getD 0 + c.levels.length := by
  have table := Assoc.sum_insert (fun x : DirCue => x.count) (h.dir.get l) c.number { label := c.label, count := c.levels.length } hwf
  have four := Four.sum_set (fun m : Assoc DirCue => (m.map (fun e => e.2.count)).sum) h.dir l
    (Assoc.insert c.number { label := c.label, count := c.levels.length } (h.dir.get l))
  have freed := Assoc.find_le_sum (fun x : DirCue => x.count) (h.dir.get l) c.number
  have part := Four.le_sum (fun m : Assoc DirCue => (m.map (fun e => e.2.count)).sum) h.dir l
  rw [apply_cueWrite hv]
  unfold Header.entries
  dsimp only at table four part freed ⊢
  omega

/-- LIST_FULL above 800 cues, then POOL_FULL above 60,000 level entries (R7). -/
theorem capacity_cases (h : Header) (l : PbId) (c : Cue) :
    (800 < (h.apply (.cueWrite l c)).cues → h.capacity l c = some .listFull)
    ∧ ((h.apply (.cueWrite l c)).cues ≤ 800 → 60000 < (h.apply (.cueWrite l c)).entries → h.capacity l c = some .poolFull)
    ∧ ((h.apply (.cueWrite l c)).cues ≤ 800 → (h.apply (.cueWrite l c)).entries ≤ 60000 → h.capacity l c = none) := by
  unfold Header.capacity Header.overfull
  rw [show Config.bankCues = 800 from rfl, show Config.bankEntries = 60000 from rfl]
  refine ⟨fun hc => if_pos hc, fun hc he => ?_, fun hc he => ?_⟩
  · rw [if_neg (Nat.not_lt.mpr hc)]; exact if_pos he
  · rw [if_neg (Nat.not_lt.mpr hc)]; exact if_neg (Nat.not_lt.mpr he)

end Header

end Sys2Proof.Machine

namespace Sys2Proof.Machine

/-! ### The bodies of the cue requests -/

theorem sized_ok {α : Type} {n : Nat} {b : List Byte} {v : α} (h : b.length = n) : sized n b (some v) = .ok v := by
  unfold sized; rw [if_neg (not_not_intro h)]

/-- An optional number sent as itself or as 65535 reads as itself (chapter 1.7). -/
theorem optOf_getD {x : Option Nat} (h : ∀ y, x = some y → y < 65535) : optOf (x.getD Config.absent) = x := by
  cases x with
  | none => rfl
  | some y => exact if_neg (Nat.ne_of_lt (h y rfl))

theorem isOptTime_getD {x : Option Nat} (h : ∀ y, x = some y → y ≤ 6000) : isOptTime (x.getD Config.absent) = true := by
  rw [isOptTime_iff]
  cases x with
  | none => exact .inr rfl
  | some y => exact .inl (h y rfl)

theorem isOptCueNumber_getD {x : Option Nat} (h : ∀ y, x = some y → 1 ≤ y ∧ y ≤ 9999) :
    isOptCueNumber (x.getD Config.absent) = true := by
  rw [isOptCueNumber_iff]
  cases x with
  | none => exact .inr rfl
  | some y => exact .inl (h y rfl)

theorem getD_absent_lt {x : Option Nat} (h : ∀ y, x = some y → y < 65535) : x.getD Config.absent < 65536 := by
  cases x with
  | none => decide
  | some y => exact Nat.lt_succ_of_lt (h y rfl)

theorem isText_of {t : List Byte} (h : ∀ x ∈ t, 32 ≤ x.toNat ∧ x.toNat ≤ 126) : isText t = true := by
  simpa [isText] using h

theorem cueHeader_eq (b : Bank) (l : PbId) (c : Cue) : cueHeader b l c =
    byte b.val :: byte (num l) :: byte c.number :: byte (c.number / 256) :: byte c.up :: byte (c.up / 256)
      :: byte (c.down.getD Config.absent) :: byte (c.down.getD Config.absent / 256)
      :: byte c.upDelay :: byte (c.upDelay / 256) :: byte c.downDelay :: byte (c.downDelay / 256)
      :: byte (c.follow.getD Config.absent) :: byte (c.follow.getD Config.absent / 256)
      :: byte (c.link.getD Config.absent) :: byte (c.link.getD Config.absent / 256)
      :: byte (if c.block then 1 else 0) :: byte c.label.length :: c.label := rfl

/-- The 2-byte fields of a cue header read as themselves (chapter 1.7). -/
theorem wordAt_cueHeader {b : Bank} {l : PbId} {c : Cue} (hn : c.number ≤ 9999) (hup : c.up ≤ 6000)
    (hdown : c.down.getD Config.absent < 65536) (hud : c.upDelay ≤ 6000) (hdd : c.downDelay ≤ 6000)
    (hfol : c.follow.getD Config.absent < 65536) (hlink : c.link.getD Config.absent < 65536) :
    wordAt (cueHeader b l c) 2 = c.number ∧ wordAt (cueHeader b l c) 4 = c.up
    ∧ wordAt (cueHeader b l c) 6 = c.down.getD Config.absent ∧ wordAt (cueHeader b l c) 8 = c.upDelay
    ∧ wordAt (cueHeader b l c) 10 = c.downDelay ∧ wordAt (cueHeader b l c) 12 = c.follow.getD Config.absent
    ∧ wordAt (cueHeader b l c) 14 = c.link.getD Config.absent := by
  rw [cueHeader_eq]
  simp only [wordAt_cons_succ]
  exact ⟨wordAt_byte (by omega) _, wordAt_byte (by omega) _, wordAt_byte hdown _, wordAt_byte (by omega) _,
    wordAt_byte (by omega) _, wordAt_byte hfol _, wordAt_byte hlink _⟩

/-- The bank, the list, the block byte and the label of a cue header read as themselves (chapter 1.7). -/
theorem byteAt_cueHeader {b : Bank} {l : PbId} {c : Cue} (hlen : c.label.length ≤ 16) :
    bankList (cueHeader b l c) = some (b, l) ∧ byteAt (cueHeader b l c) 16 = (if c.block then 1 else 0)
    ∧ byteAt (cueHeader b l c) 17 = c.label.length ∧ (cueHeader b l c).drop 18 = c.label
    ∧ (cueHeader b l c).length = 18 + c.label.length := by
  rw [cueHeader_eq]
  refine ⟨bankList_cons b l _, ?_, ?_, rfl, ?_⟩
  · simp only [byteAt_cons_succ, byteAt_cons_zero, toNat_byte]
    split_ifs <;> rfl
  · simp only [byteAt_cons_succ, byteAt_cons_zero, toNat_byte]
    exact Nat.mod_eq_of_lt (by omega)
  · simp only [List.length_cons]; omega

/-- A cue header sent by CUE_OPEN reads as the cue it was made of (R19). -/
theorem parseCueOpen_eq {b : Bank} {l : PbId} {c : Cue} (hlev : c.levels = []) (hn : 1 ≤ c.number ∧ c.number ≤ 9999)
    (hup : c.up ≤ 6000) (hdown : ∀ x, c.down = some x → x ≤ 6000) (hud : c.upDelay ≤ 6000) (hdd : c.downDelay ≤ 6000)
    (hfol : ∀ x, c.follow = some x → x ≤ 6000) (hlink : ∀ x, c.link = some x → 1 ≤ x ∧ x ≤ 9999)
    (hlen : c.label.length ≤ 16) (htext : ∀ x ∈ c.label, 32 ≤ x.toNat ∧ x.toNat ≤ 126) :
    parseCueOpen (cueHeader b l c) = .ok { bank := b, list := l, cue := c } := by
  have hdown' : ∀ y, c.down = some y → y < 65535 := fun y h => (hdown y h).trans_lt (by decide)
  have hfol' : ∀ y, c.follow = some y → y < 65535 := fun y h => (hfol y h).trans_lt (by decide)
  have hlink' : ∀ y, c.link = some y → y < 65535 := fun y h => (hlink y h).2.trans_lt (by decide)
  obtain ⟨h2, h4, h6, h8, h10, h12, h14⟩ := wordAt_cueHeader (b := b) (l := l) hn.2 hup (getD_absent_lt hdown') hud hdd
    (getD_absent_lt hfol') (getD_absent_lt hlink')
  obtain ⟨place, h16, h17, hdrop, hsize⟩ := byteAt_cueHeader (b := b) (l := l) hlen
  unfold parseCueOpen
  dsimp only
  rw [h17, place, Option.bind_some, h2, h4, h6, h8, h10, h12, h14, h16, hdrop, if_pos, sized_ok hsize,
    optOf_getD hdown', optOf_getD hfol', optOf_getD hlink']
  · obtain ⟨number, label, up, down, upDelay, downDelay, follow, link, block, levels⟩ := c
    cases block <;> simp_all
  · exact ⟨(isCueNumber_iff _).mpr hn, (isTime_iff _).mpr hup, isOptTime_getD hdown, (isTime_iff _).mpr hud,
      (isTime_iff _).mpr hdd, isOptTime_getD hfol, isOptCueNumber_getD hlink, by split_ifs <;> decide, hlen, isText_of htext⟩

theorem parseCueDelete_eq (b : Bank) (l : PbId) {n : Nat} (h : 1 ≤ n ∧ n ≤ 9999) :
    parseCueDelete (b1 b.val ++ b1 (num l) ++ b2 n) = .ok ((b, l), n) := by
  have hw : wordAt (b1 b.val ++ b1 (num l) ++ b2 n) 2 = n := wordAt_byte (by omega) []
  have hb : bankList (b1 b.val ++ b1 (num l) ++ b2 n) = some (b, l) := bankList_cons b l (b2 n)
  unfold parseCueDelete
  rw [hb, hw, Option.bind_some, if_pos ((isCueNumber_iff n).mpr h)]
  rfl

/-- A body sent by RECORD reads as the fields it was made of (R77). -/
theorem parseRecord_eq (q : PbId) {n up : Nat} {down : Option Nat} {label : List Byte} (hn : 1 ≤ n ∧ n ≤ 9999)
    (hup : up ≤ 6000) (hdown : ∀ x, down = some x → x ≤ 6000) (hlen : label.length ≤ 16)
    (htext : ∀ x ∈ label, 32 ≤ x.toNat ∧ x.toNat ≤ 126) :
    parseRecord (b1 (num q) ++ b2 n ++ b2 up ++ bOpt down ++ b1 label.length ++ label) =
      .ok { playback := q, number := n, up := up, down := down, label := label } := by
  have hdown' : ∀ y, down = some y → y < 65535 := fun y h => (hdown y h).trans_lt (by decide)
  have explicit : b1 (num q) ++ b2 n ++ b2 up ++ bOpt down ++ b1 label.length ++ label =
      byte (num q) :: byte n :: byte (n / 256) :: byte up :: byte (up / 256) :: byte (down.getD Config.absent)
        :: byte (down.getD Config.absent / 256) :: byte label.length :: label := rfl
  rw [explicit]
  generalize hbody : (byte (num q) :: byte n :: byte (n / 256) :: byte up :: byte (up / 256)
    :: byte (down.getD Config.absent) :: byte (down.getD Config.absent / 256) :: byte label.length :: label) = body
  have h0 : byteAt body 0 = num q := by
    rw [← hbody, byteAt_cons_zero, toNat_byte, Nat.mod_eq_of_lt (by simp only [num]; omega)]
  have h1 : wordAt body 1 = n := by rw [← hbody]; simp only [wordAt_cons_succ]; exact wordAt_byte (by omega) _
  have h3 : wordAt body 3 = up := by rw [← hbody]; simp only [wordAt_cons_succ]; exact wordAt_byte (by omega) _
  have h5 : wordAt body 5 = down.getD Config.absent := by
    rw [← hbody]; simp only [wordAt_cons_succ]; exact wordAt_byte (getD_absent_lt hdown') _
  have h7 : byteAt body 7 = label.length := by
    rw [← hbody]; simp only [byteAt_cons_succ, byteAt_cons_zero, toNat_byte]; exact Nat.mod_eq_of_lt (by omega)
  have hdrop : body.drop 8 = label := by rw [← hbody]; rfl
  have hsize : body.length = 8 + label.length := by rw [← hbody]; simp only [List.length_cons]; omega
  unfold parseRecord
  rw [h0, idx4_num, Option.bind_some, h1, h3, h5, h7, hdrop, if_pos, sized_ok hsize, optOf_getD hdown']
  exact ⟨(isCueNumber_iff _).mpr hn, (isTime_iff _).mpr hup, isOptTime_getD hdown, hlen, isText_of htext⟩

/-! ### The level entries of CUE_ADD -/

theorem entryAt_cons_succ (x : Byte) (l : List Byte) (i : Nat) : entryAt (x :: l) (i + 1) = entryAt l i := rfl

/-- A level entry sent as three bytes reads as itself (chapter 1.7). -/
theorem entryAt_entryBytes {e : Nat × Nat} (hc : e.1 < 2048) (hl : e.2 ≤ 1000) (rest : List Byte) :
    entryAt (entryBytes e ++ rest) 0 = e := by
  unfold entryAt entryBytes
  simp only [List.cons_append, byteAt_cons_succ, byteAt_cons_zero, toNat_byte]
  refine Prod.ext ?_ ?_ <;> dsimp only <;> omega

theorem entryAt_entries (es : List (Nat × Nat)) (hes : ∀ e ∈ es, e.1 < 2048 ∧ e.2 ≤ 1000) (i : Nat) (hi : i < es.length) :
    entryAt (es.flatMap entryBytes) (3 * i) = es[i] := by
  induction es generalizing i with
  | nil => exact absurd hi (Nat.not_lt_zero i)
  | cons e rest ih =>
    obtain ⟨⟨hc, hl⟩, hrest⟩ := List.forall_mem_cons.mp hes
    cases i with
    | zero => exact entryAt_entryBytes hc hl _
    | succ i => exact ih hrest i (Nat.lt_of_succ_lt_succ hi)

theorem length_entries (es : List (Nat × Nat)) : (es.flatMap entryBytes).length = 3 * es.length := by
  induction es with
  | nil => rfl
  | cons e rest ih => rw [List.flatMap_cons, List.length_append, ih]; simp only [entryBytes, List.length_cons, List.length_nil]; omega

/-- A body sent by CUE_ADD reads as the entries it was made of (R20). -/
theorem parseCueAdd_eq {es : List (Nat × Nat)} (h1 : 1 ≤ es.length) (h255 : es.length ≤ 255)
    (hes : ∀ e ∈ es, 1 ≤ e.1 ∧ e.1 ≤ 1536 ∧ e.2 ≤ 1000) :
    parseCueAdd (b1 es.length ++ es.flatMap entryBytes) = .ok es := by
  have hcount : byteAt (b1 es.length ++ es.flatMap entryBytes) 0 = es.length :=
    (toNat_byte _).trans (Nat.mod_eq_of_lt (by omega))
  have hentries : (List.range es.length).map (fun i => entryAt (b1 es.length ++ es.flatMap entryBytes) (1 + 3 * i)) = es := by
    refine List.ext_getElem (by simp) fun i hi hi' => ?_
    rw [List.getElem_map, List.getElem_range, Nat.add_comm]
    exact entryAt_entries es (fun e he => by have := hes e he; omega) i hi'
  have hsize : (b1 es.length ++ es.flatMap entryBytes).length = 1 + 3 * es.length := by
    rw [List.length_append, length_entries]; rfl
  have range : es.all (fun e => isChannel e.1 && decide (e.2 ≤ 1000)) = true := by
    simp only [List.all_eq_true, Bool.and_eq_true, isChannel_iff, decide_eq_true_eq]
    exact fun e he => by have := hes e he; omega
  unfold parseCueAdd
  dsimp only
  rw [hcount, hentries, if_pos ⟨h1, by omega, range⟩, sized_ok hsize]

end Sys2Proof.Machine

namespace Sys2Proof.Machine

namespace State

/-! ### A cue builder changed or emptied -/

section Building

variable {β : Type} {c : Instr} {s : State} {p : PortId} {code : Nat} {r : Request} {rest : List Request}
  {parse : List Byte → Except Status β} {work : State → Requester → β → State} {v : β}

theorem builder_takeOff (s : State) (p : PortId) (rest : List Request) :
    ((s.takeOff p rest).port p).builder = (s.port p).builder := by cases p <;> rfl

theorem inside_setBuilder (s : State) (p : PortId) (x : Option Builder) : (s.setBuilder p x).inside = s.inside := by
  cases p <;> rfl

theorem link_setBuilder (s : State) (p : PortId) (x : Option Builder) : (s.setBuilder p x).link = s.link := by
  cases p <;> rfl

/-- The builder stands apart from the queue: it may be set before or after the request is taken off. -/
theorem setBuilder_takeOff (s : State) (p : PortId) (rest : List Request) (x : Option Builder) :
    (s.takeOff p rest).setBuilder p x = (s.setBuilder p x).takeOff p rest := by cases p <;> rfl

/-- A request whose work sets the port's builder and answers OK (R19, R20, R22). -/
theorem builds_of (hx : exec c s = .next (s.takeRequest p code parse work)) (hc : code < 256) (ht : s.Takes p code r rest)
    (hp : parse r.body = .ok v) {x : Option Builder} {fields : List Byte}
    (hw : work (s.takeOff p rest) (requesterOf p r) v =
      ((s.takeOff p rest).setBuilder p x).answer (requesterOf p r) .ok fields) :
    Runs c s (fun t => (s.setBuilder p x).Replies t p r rest .ok fields s) := by
  rw [setBuilder_takeOff] at hw
  obtain ⟨ha, hk, hi⟩ := replies_answer (r := r) (s := s.setBuilder p x) (u := (s.setBuilder p x).takeOff p rest) .ok fields
    rfl (takeOff_port _ p rest).2 (takeOff_link _ p rest)
  exact ⟨_, by rw [hx, takeRequest_takes hc ht hp, hw], ha, hk,
    hi.trans ((inside_takeOff _ p rest).trans (inside_setBuilder s p x))⟩

/-- CUE_CLOSE empties the builder of its port and queues its cue (R21). -/
theorem closes_of (hx : exec c s = .next (s.takeStoreRequest p code parse work)) (hc : code < 256)
    (ht : s.Takes p code r rest) (hp : parse r.body = .ok v) {w : WriteEntry}
    (hw : work (s.takeOff p rest) (requesterOf p r) v = ((s.takeOff p rest).setBuilder p none).enqueue w) :
    Settles c s (fun t => (s.setBuilder p none).Answered t p rest [] ∧ t.link = s.link ∧ t.inside = (s.enqueue w).inside) := by
  refine ⟨_, by rw [hx, takeStoreRequest_takes hc ht hp, hw, setBuilder_takeOff], ?_, ?_, ?_⟩
  · exact answered_owed (port_enqueue _ _ _) ((port_enqueue _ _ _).trans (takeOff_port _ p rest).2)
  · rw [link_enqueue, takeOff_link, link_setBuilder]
  · rw [inside_enqueue_takeOff]
    unfold enqueue setBuilder
    cases w.bank <;> cases p <;> rfl

end Building

theorem queueFull_takeOff (s : State) (p : PortId) (rest : List Request) : (s.takeOff p rest).queueFull = s.queueFull := by
  cases p <;> rfl

theorem queueFull_setBuilder (s : State) (p : PortId) (x : Option Builder) : (s.setBuilder p x).queueFull = s.queueFull := by
  cases p <;> rfl

/-! ### The requests of the cue builder -/

section Requests

variable {s : State} {p : PortId} {r : Request} {rest : List Request}

theorem parseNone_empty {b : List Byte} (h : b = []) : parseNone b = .ok () := by rw [h]; rfl

/-- CUE_OPEN past its body checks (R19). -/
theorem cueOpen_taken {x : Builder} (ht : s.Takes p 0x20 r rest) (hp : parseCueOpen r.body = .ok x) :
    ((s.port p).builder ≠ none → Refuses (.cueOpen p) s p r rest .builderOpen)
    ∧ ((s.port p).builder = none → (s.proj x.bank).valid = false → Refuses (.cueOpen p) s p r rest .blank)
    ∧ ((s.port p).builder = none → (s.proj x.bank).valid = true → Runs (.cueOpen p) s (fun t =>
        (s.setBuilder p (some x)).Replies t p r rest .ok [] s)) := by
  have hb : ((s.takeOff p rest).port (requesterOf p r).port).builder = (s.port p).builder := builder_takeOff s p rest
  refine ⟨fun h => ?_, fun h hv => ?_, fun h hv => ?_⟩
  · refine does_at_once rfl (by decide) ht hp ?_
    unfold cueOpenWork
    rw [hb, if_pos (Option.isSome_iff_ne_none.mpr h)]
  · refine does_at_once rfl (by decide) ht hp ?_
    unfold cueOpenWork
    rw [hb, if_neg (by simp [h]), proj_takeOff, if_pos hv]
  · refine builds_of rfl (by decide) ht hp ?_
    unfold cueOpenWork
    rw [hb, if_neg (by simp [h]), proj_takeOff, if_neg (by simp [hv])]
    rfl

/-- CUE_ADD past its body checks (R20). -/
theorem cueAdd_taken {es : List (Nat × Nat)} (ht : s.Takes p 0x21 r rest) (hp : parseCueAdd r.body = .ok es) :
    ((s.port p).builder = none → Refuses (.cueAdd p) s p r rest .noBuilder)
    ∧ ∀ x, (s.port p).builder = some x →
        (risesStrictly ((x.cue.levels.getLast?.map (fun e => e.1)).getD 0 :: es.map (fun e => e.1)) = false →
          Refuses (.cueAdd p) s p r rest .badValue)
        ∧ (1536 < (x.cue.levels ++ es).length → Refuses (.cueAdd p) s p r rest .badValue)
        ∧ (risesStrictly ((x.cue.levels.getLast?.map (fun e => e.1)).getD 0 :: es.map (fun e => e.1)) = true →
            (x.cue.levels ++ es).length ≤ 1536 → Runs (.cueAdd p) s (fun t =>
              (s.setBuilder p (some { x with cue := { x.cue with levels := x.cue.levels ++ es } })).Replies t p r rest .ok
                (b2 (x.cue.levels ++ es).length) s)) := by
  have hb : ((s.takeOff p rest).port (requesterOf p r).port).builder = (s.port p).builder := builder_takeOff s p rest
  refine ⟨fun h => ?_, fun x hx => ⟨fun hr => ?_, fun hl => ?_, fun hr hl => ?_⟩⟩
  · refine does_at_once rfl (by decide) ht hp ?_
    unfold cueAddWork
    rw [hb, h]
  · refine does_at_once rfl (by decide) ht hp ?_
    unfold cueAddWork
    rw [hb, hx]
    exact if_pos hr
  · refine does_at_once rfl (by decide) ht hp ?_
    unfold cueAddWork
    rw [hb, hx]
    dsimp only
    rw [ite_eq_left_iff]
    exact fun _ => if_pos hl
  · refine builds_of rfl (by decide) ht hp ?_
    unfold cueAddWork
    rw [hb, hx]
    dsimp only
    rw [if_neg (by simp [hr])]
    exact if_neg (Nat.not_lt.mpr hl)

/-- CUE_ABANDON past its body checks (R22). -/
theorem cueAbandon_taken (ht : s.Takes p 0x23 r rest) (hp : parseNone r.body = .ok ()) :
    ((s.port p).builder = none → Refuses (.cueAbandon p) s p r rest .noBuilder)
    ∧ ((s.port p).builder ≠ none → Runs (.cueAbandon p) s (fun t => (s.setBuilder p none).Replies t p r rest .ok [] s)) := by
  have hb : ((s.takeOff p rest).port (requesterOf p r).port).builder = (s.port p).builder := builder_takeOff s p rest
  refine ⟨fun h => ?_, fun h => ?_⟩
  · refine does_at_once rfl (by decide) ht hp ?_
    unfold cueAbandonWork
    rw [hb, h]; rfl
  · refine builds_of rfl (by decide) ht hp ?_
    unfold cueAbandonWork
    rw [hb, if_neg (by simpa using h)]
    rfl

/-- CUE_CLOSE past its body checks (R21). -/
theorem cueClose_taken (ht : s.Takes p 0x22 r rest) (hp : parseNone r.body = .ok ()) :
    ((s.port p).builder = none → Answers (.cueClose p) s p r rest .noBuilder [] s)
    ∧ ∀ x, (s.port p).builder = some x →
        ((s.proj x.bank).valid = false → Answers (.cueClose p) s p r rest .blank [] s)
        ∧ (∀ st, (s.proj x.bank).valid = true → (s.proj x.bank).capacity x.list x.cue = some st →
            Answers (.cueClose p) s p r rest st [] s)
        ∧ ((s.proj x.bank).valid = true → (s.proj x.bank).capacity x.list x.cue = none →
            (8 ≤ s.ctl.queue.length → Answers (.cueClose p) s p r rest .storeBusy [] s)
            ∧ (s.ctl.queue.length < 8 → Settles (.cueClose p) s (fun t =>
                (s.setBuilder p none).Answered t p rest [] ∧ t.link = s.link
                ∧ t.inside = (s.enqueue { kind := .cueWrite x.list x.cue, bank := some x.bank,
                                          req := requesterOf p r, status := .ok, doomed := none }).inside))) := by
  have hb : ((s.takeOff p rest).port (requesterOf p r).port).builder = (s.port p).builder := builder_takeOff s p rest
  refine ⟨fun h => ?_, fun x hx => ⟨fun hv => ?_, fun st hv hcap => ?_, fun hv hcap => ⟨fun hq => ?_, fun hq => ?_⟩⟩⟩
  · refine answers_of rfl (by decide) ht hp ?_
    unfold cueCloseWork
    rw [hb, h]
  all_goals
    have valid : ((s.takeOff p rest).proj x.bank).valid = (s.proj x.bank).valid := by rw [proj_takeOff]
  · refine answers_of rfl (by decide) ht hp ?_
    unfold cueCloseWork
    rw [hb, hx]
    exact if_pos (valid.trans hv)
  · refine answers_of rfl (by decide) ht hp ?_
    unfold cueCloseWork
    rw [hb, hx]
    dsimp only
    rw [if_neg (by simp [valid, hv]), proj_takeOff, hcap]
  · refine answers_of rfl (by decide) ht hp ?_
    unfold cueCloseWork
    rw [hb, hx]
    dsimp only
    rw [if_neg (by simp [valid, hv]), proj_takeOff, hcap]
    exact if_pos ((queueFull_takeOff s p rest).trans ((queueFull_iff s).mpr hq))
  · have room : s.queueFull ≠ true := mt (queueFull_iff s).mp (Nat.not_le.mpr hq)
    refine closes_of rfl (by decide) ht hp ?_
    unfold cueCloseWork
    rw [hb, hx]
    dsimp only
    rw [if_neg (by simp [valid, hv]), proj_takeOff, hcap]
    dsimp only
    rw [if_neg (by rwa [queueFull_takeOff])]
    exact if_neg (by rwa [queueFull_setBuilder, queueFull_takeOff])

/-- CUE_DELETE past its body checks (R23). -/
theorem cueDelete_taken {b : Bank} {l : PbId} {n : Nat} (ht : s.Takes p 0x24 r rest)
    (hp : parseCueDelete r.body = .ok ((b, l), n)) :
    ((s.proj b).valid = false → Answers (.cueDelete p) s p r rest .blank [] s)
    ∧ ((s.proj b).valid = true → Assoc.find ((s.proj b).dir.get l) n = none → Answers (.cueDelete p) s p r rest .notFound [] s)
    ∧ (∀ d, (s.proj b).valid = true → Assoc.find ((s.proj b).dir.get l) n = some d →
        (8 ≤ s.ctl.queue.length → Answers (.cueDelete p) s p r rest .storeBusy [] s)
        ∧ (s.ctl.queue.length < 8 → Owes (.cueDelete p) s p rest
            (s.enqueue { kind := .cueDelete l n, bank := some b, req := requesterOf p r, status := .ok, doomed := none }))) := by
  refine ⟨fun hv => ?_, fun hv hf => ?_, fun d hv hf => ?_⟩
  · refine answers_of rfl (by decide) ht hp ?_
    unfold cueDeleteWork
    rw [proj_takeOff, if_pos hv]
  · refine answers_of rfl (by decide) ht hp ?_
    unfold cueDeleteWork
    rw [proj_takeOff, if_neg (by simp [hv])]
    exact if_pos (by rw [hf]; rfl)
  · refine acceptWrite_taken rfl (by decide) ht hp ?_
    unfold cueDeleteWork
    rw [proj_takeOff, if_neg (by simp [hv])]
    exact if_neg (by simp [hf])

/-- RECORD past its body checks (R77). -/
theorem record_taken {a : RecordArgs} (ht : s.Takes p 0x28 r rest) (hp : parseRecord r.body = .ok a) :
    (s.bank.active = none → Answers (.record p) s p r rest .noShow [] s)
    ∧ ∀ b, s.bank.active = some b →
        (∀ st, (s.proj b).capacity a.playback (recordedCue a (s.pb a.playback).look) = some st →
          Answers (.record p) s p r rest st [] s)
        ∧ ((s.proj b).capacity a.playback (recordedCue a (s.pb a.playback).look) = none → 8 ≤ s.ctl.queue.length →
            Answers (.record p) s p r rest .storeBusy [] s)
        ∧ ((s.proj b).capacity a.playback (recordedCue a (s.pb a.playback).look) = none → s.ctl.queue.length < 8 →
            Owes (.record p) s p rest
              (s.enqueue { kind := .cueWrite a.playback (recordedCue a (s.pb a.playback).look), bank := some b,
                           req := requesterOf p r, status := .ok, doomed := none })) := by
  have look : ((s.takeOff p rest).pb a.playback).look = (s.pb a.playback).look := by cases p <;> rfl
  have active : (s.takeOff p rest).bank.active = s.bank.active := by cases p <;> rfl
  refine ⟨fun h => ?_, fun b h => ⟨fun st hcap => ?_, fun hcap hq => ?_, fun hcap hq => ?_⟩⟩
  · refine answers_of rfl (by decide) ht hp ?_
    unfold recordWork
    rw [active, h]
  · refine answers_of rfl (by decide) ht hp ?_
    unfold recordWork
    rw [active, h]
    dsimp only
    rw [look, proj_takeOff, hcap]
  · refine answers_of rfl (by decide) ht hp ?_
    unfold recordWork
    rw [active, h]
    dsimp only
    rw [look, proj_takeOff, hcap]
    exact if_pos ((queueFull_takeOff s p rest).trans ((queueFull_iff s).mpr hq))
  · have room : s.queueFull ≠ true := mt (queueFull_iff s).mp (Nat.not_le.mpr hq)
    refine owes_of rfl (by decide) ht hp ?_
    unfold recordWork
    rw [active, h]
    dsimp only
    rw [look, proj_takeOff, hcap]
    exact if_neg (by rwa [queueFull_takeOff])

end Requests

end State

/-! ### The BAD_VALUE checks of the cue requests -/

theorem cueOpen_outOfRange {b : List Byte} (h : (3 < byteAt b 0 ∨ byteAt b 1 < 1 ∨ 4 < byteAt b 1) ∨ wordAt b 2 < 1
    ∨ 9999 < wordAt b 2 ∨ 6000 < wordAt b 4 ∨ (wordAt b 6 ≠ 65535 ∧ (wordAt b 6 < 0 ∨ 6000 < wordAt b 6))
    ∨ 6000 < wordAt b 8 ∨ 6000 < wordAt b 10 ∨ (wordAt b 12 ≠ 65535 ∧ (wordAt b 12 < 0 ∨ 6000 < wordAt b 12))
    ∨ (wordAt b 14 ≠ 65535 ∧ (wordAt b 14 < 1 ∨ 9999 < wordAt b 14)) ∨ 1 < byteAt b 16 ∨ 16 < byteAt b 17
    ∨ ∃ x ∈ b.drop 18, x.toNat < 32 ∨ 126 < x.toNat) : fieldOutOfRange 0x20 b = true := by
  simpa [fieldOutOfRange, outside, unprintable, or_assoc] using h

theorem cueAdd_outOfRange {b : List Byte} (h : byteAt b 0 = 0 ∨ ∃ i, i < byteAt b 0 ∧
    (let n := byteAt b (1 + 3 * i) + 256 * byteAt b (2 + 3 * i) + 65536 * byteAt b (3 + 3 * i)
     n % 2048 < 1 ∨ 1536 < n % 2048 ∨ 1000 < n / 2048)) : fieldOutOfRange 0x21 b = true := by
  simpa [fieldOutOfRange, outside, or_assoc] using h

theorem cueDelete_outOfRange {b : List Byte} (h : (3 < byteAt b 0 ∨ byteAt b 1 < 1 ∨ 4 < byteAt b 1) ∨ wordAt b 2 < 1
    ∨ 9999 < wordAt b 2) : fieldOutOfRange 0x24 b = true := by
  simpa [fieldOutOfRange, outside, or_assoc] using h

theorem record_outOfRange {b : List Byte} (h : byteAt b 0 < 1 ∨ 4 < byteAt b 0 ∨ wordAt b 1 < 1 ∨ 9999 < wordAt b 1
    ∨ 6000 < wordAt b 3 ∨ (wordAt b 5 ≠ 65535 ∧ (wordAt b 5 < 0 ∨ 6000 < wordAt b 5)) ∨ 16 < byteAt b 7
    ∨ ∃ x ∈ b.drop 8, x.toNat < 32 ∨ 126 < x.toNat) : fieldOutOfRange 0x28 b = true := by
  simpa [fieldOutOfRange, outside, unprintable, or_assoc] using h

/-- A body that counts its own size fits when it is of that size (R167). -/
theorem bodyFits_of_counted {code n : Nat} {b : List Byte} (hc : countedSize code b = some n) (h : b.length = n) :
    bodyFits code b = true := by
  simp [bodyFits, hc, h]

theorem bodyFits_of_fixed {code n : Nat} {b : List Byte} (hc : bodySize code = some n) (h : b.length = n) :
    bodyFits code b = true := by
  simp [bodyFits, hc, h]

/-- Settles O22: the capacity by the tables of the directory, the refusals by the body checks, then each request by its
work on the fields that its body reads as. -/
theorem cuesAreBuiltAndQueued : Obligations.CuesAreBuiltAndQueued := by
  unfold Obligations.CuesAreBuiltAndQueued
  refine ⟨fun h l c hv hwf => ?_, fun s p r rest hu hh hst => ?_⟩
  · intro lengths counts old cues entries
    have hcues : (h.apply (.cueWrite l c)).cues = cues := Header.cues_apply hv l c hwf
    have hentries : (h.apply (.cueWrite l c)).entries = entries := Header.entries_apply hv l c hwf
    have tests := h.capacity_cases l c
    rw [hcues, hentries] at tests
    exact ⟨rfl, rfl, tests⟩
  · have takes {code : Nat} (hd : s.Head p code r rest) (hk : kindInfo code = some (.edit, false))
        (hdec : needsDecision code = false) : s.Takes p code r rest := State.takes_edit hd hu hk hh hst hdec
    refine ⟨⟨fun hd _ hl h => ?_, fun hd hl h => ?_, fun hd hl h => ?_, fun hd _ hl h => ?_⟩,
      fun b l c hd hb hlev h1 h2 hup hdown hud hdd hfol hlink hlen htext => ?_, fun es hd hb h1 h255 hes => ?_,
      fun hd hb => ?_, fun hd hb => ?_, fun b l n hd hb h1 h2 => ?_, fun q n up down label hd hb h1 h2 hup hdown hlen htext => ?_⟩
    · exact State.refuses_value rfl (by decide) checks_cueOpen (takes hd rfl rfl) (bodyFits_of_counted rfl hl)
        (cueOpen_outOfRange h)
    · exact State.refuses_value rfl (by decide) checks_cueAdd (takes hd rfl rfl) (bodyFits_of_counted rfl hl)
        (cueAdd_outOfRange h)
    · exact State.refuses_value rfl (by decide) checks_cueDelete (takes hd rfl rfl) (bodyFits_of_fixed rfl hl)
        (cueDelete_outOfRange h)
    · exact State.refuses_value rfl (by decide) checks_record (takes hd rfl rfl) (bodyFits_of_counted rfl hl)
        (record_outOfRange h)
    · exact State.cueOpen_taken (takes hd rfl rfl)
        (hb ▸ parseCueOpen_eq hlev ⟨h1, h2⟩ hup hdown hud hdd hfol hlink hlen htext)
    · exact State.cueAdd_taken (takes hd rfl rfl) (hb ▸ parseCueAdd_eq h1 h255 hes)
    · exact State.cueAbandon_taken (takes hd rfl rfl) (State.parseNone_empty hb)
    · exact State.cueClose_taken (takes hd rfl rfl) (State.parseNone_empty hb)
    · exact State.cueDelete_taken (takes hd rfl rfl) (hb ▸ parseCueDelete_eq b l ⟨h1, h2⟩)
    · exact State.record_taken (takes hd rfl rfl) (hb ▸ parseRecord_eq q ⟨h1, h2⟩ hup hdown hlen htext)

end Sys2Proof.Machine

namespace Sys2Proof.Machine

/-! ### The windows of a bank -/

/-- Two present windows stand so that neither ends before the other begins (R33). -/
def Windows.meets : Option Window → Option Window → Bool
  | some x, some y => x.first ≤ y.last && y.first ≤ x.last
  | _, _ => false

namespace Windows

theorem meets_iff (a b : Option Window) :
    meets a b = true ↔ ∃ x y, a = some x ∧ b = some y ∧ x.first ≤ y.last ∧ y.first ≤ x.last := by
  cases a <;> cases b <;> simp [meets]

theorem meets_comm (a b : Option Window) : meets a b = meets b a := by
  cases a <;> cases b <;> simp [meets, Bool.and_comm]

theorem overlap_eq (w : Windows) : w.overlap = (meets w.x0 w.x1 || meets w.x0 w.x2 || meets w.x0 w.x3 || meets w.x1 w.x2
    || meets w.x1 w.x3 || meets w.x2 w.x3) := rfl

/-- The windows overlap when two of them meet. -/
theorem overlap_iff_meets (w : Windows) : w.overlap = true ↔ ∃ i j : Fin 4, i ≠ j ∧ meets (w.get i) (w.get j) = true := by
  rw [overlap_eq]
  simp only [Bool.or_eq_true]
  constructor
  · rintro (((((h | h) | h) | h) | h) | h)
    · exact ⟨0, 1, by decide, h⟩
    · exact ⟨0, 2, by decide, h⟩
    · exact ⟨0, 3, by decide, h⟩
    · exact ⟨1, 2, by decide, h⟩
    · exact ⟨1, 3, by decide, h⟩
    · exact ⟨2, 3, by decide, h⟩
  · rintro ⟨i, j, hij, h⟩
    have h' := h
    rw [meets_comm] at h'
    fin_cases i <;> fin_cases j <;> simp_all [Four.get]

/-- Present windows overlap exactly when two of them share a circuit (R33). -/
theorem overlap_iff {w : Windows} (hw : ∀ i x, w.get i = some x → x.first ≤ x.last) :
    w.overlap = true ↔ ∃ i j : Fin 4, i ≠ j ∧ ∃ x y k, w.get i = some x ∧ w.get j = some y ∧ x.first ≤ k ∧ k ≤ x.last
      ∧ y.first ≤ k ∧ k ≤ y.last := by
  rw [overlap_iff_meets]
  refine exists_congr fun i => exists_congr fun j => and_congr_right fun _ => ?_
  rw [meets_iff]
  refine exists_congr fun x => exists_congr fun y => ⟨?_, ?_⟩
  · rintro ⟨hx, hy, hxy, hyx⟩
    have fx := hw i x hx
    have fy := hw j y hy
    exact ⟨max x.first y.first, hx, hy, le_max_left _ _, max_le fx hyx, le_max_right _ _, max_le hxy fy⟩
  · rintro ⟨k, hx, hy, h1, h2, h3, h4⟩
    exact ⟨hx, hy, h1.trans h4, h3.trans h2⟩

end Windows

/-! ### The bodies of PATCH_SET, WINDOW_SET and BANK_TITLE -/

theorem sized_eq_ok {α : Type} {n : Nat} {b : List Byte} {o : Option α} {v : α} (h : sized n b o = .ok v) :
    b.length = n ∧ o = some v := by
  unfold sized at h
  split_ifs at h with hn
  cases o with
  | none => exact nomatch h
  | some x => exact ⟨not_not.mp hn, congrArg some (Except.ok.inj h)⟩

theorem bank?_eq_some {n : Nat} {b : Bank} (h : bank? n = some b) : b.val = n := by
  unfold bank? at h
  split_ifs at h
  exact congrArg Fin.val (Option.some.inj h).symm

/-- A body whose fields fit their size and stand in their ranges is parsed. -/
theorem Checks.parses {β : Type} {code : Nat} {parse : List Byte → Except Status β} (hk : Checks code parse) {b : List Byte}
    (hf : bodyFits code b = true) (ho : fieldOutOfRange code b ≠ true) : ∃ v, parse b = .ok v :=
  (hk b).2.2 (by simp [bodyPasses, hf, ho])

/-- One record of PATCH_SET in its ranges, read (R34). -/
theorem patchPairAt_eq {b : List Byte} {i : Nat} {e : Nat × Option PatchEntry} (h : patchPairAt b i = some e) :
    e = (wordAt b i, if wordAt b (i + 2) = 65535 then none else some
      { channel := wordAt b (i + 2), proportion := byteAt b (i + 4), curve := byteAt b (i + 5) }) := by
  unfold patchPairAt at h
  dsimp only at h
  rw [show Config.absent = 65535 from rfl] at h
  split_ifs at h ⊢ <;> exact (Option.some.inj h).symm

theorem patchSet_outOfRange_iff (b : List Byte) : fieldOutOfRange 0x25 b = true ↔
    3 < byteAt b 0 ∨ byteAt b 1 = 0 ∨ 64 < byteAt b 1
    ∨ (∃ i, i < byteAt b 1 ∧ (wordAt b (2 + 6 * i) < 1 ∨ 2304 < wordAt b (2 + 6 * i)
        ∨ (wordAt b (4 + 6 * i) ≠ 65535 ∧ (wordAt b (4 + 6 * i) < 1 ∨ 1536 < wordAt b (4 + 6 * i)
          ∨ 100 < byteAt b (6 + 6 * i) ∨ 7 < byteAt b (7 + 6 * i)))))
    ∨ (∃ i, i + 1 < byteAt b 1 ∧ wordAt b (2 + 6 * (i + 1)) ≤ wordAt b (2 + 6 * i)) := by
  simp [fieldOutOfRange, outside, or_assoc, Nat.lt_sub_iff_add_lt, show ∀ i, 2 + 6 * (i + 1) = 8 + 6 * i by omega]

/-- One record of a PATCH_SET body, its circuit and its entry, absent for channel 65535 (R34). -/
def patchRecord (b : List Byte) (i : Nat) : Nat × Option PatchEntry :=
  (wordAt b (2 + 6 * i), if wordAt b (4 + 6 * i) = 65535 then none else some
    { channel := wordAt b (4 + 6 * i), proportion := byteAt b (6 + 6 * i), curve := byteAt b (7 + 6 * i) })

theorem patchPairAt_record {b : List Byte} {i : Nat} {e : Nat × Option PatchEntry} (h : patchPairAt b (2 + 6 * i) = some e) :
    e = patchRecord b i := by
  rw [patchPairAt_eq h]
  simp only [patchRecord, show 2 + 6 * i + 2 = 4 + 6 * i by omega, show 2 + 6 * i + 4 = 6 + 6 * i by omega,
    show 2 + 6 * i + 5 = 7 + 6 * i by omega]

/-- The records that PATCH_SET carries, in their order (R34). -/
theorem parsePatchSet_records {body : List Byte} {b : Bank} {pairs : List (Nat × Option PatchEntry)}
    (h : parsePatchSet body = .ok (b, pairs)) :
    b.val = byteAt body 0 ∧ pairs = (List.range (byteAt body 1)).map (patchRecord body) := by
  obtain ⟨-, h⟩ := sized_eq_ok h
  obtain ⟨k, hk, h⟩ := Option.bind_eq_some_iff.mp h
  split_ifs at h with hall
  obtain ⟨-, -, hlen, -⟩ := hall
  obtain ⟨rfl, rfl⟩ := Prod.ext_iff.mp (Option.some.inj h)
  have whole := (length_filterMap_eq (fun i => patchPairAt body (2 + 6 * i)) (List.range (byteAt body 1))).mp
    (hlen.trans List.length_range.symm)
  refine ⟨bank?_eq_some hk, ?_⟩
  dsimp only
  rw [← List.filterMap_eq_map]
  refine List.filterMap_congr fun i hi => ?_
  obtain ⟨e, he⟩ := Option.ne_none_iff_exists'.mp (by simpa using List.any_eq_false.mp whole i hi)
  rw [he, patchPairAt_record he]; rfl

theorem windowAt_eq {b : List Byte} {i : Nat} {o : Option Window} (h : windowAt b i = some o) :
    o = if byteAt b i = 1 then
      some { first := wordAt b (i + 1), last := wordAt b (i + 3), channel := wordAt b (i + 5) } else none := by
  unfold windowAt at h
  split_ifs at h with h0 h1
  · rw [if_neg (by omega)]; exact (Option.some.inj h).symm
  · rw [if_pos h1.1]; exact (Option.some.inj h).symm

theorem windowSet_outOfRange_iff (b : List Byte) : fieldOutOfRange 0x26 b = true ↔
    3 < byteAt b 0 ∨ ∃ i, i < 4 ∧ (1 < byteAt b (1 + 7 * i) ∨ (byteAt b (1 + 7 * i) = 1 ∧ (wordAt b (2 + 7 * i) < 1
      ∨ 2304 < wordAt b (2 + 7 * i) ∨ wordAt b (4 + 7 * i) < 1 ∨ 2304 < wordAt b (4 + 7 * i)
      ∨ wordAt b (4 + 7 * i) < wordAt b (2 + 7 * i) ∨ wordAt b (6 + 7 * i) < 1 ∨ 1536 < wordAt b (6 + 7 * i)))) := by
  simp only [fieldOutOfRange, outside]
  simp [or_assoc]

/-- The windows that WINDOW_SET carries (R33). -/
theorem parseWindowSet_windows {body : List Byte} {b : Bank} {w : Windows} (h : parseWindowSet body = .ok (b, w)) :
    b.val = byteAt body 0 ∧ ∀ i : Fin 4, windowAt body (1 + 7 * i.val) = some (w.get i) := by
  obtain ⟨-, h⟩ := sized_eq_ok h
  split at h
  next k w0 w1 w2 w3 hk h0 h1 h2 h3 =>
    obtain ⟨rfl, rfl⟩ := Prod.ext_iff.mp (Option.some.inj h)
    refine ⟨bank?_eq_some hk, fun i => ?_⟩
    fin_cases i
    · exact h0
    · exact h1
    · exact h2
    · exact h3
  next => exact nomatch h

theorem bankTitle_outOfRange {b : List Byte} (h : 3 < byteAt b 0 ∨ 24 < byteAt b 1
    ∨ ∃ x ∈ b.drop 2, x.toNat < 32 ∨ 126 < x.toNat) : fieldOutOfRange 0x27 b = true := by
  simpa [fieldOutOfRange, outside, unprintable, or_assoc] using h

/-- A body sent by BANK_TITLE reads as the bank and the title it was made of (R16). -/
theorem parseBankTitle_eq (b : Bank) {title : List Byte} (hlen : title.length ≤ 24)
    (htext : ∀ x ∈ title, 32 ≤ x.toNat ∧ x.toNat ≤ 126) :
    parseBankTitle (b1 b.val ++ b1 title.length ++ title) = .ok (b, title) := by
  have hbank : bank? (byteAt (b1 b.val ++ b1 title.length ++ title) 0) = some b := bank?_byteAt b _
  have hcount : byteAt (b1 b.val ++ b1 title.length ++ title) 1 = title.length :=
    (toNat_byte _).trans (Nat.mod_eq_of_lt (by omega))
  have hdrop : (b1 b.val ++ b1 title.length ++ title).drop 2 = title := rfl
  unfold parseBankTitle
  rw [hbank, hcount, hdrop, Option.bind_some, if_pos ⟨hlen, isText_of htext⟩]
  refine sized_ok ?_
  rw [List.length_append, List.length_append]; rfl

namespace State

section Requests

variable {s : State} {p : PortId} {r : Request} {rest : List Request}

/-- WINDOW_SET past its body checks (R33). -/
theorem windowSet_taken {b : Bank} {w : Windows} (ht : s.Takes p 0x26 r rest) (hp : parseWindowSet r.body = .ok (b, w)) :
    (w.overlap = true → Answers (.windowSet p) s p r rest .overlap [] s)
    ∧ (w.overlap = false → (s.proj b).valid = false → Answers (.windowSet p) s p r rest .blank [] s)
    ∧ (w.overlap = false → (s.proj b).valid = true → 8 ≤ s.ctl.queue.length →
        Answers (.windowSet p) s p r rest .storeBusy [] s)
    ∧ (w.overlap = false → (s.proj b).valid = true → s.ctl.queue.length < 8 → Owes (.windowSet p) s p rest
        (s.enqueue { kind := .windowWrite w, bank := some b, req := requesterOf p r, status := .ok, doomed := none })) := by
  have apart (ho : w.overlap = false) := acceptBankWrite_taken (c := .windowSet p) rfl (by decide) ht hp
    (if_neg (by simp [ho]))
  refine ⟨fun ho => ?_, fun ho => (apart ho).1, fun ho => (apart ho).2.1, fun ho => (apart ho).2.2⟩
  exact answers_of rfl (by decide) ht hp (if_pos ho)

/-- BANK_ERASE past its body checks (R15). -/
theorem bankErase_taken {b : Bank} (ht : s.Takes .console 0x52 r rest) (hp : parseBank r.body = .ok b) :
    (s.bank.active = some b → Answers (.bankErase .console) s .console r rest .activeBank [] s)
    ∧ (∀ c, s.bank.active ≠ some b → s.bank.change = some c → c.target = b →
        Answers (.bankErase .console) s .console r rest .inChangeover [] s)
    ∧ (s.bank.active ≠ some b → (∀ c, s.bank.change = some c → c.target ≠ b) →
        (8 ≤ s.ctl.queue.length → Answers (.bankErase .console) s .console r rest .storeBusy [] s)
        ∧ (s.ctl.queue.length < 8 → Owes (.bankErase .console) s .console rest
            (s.enqueue { kind := .bankErase, bank := some b, req := requesterOf .console r, status := .ok,
                         doomed := none }))) := by
  have target : (s.takeOff .console rest).isTarget b = (match s.bank.change with
      | some c => decide (c.target = b)
      | none => false) := rfl
  refine ⟨fun ha => ?_, fun c ha hc hb => ?_, fun ha hc => ?_⟩
  · exact answers_of rfl (by decide) ht hp (if_pos ha)
  · refine answers_of rfl (by decide) ht hp ((if_neg ha).trans (if_pos ?_))
    rw [target, hc]; exact decide_eq_true hb
  · refine acceptWrite_taken rfl (by decide) ht hp ((if_neg ha).trans (if_neg ?_))
    rw [target]
    cases hch : s.bank.change with
    | none => exact Bool.false_ne_true
    | some c => simpa using hc c hch

end Requests

end State

/-- Settles O23: overlapping windows share a circuit; the refusals and the records by the body checks; each accepted write
is refused or joins the queue. -/
theorem bankWritesAreQueued : Obligations.BankWritesAreQueued := by
  unfold Obligations.BankWritesAreQueued
  refine ⟨fun w hw => Windows.overlap_iff hw, fun s p r rest hh hst => ?_⟩
  have takes {code : Nat} (hd : s.Head p code r rest) (hu : s.MayUse p .edit) (hk : kindInfo code = some (.edit, false))
      (hdec : needsDecision code = false) : s.Takes p code r rest := State.takes_edit hd hu hk hh hst hdec
  refine ⟨fun count hd hu hcount hl => ?_, fun hd hu hl => ?_, fun hd hu hl h => ?_, fun b pairs hd hu hp => ?_,
    fun b w hd hu hp => ?_, fun b title hd hu hb hlen htext => ?_, fun b hd hf hb => ?_⟩
  · subst hcount
    intro circuit channel bad
    have fits : bodyFits 0x25 r.body = true := bodyFits_of_counted rfl hl
    refine ⟨fun h => ?_, fun h => ?_⟩
    · exact State.refuses_value rfl (by decide) checks_patchSet (takes hd hu rfl rfl) fits ((patchSet_outOfRange_iff _).mpr h)
    · obtain ⟨⟨b, pairs⟩, hp⟩ := checks_patchSet.parses fits (mt (patchSet_outOfRange_iff _).mp h)
      obtain ⟨hb, rfl⟩ := parsePatchSet_records hp
      refine ⟨b, _, hb, hp, by simp, fun i hi => ?_⟩
      simp [hi]; rfl
  · intro present first last channel bad
    have fits : bodyFits 0x26 r.body = true := bodyFits_of_fixed rfl hl
    refine ⟨fun h => ?_, fun h => ?_⟩
    · exact State.refuses_value rfl (by decide) checks_windowSet (takes hd hu rfl rfl) fits ((windowSet_outOfRange_iff _).mpr h)
    · obtain ⟨⟨b, w⟩, hp⟩ := checks_windowSet.parses fits (mt (windowSet_outOfRange_iff _).mp h)
      obtain ⟨hb, hw⟩ := parseWindowSet_windows hp
      refine ⟨b, w, hb, hp, fun i => ?_⟩
      rw [windowAt_eq (hw i)]
      fin_cases i <;> rfl
  · exact State.refuses_value rfl (by decide) checks_bankTitle (takes hd hu rfl rfl) (bodyFits_of_counted rfl hl)
      (bankTitle_outOfRange h)
  · exact State.acceptBankWrite_taken rfl (by decide) (takes hd hu rfl rfl) hp rfl
  · exact State.windowSet_taken (takes hd hu rfl rfl) hp
  · exact State.acceptBankWrite_taken rfl (by decide) (takes hd hu rfl rfl) (hb ▸ parseBankTitle_eq b hlen htext) rfl
  · have ht : s.Takes .console 0x52 r rest :=
      State.takes_of .consoleOnly false hd ⟨.inl rfl, hf⟩ rfl (.inr hh) (State.mustWait_ended hst rfl)
    exact State.bankErase_taken ht (hb ▸ parseBank_eq b)

end Sys2Proof.Machine

namespace Sys2Proof.Machine

/-! ### The points of a curve made legal -/

theorem length_legalPoints (low : Nat) (l : List Nat) : (legalPoints low l).length = l.length := by
  induction l generalizing low with
  | nil => rfl
  | cons p rest ih => exact congrArg (· + 1) (ih _)

theorem getD_zero_legalPoints (low : Nat) {l : List Nat} (h : l ≠ []) :
    (legalPoints low l).getD 0 0 = max low (l.getD 0 0) := by
  cases l with
  | nil => exact absurd rfl h
  | cons p rest => rfl

/-- A point made legal is raised to the one before it, as already made legal (R40). -/
theorem getD_succ_legalPoints (low : Nat) (l : List Nat) (i : Nat) (h : i + 1 < l.length) :
    (legalPoints low l).getD (i + 1) 0 = max ((legalPoints low l).getD i 0) (l.getD (i + 1) 0) := by
  induction l generalizing low i with
  | nil => exact absurd h (Nat.not_lt_zero _)
  | cons p rest ih =>
    cases i with
    | zero => exact getD_zero_legalPoints (max low p) (List.ne_nil_of_length_pos (by simpa using h))
    | succ i => exact ih (max low p) i (Nat.lt_of_succ_lt_succ h)

/-! ### Numbers in a row within a body -/

theorem byteAt_append (pre l : List Byte) (i : Nat) : byteAt (pre ++ l) (pre.length + i) = byteAt l i := by
  unfold byteAt
  rw [List.getD_append_right _ _ _ _ (Nat.le_add_right _ _), Nat.add_sub_cancel_left]

theorem wordAt_append (pre l : List Byte) (i : Nat) : wordAt (pre ++ l) (pre.length + i) = wordAt l i := by
  unfold wordAt
  rw [Nat.add_assoc, byteAt_append, byteAt_append]

theorem length_words (l : List Nat) : (l.flatMap b2).length = 2 * l.length := by
  induction l with
  | nil => rfl
  | cons n l ih => rw [List.flatMap_cons, List.length_append, ih]; simp only [b2, List.length_cons, List.length_nil]; omega

/-- Numbers sent two bytes each read as themselves (chapter 1.7). -/
theorem wordAt_words (l : List Nat) (h : ∀ n ∈ l, n ≤ 65535) (rest : List Byte) (i : Nat) (hi : i < l.length) :
    wordAt (l.flatMap b2 ++ rest) (2 * i) = l[i] := by
  induction l generalizing i with
  | nil => exact absurd hi (Nat.not_lt_zero i)
  | cons n l ih =>
    obtain ⟨hn, hl⟩ := List.forall_mem_cons.mp h
    cases i with
    | zero => exact wordAt_byte (Nat.lt_succ_of_le hn) _
    | succ i => exact ih hl i (Nat.lt_of_succ_lt_succ hi)

theorem map_wordAt_words {l : List Nat} (h : ∀ n ∈ l, n ≤ 65535) (pre rest : List Byte) :
    (List.range l.length).map (fun i => wordAt (pre ++ (l.flatMap b2 ++ rest)) (pre.length + 2 * i)) = l := by
  refine List.ext_getElem (by simp) fun i hi hi' => ?_
  rw [List.getElem_map, List.getElem_range, wordAt_append, wordAt_words l h]

theorem sized_fits {α : Type} {n : Nat} {b : List Byte} (o : Option α) (h : b.length = n) :
    sized n b o = o.elim (.error .badValue) .ok := by
  unfold sized; rw [if_neg (not_not_intro h)]
  cases o <;> rfl

theorem sized_ite {α : Type} {n : Nat} {b : List Byte} {c : Prop} [Decidable c] (v : α) (h : b.length = n) :
    sized n b (if c then some v else none) = if c then .ok v else .error .badValue := by
  rw [sized_fits _ h]
  split_ifs <;> rfl

theorem byteAt_byte_cons {n : Nat} (h : n ≤ 255) (l : List Byte) : byteAt (byte n :: l) 0 = n :=
  (toNat_byte n).trans (Nat.mod_eq_of_lt (Nat.lt_succ_of_le h))

/-! ### The bodies of the house writes -/

/-- HOUSE_SET reads its selector and its value (R170). -/
theorem parseHouseSet_eq {sel v : Nat} (hs : sel ≤ 255) (hv : v ≤ 65535) :
    parseHouseSet (b1 sel ++ b2 v) = (houseSetItem sel v).elim (.error .badValue) .ok := by
  have hsel : byteAt (b1 sel ++ b2 v) 0 = sel := byteAt_byte_cons hs _
  have hval : wordAt (b1 sel ++ b2 v) 1 = v := wordAt_byte (Nat.lt_succ_of_le hv) []
  unfold parseHouseSet
  rw [hsel, hval]
  exact sized_fits _ rfl

/-- CURVE_SET reads its number and its points (R40). -/
theorem parseCurveSet_eq {n : Nat} {points : List Nat} (hn : n ≤ 255) (hl : points.length = 21)
    (hp : ∀ x ∈ points, x ≤ 65535) : parseCurveSet (b1 n ++ points.flatMap b2) =
      if 1 ≤ n ∧ n ≤ 7 then .ok (.curve n (legalPoints 0 points), decide (legalPoints 0 points ≠ points))
      else .error .badValue := by
  have hnum : byteAt (b1 n ++ points.flatMap b2) 0 = n := byteAt_byte_cons hn _
  have hpoints : (List.range 21).map (fun i => wordAt (b1 n ++ points.flatMap b2) (1 + 2 * i)) = points := by
    have h := map_wordAt_words hp (b1 n) []
    rwa [hl, List.append_nil] at h
  have hsize : (b1 n ++ points.flatMap b2).length = 43 := by rw [List.length_append, length_words, hl]; rfl
  unfold parseCurveSet
  dsimp only
  rw [hnum, hpoints]
  exact sized_ite _ hsize

/-- LINE_SET reads its five bytes (R131). -/
theorem parseLineSet_eq {stage line enabled rate width : Nat} (hs : stage ≤ 255) (hl : line ≤ 255) (he : enabled ≤ 255)
    (hr : rate ≤ 255) (hw : width ≤ 255) : parseLineSet (b1 stage ++ b1 line ++ b1 enabled ++ b1 rate ++ b1 width) =
      if stage ≤ 3 ∧ isLine line ∧ enabled ≤ 1 ∧ rate ≤ 1 ∧ width ≤ 1 then
        .ok (.line stage line { enabled := decide (enabled = 1), slow := decide (rate = 1), wide := decide (width = 1) })
      else .error .badValue := by
  have explicit : b1 stage ++ b1 line ++ b1 enabled ++ b1 rate ++ b1 width =
    [byte stage, byte line, byte enabled, byte rate, byte width] := rfl
  rw [explicit]
  unfold parseLineSet
  rw [sized_ite (n := 5) _ rfl]
  simp only [byteAt_cons_succ, byteAt_byte_cons, hs, hl, he, hr, hw]

/-- The item that the fields of INPUT_SET name (R79). -/
def inputItem (input enabled playback action : Nat) : Option HouseItem :=
  (idx4 input).bind fun i => (idx4 playback).bind fun p => (inputSetting? action).bind fun a =>
    if enabled ≤ 1 then some (.input i { enabled := decide (enabled = 1), playback := p, action := a }) else none

/-- INPUT_SET reads its four bytes (R79). -/
theorem parseInputSet_eq {input enabled playback action : Nat} (hi : input ≤ 255) (he : enabled ≤ 255)
    (hp : playback ≤ 255) (ha : action ≤ 255) :
    parseInputSet (b1 input ++ b1 enabled ++ b1 playback ++ b1 action) =
      (inputItem input enabled playback action).elim (.error .badValue) .ok := by
  have explicit : b1 input ++ b1 enabled ++ b1 playback ++ b1 action =
    [byte input, byte enabled, byte playback, byte action] := rfl
  rw [explicit]
  unfold parseInputSet inputItem
  rw [sized_fits (n := 4) _ rfl]
  simp only [byteAt_cons_succ, byteAt_byte_cons, hi, he, hp, ha]
  cases idx4 input <;> cases idx4 playback <;> cases inputSetting? action <;> rfl

/-- The bytes of one group of HOUSE_CIRCUITS_SET (R42). -/
def groupBytes (g : GroupSettings) : List Byte := b1 g.curve ++ b1 g.members.length ++ g.members.flatMap b2

/-- The numbers of a group, as its bytes carry them. -/
def GroupSettings.Sendable (g : GroupSettings) : Prop :=
  g.curve ≤ 255 ∧ g.members.length ≤ 255 ∧ ∀ k ∈ g.members, k ≤ 65535

/-- A group reads as itself, and the place after it is the end of its bytes (R42). -/
theorem groupAt_groupBytes {g : GroupSettings} (hg : g.Sendable) (pre rest : List Byte) :
    groupAt (pre ++ (groupBytes g ++ rest)) pre.length = (g, (pre ++ groupBytes g).length) := by
  obtain ⟨hcurve, hcount, hmembers⟩ := hg
  have curve : byteAt (pre ++ (groupBytes g ++ rest)) pre.length = g.curve :=
    (byteAt_append pre _ 0).trans (byteAt_byte_cons hcurve (b1 g.members.length ++ g.members.flatMap b2 ++ rest))
  have count : byteAt (pre ++ (groupBytes g ++ rest)) (pre.length + 1) = g.members.length :=
    (byteAt_append pre _ 1).trans (byteAt_byte_cons hcount (g.members.flatMap b2 ++ rest))
  have members : (List.range g.members.length).map (fun j =>
      wordAt (pre ++ (groupBytes g ++ rest)) (pre.length + 2 + 2 * j)) = g.members := by
    have h := map_wordAt_words hmembers (pre ++ (b1 g.curve ++ b1 g.members.length)) rest
    rw [List.append_assoc pre, ← List.append_assoc _ _ rest, List.length_append] at h
    exact h
  have size : (pre ++ groupBytes g).length = pre.length + 2 + 2 * g.members.length := by
    rw [List.length_append, groupBytes, List.length_append, length_words]
    simp only [b1, List.length_append, List.length_cons, List.length_nil]; omega
  unfold groupAt
  dsimp only
  rw [curve, count, members, size]

/-- HOUSE_CIRCUITS_SET reads its four groups (R42). -/
theorem parseHouseCircuitsSet_eq {g : Four GroupSettings} (hg : ∀ i, (g.get i).Sendable) :
    parseHouseCircuitsSet (four.flatMap (fun i => groupBytes (g.get i))) =
      if (four.map g.get).all (fun x => x.curve ≤ 7 && risesStrictly x.members)
          ∧ ((four.map g.get).flatMap (·.members)).all isCircuit ∧ ((four.map g.get).flatMap (·.members)).Nodup
          ∧ ((four.map g.get).flatMap (·.members)).length ≤ 48 then .ok g
      else .error .badValue := by
  obtain ⟨g0, g1, g2, g3⟩ := g
  have body : four.flatMap (fun i => groupBytes (Four.get ⟨g0, g1, g2, g3⟩ i)) =
      groupBytes g0 ++ (groupBytes g1 ++ (groupBytes g2 ++ (groupBytes g3 ++ []))) := rfl
  rw [body]
  have h0 := groupAt_groupBytes (hg 0) [] (groupBytes g1 ++ (groupBytes g2 ++ (groupBytes g3 ++ [])))
  have h1 := groupAt_groupBytes (hg 1) (groupBytes g0) (groupBytes g2 ++ (groupBytes g3 ++ []))
  have h2 := groupAt_groupBytes (hg 2) (groupBytes g0 ++ groupBytes g1) (groupBytes g3 ++ [])
  have h3 := groupAt_groupBytes (hg 3) (groupBytes g0 ++ groupBytes g1 ++ groupBytes g2) []
  simp only [Four.get, List.append_assoc, List.nil_append, List.length_nil] at h0 h1 h2 h3
  unfold parseHouseCircuitsSet
  simp only [h0, h1, h2, h3]
  exact sized_ite _ (by simp)

theorem mem_four (i : Fin 4) : i ∈ four := by fin_cases i <;> decide

/-- Four groups of circuits that each rise are free of repetition exactly when no two share a circuit (R42). -/
theorem nodup_groups {g : Four GroupSettings} (hr : ∀ i, risesStrictly (g.get i).members = true) :
    ((four.map g.get).flatMap (·.members)).Nodup ↔
      ¬ ∃ i j, i ≠ j ∧ ∃ k, k ∈ (g.get i).members ∧ k ∈ (g.get j).members := by
  have each : ∀ i, (g.get i).members.Nodup := fun i => ((risesStrictly_iff _).mp (hr i)).imp fun h => Nat.ne_of_lt h
  have symm : Std.Symm (Function.onFun List.Disjoint fun i => (g.get i).members) := ⟨fun _ _ h => h.symm⟩
  rw [List.flatMap_map, List.nodup_flatMap, ← (show four.Nodup by decide).pairwise_coe]
  constructor
  · rintro ⟨-, hd⟩ ⟨i, j, hij, k, hi, hj⟩
    exact hd (mem_four i) (mem_four j) hij hi hj
  · exact fun h => ⟨fun i _ => each i, fun i _ j _ hij k hi hj => h ⟨i, j, hij, k, hi, hj⟩⟩

/-- What HOUSE_CIRCUITS_SET names BAD_VALUE (R42). -/
theorem groups_legal_iff (g : Four GroupSettings) :
    ((four.map g.get).all (fun x => x.curve ≤ 7 && risesStrictly x.members)
      ∧ ((four.map g.get).flatMap (·.members)).all isCircuit ∧ ((four.map g.get).flatMap (·.members)).Nodup
      ∧ ((four.map g.get).flatMap (·.members)).length ≤ 48) ↔
    ¬ ((∃ i, 7 < (g.get i).curve ∨ risesStrictly (g.get i).members = false ∨ ∃ k ∈ (g.get i).members, k < 1 ∨ 2304 < k)
      ∨ (∃ i j, i ≠ j ∧ ∃ k, k ∈ (g.get i).members ∧ k ∈ (g.get j).members)
      ∨ 48 < (four.map (fun i => (g.get i).members.length)).sum) := by
  have hall : (four.map g.get).all (fun x => x.curve ≤ 7 && risesStrictly x.members) = true ↔
      ∀ i, (g.get i).curve ≤ 7 ∧ risesStrictly (g.get i).members = true := by
    simp [mem_four]
  have hcircuits : ((four.map g.get).flatMap (·.members)).all isCircuit = true ↔
      ∀ i, ∀ k ∈ (g.get i).members, 1 ≤ k ∧ k ≤ 2304 := by
    simp [mem_four, isCircuit_iff]
  have hlength : ((four.map g.get).flatMap (·.members)).length = (four.map (fun i => (g.get i).members.length)).sum := by
    simp [List.length_flatMap, Function.comp_def]
  rw [hall, hcircuits, hlength]
  push Not
  constructor
  · rintro ⟨h1, h2, h3, h4⟩
    refine ⟨fun i => ⟨(h1 i).1, ?_, h2 i⟩, ?_, h4⟩
    · rw [(h1 i).2]; decide
    · have := (nodup_groups fun i => (h1 i).2).mp h3
      push Not at this
      exact this
  · rintro ⟨h1, h2, h3⟩
    have rises : ∀ i, risesStrictly (g.get i).members = true := fun i => by simpa using (h1 i).2.1
    refine ⟨fun i => ⟨(h1 i).1, rises i⟩, fun i => (h1 i).2.2, (nodup_groups rises).mpr ?_, h3⟩
    push Not
    exact h2

/-! ### SAFE_LOOK_SET -/

/-- The bytes of one entry of SAFE_LOOK_SET (R183). -/
def safeBytes (x : Nat × Nat) : List Byte := b2 x.1 ++ b2 x.2

theorem length_safe (e : List (Nat × Nat)) : (e.flatMap safeBytes).length = 4 * e.length := by
  induction e with
  | nil => rfl
  | cons x e ih =>
    rw [List.flatMap_cons, List.length_append, ih]
    simp only [safeBytes, b2, List.length_append, List.length_cons, List.length_nil]; omega

/-- Entries of SAFE_LOOK_SET read as themselves (R183). -/
theorem wordAt_safe (e : List (Nat × Nat)) (h : ∀ x ∈ e, x.1 ≤ 65535 ∧ x.2 ≤ 65535) (i : Nat) (hi : i < e.length) :
    wordAt (e.flatMap safeBytes) (4 * i) = e[i].1 ∧ wordAt (e.flatMap safeBytes) (2 + 4 * i) = e[i].2 := by
  induction e generalizing i with
  | nil => exact absurd hi (Nat.not_lt_zero i)
  | cons x e ih =>
    obtain ⟨⟨h1, h2⟩, he⟩ := List.forall_mem_cons.mp h
    cases i with
    | zero => exact ⟨wordAt_byte (Nat.lt_succ_of_le h1) _, wordAt_byte (Nat.lt_succ_of_le h2) (e.flatMap safeBytes)⟩
    | succ i =>
      obtain ⟨ih1, ih2⟩ := ih he i (Nat.lt_of_succ_lt_succ hi)
      refine ⟨ih1, ?_⟩
      rw [show 2 + 4 * (i + 1) = 2 + 4 * i + 4 by omega]
      exact ih2

/-- SAFE_LOOK_SET reads its entries (R183). -/
theorem parseSafeLookSet_eq {e : List (Nat × Nat)} (hl : e.length ≤ 255) (he : ∀ x ∈ e, x.1 ≤ 65535 ∧ x.2 ≤ 65535) :
    parseSafeLookSet (b1 e.length ++ e.flatMap safeBytes) =
      if e.length ≤ 128 ∧ e.all (fun x => isCircuit x.1 && x.2 ≤ 1000) ∧ risesStrictly (e.map (·.1)) then .ok e
      else .error .badValue := by
  have count : byteAt (b1 e.length ++ e.flatMap safeBytes) 0 = e.length := byteAt_byte_cons hl _
  have entries : (List.range e.length).map (fun i => (wordAt (b1 e.length ++ e.flatMap safeBytes) (1 + 4 * i),
      wordAt (b1 e.length ++ e.flatMap safeBytes) (3 + 4 * i))) = e := by
    refine List.ext_getElem (by simp) fun i hi hi' => ?_
    obtain ⟨h1, h2⟩ := wordAt_safe e he i hi'
    rw [List.getElem_map, List.getElem_range]
    refine Prod.ext ((wordAt_append (b1 e.length) _ _).trans h1) ?_
    rw [show 3 + 4 * i = 1 + (2 + 4 * i) by omega]
    exact (wordAt_append (b1 e.length) _ _).trans h2
  have size : (b1 e.length ++ e.flatMap safeBytes).length = 1 + 4 * e.length := by
    rw [List.length_append, length_safe]; rfl
  unfold parseSafeLookSet
  dsimp only
  rw [count, entries]
  exact sized_ite _ size

theorem safeLook_legal_iff (e : List (Nat × Nat)) :
    (e.length ≤ 128 ∧ e.all (fun x => isCircuit x.1 && x.2 ≤ 1000) ∧ risesStrictly (e.map (·.1))) ↔
    ¬ (128 < e.length ∨ (∃ x ∈ e, x.1 < 1 ∨ 2304 < x.1 ∨ 1000 < x.2) ∨ risesStrictly (e.map (fun x => x.1)) = false) := by
  have hall : e.all (fun x => isCircuit x.1 && x.2 ≤ 1000) = true ↔ ∀ x ∈ e, 1 ≤ x.1 ∧ x.1 ≤ 2304 ∧ x.2 ≤ 1000 := by
    simp only [List.all_eq_true, Bool.and_eq_true, isCircuit_iff, decide_eq_true_eq, and_assoc]
  rw [hall]
  push Not
  rw [Bool.ne_false_iff]

/-! ### The items that HOUSE_SET and INPUT_SET name -/

theorem capped_eq (top n : Nat) : capped top n = (min n top, decide (top < n)) := by
  unfold capped
  split_ifs with h
  · exact Prod.ext (Nat.min_eq_right (Nat.le_of_lt h)).symm (decide_eq_true h).symm
  · exact Prod.ext (Nat.min_eq_left (Nat.not_lt.mp h)).symm (decide_eq_false h).symm

/-- The items of HOUSE_SET's numbers are held within their ranges (R170). -/
theorem houseSetItem_numbers (v : Nat) :
    houseSetItem 2 v = some (.silence (min v 100), decide (100 < v))
    ∧ houseSetItem 4 v = some (.safeFade (min v 600), decide (600 < v))
    ∧ houseSetItem 5 v = some (.backTime (min v 600), decide (600 < v))
    ∧ houseSetItem 6 v = some (.lamp (max 50 (min v 500)), decide (v < 50 ∨ 500 < v)) := by
  refine ⟨?_, ?_, ?_, ?_⟩ <;> simp only [houseSetItem, capped_eq]
  split_ifs with h
  · simp [h, show max 50 (min v 500) = 50 by omega]
  · simp [h, show max 50 (min v 500) = min v 500 by omega]

theorem houseSetItem_resident (b : Bank) : houseSetItem 1 b.val = some (.resident (some b), false) := by
  refine (if_neg (by omega)).trans ?_
  rw [bank?_val]; rfl

/-- HOUSE_SET refuses a selector outside 1 to 6, a bank past 4 and a policy past 2 (R170). -/
theorem houseSetItem_eq_none {sel v : Nat} (h : (sel = 0 ∨ 6 < sel) ∨ (sel = 1 ∧ 4 < v) ∨ (sel = 3 ∧ 2 < v)) :
    houseSetItem sel v = none := by
  rcases h with (rfl | h) | ⟨rfl, h⟩ | ⟨rfl, h⟩
  · rfl
  · obtain ⟨n, rfl⟩ := Nat.exists_eq_add_of_le' h
    rfl
  · refine (if_neg (by omega)).trans ?_
    rw [bank?, dif_neg (by omega)]; rfl
  · have policy : policy? v = none := Option.isNone_iff_eq_none.mp ((isNone_policy v).trans (decide_eq_true h))
    simp only [houseSetItem, policy, Option.map_none]

theorem idx4_eq_some {n : Nat} {i : Fin 4} (h : idx4 n = some i) : 1 ≤ n ∧ n ≤ 4 := by
  have hn := isNone_idx4 n
  rw [h] at hn
  simpa [outside, Nat.one_le_iff_ne_zero] using hn.symm

/-- INPUT_SET refuses an input, an enabled byte, a playback or an action outside its range (R79). -/
theorem inputItem_eq_none {input enabled playback action : Nat}
    (h : input < 1 ∨ 4 < input ∨ 1 < enabled ∨ playback < 1 ∨ 4 < playback ∨ 2 < action) :
    inputItem input enabled playback action = none := by
  refine Option.bind_eq_none_iff.mpr fun i hi => Option.bind_eq_none_iff.mpr fun p hp =>
    Option.bind_eq_none_iff.mpr fun a ha => if_neg ?_
  have input_range := idx4_eq_some hi
  have playback_range := idx4_eq_some hp
  have action_range := isNone_inputSetting action
  rw [ha] at action_range
  have := of_decide_eq_false action_range.symm
  omega

theorem inputItem_eq_some (i : Fin 4) {enabled : Nat} (p : PbId) {action : Nat} (he : enabled ≤ 1) (ha : action ≤ 2) :
    inputItem (num i) enabled (num p) action = some (.input i
      { enabled := decide (enabled = 1), playback := p,
        action := if action = 0 then .go else if action = 1 then .back else .hold }) := by
  have setting : inputSetting? action = some (if action = 0 then .go else if action = 1 then .back else .hold) := by
    interval_cases action <;> rfl
  unfold inputItem
  rw [idx4_num, idx4_num, setting]
  exact if_pos he

namespace State

section House

variable {β : Type} {c : Instr} {s : State} {code : Nat} {r : Request} {rest : List Request}
  {parse : List Byte → Except Status β} {work : State → Requester → β → State} {v : β}

/-- A console request of the house group passes the general checks in a NORMAL engine past its start-up reads (R169). -/
theorem takes_house (hd : s.Head .console code r rest) (hf : s.isFollower = false) (hh : s.sup.halted = false)
    (hst : s.ctl.startUp = none) (hk : kindInfo code = some (.consoleOnly, false)) (hdec : needsDecision code = false) :
    s.Takes .console code r rest :=
  takes_of .consoleOnly false hd ⟨.inl rfl, hf⟩ hk (.inr hh) (mustWait_ended hst hdec)

/-- A house write is answered STORE_BUSY by a full queue, and else joins it (R17). -/
theorem house_taken (hx : exec c s = .next (s.takeStoreRequest .console code parse work)) (hc : code < 256)
    (ht : s.Takes .console code r rest) (hp : parse r.body = .ok v) {item : HouseItem} {adjusted : Bool}
    (hw : work (s.takeOff .console rest) (requesterOf .console r) v =
      (s.takeOff .console rest).houseWork (requesterOf .console r) (item, adjusted)) :
    (8 ≤ s.ctl.queue.length → Answers c s .console r rest .storeBusy [] s)
    ∧ (s.ctl.queue.length < 8 → Owes c s .console rest
        { s with ctl := { s.ctl with queue := s.ctl.queue ++
          [{ kind := .houseWrite item, bank := none, req := requesterOf .console r,
             status := if adjusted then .adjusted else .ok, doomed := none }] } }) := by
  have h := acceptWrite_taken hx hc ht hp hw
  rw [enqueue_house s (by rfl)] at h
  exact h

end House

end State

/-- Settles O24: each body reads as its fields, its refusal and its item are cases of those, and `house_taken` does the
rest; the points by `getD_succ_legalPoints`. -/
theorem houseWritesAreQueued : Obligations.HouseWritesAreQueued := by
  unfold Obligations.HouseWritesAreQueued
  refine ⟨fun s r rest hf hh hst => ?_, fun points i hi => ⟨length_legalPoints 0 points, ?_, getD_succ_legalPoints 0 points i hi⟩⟩
  swap
  · rw [getD_zero_legalPoints 0 (List.ne_nil_of_length_pos (by omega)), Nat.zero_max]
  have takes {code : Nat} (hd : s.Head .console code r rest) (hk : kindInfo code = some (.consoleOnly, false))
      (hdec : needsDecision code = false) : s.Takes .console code r rest := State.takes_house hd hf hh hst hk hdec
  intro bad takes_
  refine ⟨fun sel v hd hb hs hv => ?_, fun n points hd hb hn hl hp => ?_, fun g hd hb hg => ?_, fun e hd hb hl he => ?_,
    fun stage line enabled rate width hd hb h1 h2 h3 h4 h5 => ?_, fun input enabled playback action hd hb h1 h2 h3 h4 => ?_⟩
  · have ht := takes hd rfl rfl
    have parsed : parseHouseSet r.body = (houseSetItem sel v).elim (.error .badValue) .ok := hb ▸ parseHouseSet_eq hs hv
    have refused (h : houseSetItem sel v = none) : Refuses (.houseSet .console) s .console r rest .badValue :=
      State.refuses_body rfl (by decide) hd ht.2.2.2.1 (by rw [parsed, h]; rfl)
    have taken {item : HouseItem} {adjusted : Bool} (h : houseSetItem sel v = some (item, adjusted)) :
        takes_ (.houseSet .console) item adjusted :=
      State.house_taken rfl (by decide) ht (by rw [parsed, h]; rfl) rfl
    intro set
    refine ⟨fun h => refused (houseSetItem_eq_none (.inl h)), fun h1 h2 => refused (houseSetItem_eq_none (.inr (.inl ⟨h1, h2⟩))),
      fun h1 h2 => refused (houseSetItem_eq_none (.inr (.inr ⟨h1, h2⟩))), ?_, ?_, ?_, ?_, ?_, ?_, ?_, ?_, ?_⟩
    · rintro b rfl rfl; exact taken (houseSetItem_resident b)
    · rintro rfl rfl; exact taken rfl
    · rintro rfl; exact taken (houseSetItem_numbers v).1
    · rintro rfl rfl; exact taken rfl
    · rintro rfl rfl; exact taken rfl
    · rintro rfl rfl; exact taken rfl
    · rintro rfl; exact taken (houseSetItem_numbers v).2.1
    · rintro rfl; exact taken (houseSetItem_numbers v).2.2.1
    · rintro rfl; exact taken (houseSetItem_numbers v).2.2.2
  · have ht := takes hd rfl rfl
    have parsed := parseCurveSet_eq hn hl hp
    rw [← hb] at parsed
    refine ⟨fun h => ?_, fun h1 h7 => ?_⟩
    · exact State.refuses_body rfl (by decide) hd ht.2.2.2.1 (parsed.trans (if_neg (by omega)))
    · exact State.house_taken rfl (by decide) ht (parsed.trans (if_pos ⟨h1, h7⟩)) rfl
  · have ht := takes hd rfl rfl
    have parsed := parseHouseCircuitsSet_eq hg
    rw [show four.flatMap (fun i => groupBytes (g.get i)) = r.body from hb.symm] at parsed
    intro wrong
    refine ⟨fun h => ?_, fun h => ?_⟩
    · exact State.refuses_body rfl (by decide) hd ht.2.2.2.1
        (parsed.trans (if_neg fun legal => (groups_legal_iff g).mp legal h))
    · exact State.house_taken rfl (by decide) ht (parsed.trans (if_pos ((groups_legal_iff g).mpr h))) rfl
  · have ht := takes hd rfl rfl
    have parsed := parseSafeLookSet_eq hl he
    rw [show b1 e.length ++ e.flatMap safeBytes = r.body from hb.symm] at parsed
    intro wrong
    refine ⟨fun h => ?_, fun h => ?_⟩
    · exact State.refuses_body rfl (by decide) hd ht.2.2.2.1
        (parsed.trans (if_neg fun legal => (safeLook_legal_iff e).mp legal h))
    · exact State.house_taken rfl (by decide) ht (parsed.trans (if_pos ((safeLook_legal_iff e).mpr h))) rfl
  · have ht := takes hd rfl rfl
    have parsed := parseLineSet_eq h1 h2 h3 h4 h5
    rw [← hb] at parsed
    have legal : (stage ≤ 3 ∧ isLine line ∧ enabled ≤ 1 ∧ rate ≤ 1 ∧ width ≤ 1) ↔
        ¬ (3 < stage ∨ line < 1 ∨ 6 < line ∨ 1 < enabled ∨ 1 < rate ∨ 1 < width) := by
      simp only [isLine, Bool.and_eq_true, decide_eq_true_eq]; omega
    intro wrong
    refine ⟨fun h => ?_, fun h => ?_⟩
    · exact State.refuses_body rfl (by decide) hd ht.2.2.2.1 (parsed.trans (if_neg fun l => legal.mp l h))
    · exact State.house_taken rfl (by decide) ht (parsed.trans (if_pos (legal.mpr h))) rfl
  · have ht := takes hd rfl rfl
    have parsed := parseInputSet_eq h1 h2 h3 h4
    rw [← hb] at parsed
    refine ⟨fun h => ?_, fun i p hi hp he ha => ?_⟩
    · exact State.refuses_body rfl (by decide) hd ht.2.2.2.1 (by rw [parsed, inputItem_eq_none h]; rfl)
    · subst hi hp
      rw [inputItem_eq_some i p he ha] at parsed
      exact State.house_taken rfl (by decide) ht parsed rfl

end Sys2Proof.Machine

namespace Sys2Proof.Machine

namespace State

/-! ### A fault handed over by the Store Controller -/

/-- The fault of a start-up read that has had no answer (R8). -/
def startUpFault (s : State) (i : Nat) : EngineFault := { s.fault .storeFault false 5 with bank := startUpBank i }

theorem exec_storeTimeout_startUp {s : State} {i : Nat} (h : s.ctl.op = some (.startUp i)) :
    exec .storeTimeout s = .next ((s.handOver (.fault (s.startUpFault i))).endStartUpRead i false) := by
  show Host.Outcome.next s.timeout = _
  unfold timeout; rw [h]; rfl

theorem handOver_undecided {s : State} (h : s.cas.role = .undecided) (x : Held) :
    s.handOver x = { s with ctl := { s.ctl with held := s.ctl.held ++ [x] } } := by
  unfold handOver; rw [h]

theorem raise_follower {s : State} (h : s.isFollower = true) (f : EngineFault) : s.raise f = s := if_pos h

theorem raise_engine {s : State} (h : s.isFollower = false) (f : EngineFault) :
    s.raise f = { s with sup := { s.sup with raised := s.sup.raised ++ [f] } } := if_neg (by simp [h])

theorem handOver_fault_leader {s : State} (h : s.cas.role = .leader) (f : EngineFault) :
    s.handOver (.fault f) = { s with sup := { s.sup with raised := s.sup.raised ++ [f] } } := by
  have engine : s.isFollower = false := by simp [isFollower, h]
  unfold handOver; rw [h]
  exact raise_engine engine f

/-- On a follower what is handed over is dropped (R2). -/
theorem handOver_follower {s : State} (h : s.isFollower = true) (x : Held) : s.handOver x = s := by
  unfold handOver
  unfold isFollower at h
  cases hr : s.cas.role <;> simp_all

/-- A house read that has had no answer: the item is listed as failed, and its default handed over (R2, R8). -/
theorem endStartUpRead_timeout {u : State} {i : Nat} (h : i ≤ 42) : u.endStartUpRead i false =
    (((u.freePort.listFailed i).handOver (.item (defaultItem i) false)).afterRead i).settle := by
  rw [endStartUpRead_house h, houseRead_fails]; rfl

theorem timeout_next {u : State} {i : Nat} (h : i ≤ 42) : (u.endStartUpRead i false).ctl.op = some (.startUp (i + 1)) := by
  rw [endStartUpRead_house h]
  exact (settle_afterRead_next (houseRead_op _ _ _) (by omega)).1

theorem timeout_undecided {u : State} {i : Nat} (h : i ≤ 42) (hr : u.cas.role = .undecided) :
    let t := u.endStartUpRead i false
    t.ctl.held = u.ctl.held ++ [.item (defaultItem i) false] ∧ t.ctl.failed = u.ctl.failed ++ [i]
      ∧ t.ctl.op = some (.startUp (i + 1)) ∧ t.inside = ({ u with ctl := t.ctl }).inside := by
  have next := timeout_next (u := u) h
  rw [endStartUpRead_timeout h] at next ⊢
  obtain ⟨hheld, hfailed, hin⟩ := held_settles (s := u) (u := u.freePort.listFailed i) (i := i) (.item (defaultItem i) false)
    _ rfl hr
  exact ⟨hheld, hfailed, next, hin⟩

theorem timeout_leader {u : State} {i : Nat} (h : i ≤ 42) (hr : u.cas.role = .leader) :
    let t := u.endStartUpRead i false
    t.ctl.held = u.ctl.held ∧ t.ctl.failed = u.ctl.failed ++ [i] ∧ t.ctl.op = some (.startUp (i + 1))
      ∧ u.HasHanded (defaultItem i) t := by
  have next := timeout_next (u := u) h
  rw [endStartUpRead_timeout h] at next ⊢
  obtain ⟨hheld, hfailed, hhanded⟩ := handed_settles (s := u) (u := u.freePort.listFailed i) (i := i)
    (item := defaultItem i) _ rfl hr
  exact ⟨hheld, hfailed, next, hhanded⟩

theorem timeout_follower {u : State} {i : Nat} (h : i ≤ 42) (hr : u.isFollower = true) :
    let t := u.endStartUpRead i false
    t.ctl.held = u.ctl.held ∧ t.ctl.failed = u.ctl.failed ++ [i] ∧ t.ctl.op = some (.startUp (i + 1))
      ∧ t.inside = ({ u with ctl := t.ctl }).inside := by
  have next := timeout_next (u := u) h
  rw [endStartUpRead_timeout h] at next ⊢
  obtain ⟨hheld, hfailed, hin⟩ := dropped_settles (s := u) (u := u.freePort.listFailed i) (i := i)
    (.item (defaultItem i) false) _ rfl hr
  exact ⟨hheld, hfailed, next, hin⟩

/-- A header read that has had no answer: the bank is BLANK (R3, R8). -/
theorem headerRead_timeout (u : State) {i : Nat} (b : Bank) (h : i = 43 + b.val) :
    let t := u.endStartUpRead i false
    t.ram b = .blank ∧ t.proj b = .blank ∧ t.ctl.held = u.ctl.held ∧ t.ctl.failed = u.ctl.failed
      ∧ t.inside = ({ u with ctl := t.ctl }).inside := by
  rw [endStartUpRead_header b h]
  exact headerRead_settles u b i false .blank (headerRead_failed (s := u) (a := .notDone) (.inr (.inl rfl))).2

/-- A host read that has had no answer is answered CHECK_FAILED (R8). -/
theorem endHostRead_cue_timeout (s : State) (q : Requester) (b : Bank) (l : PbId) (n first : Nat) :
    s.endHostRead (.cue q b l n first) false = s.answer q .checkFailed [] := by
  simp only [endHostRead]
  cases s.storedCue b l n <;> rfl

theorem endHostRead_patch_timeout (s : State) (q : Requester) (b : Bank) (first count : Nat) :
    s.endHostRead (.patch q b first count) false = s.answer q .checkFailed [] := by
  simp only [endHostRead]
  cases s.storedRun b first count <;> cases s.storedWindows b <;> rfl

/-- A timeout of a host read (R8). -/
theorem timeout_hostRead {s : State} {r : HostRead} (h : s.ctl.op = some (.hostRead r)) : s.timeout =
    ((s.freePort.raise { s.fault .storeFault false 3 with bank := some (readBank r) }).endHostRead r false).settle := by
  unfold timeout; rw [h]

/-- The fault of a start-up read of a bank header names its bank (R8). -/
theorem startUpBank_header {i : Nat} {b : Bank} (h : i = 43 + b.val) : startUpBank i = some b := by
  have hb : Fin.ofNat 4 (i - 43) = b := by
    subst h; ext; simp
  unfold startUpBank
  rw [if_neg (by omega), hb]

end State

/-- Settles O26: each operation ends as `timeout` says; a start-up read as one that has not been performed, its fault
handed over first. -/
theorem storeTimeoutEndsTheOperation : Obligations.StoreTimeoutEndsTheOperation := by
  intro s raised freed
  have ends {u : State} (h : s.timeout = u) : exec .storeTimeout s = .next u := congrArg Host.Outcome.next h
  have times {i : Nat} {post : State → Prop} (hop : s.ctl.op = some (.startUp i))
      (h : post ((s.handOver (.fault (s.startUpFault i))).endStartUpRead i false)) : Runs .storeTimeout s post :=
    ⟨_, State.exec_storeTimeout_startUp hop, h⟩
  have house {i : Nat} (h : i ≤ 42) : s.startUpFault i = raised false 5 none none := by
    unfold State.startUpFault State.startUpBank; rw [if_pos h]; rfl
  have header {i : Nat} {b : Bank} (h : i = 43 + b.val) : s.startUpFault i = raised false 5 none (some b) := by
    unfold State.startUpFault; rw [State.startUpBank_header h]; rfl
  refine ⟨fun h => ?_, fun p f h => ?_, fun p f h => ?_, fun b n h => ?_, fun b n h => ?_, fun q b l n first h => ?_,
    fun q b first count h => ?_, fun w ws h hq => ?_, fun i h hr hi => ?_, fun i b h hr hi => ?_, fun i h hr hi => ?_,
    fun i b h hr hi => ?_, fun i h hr hi => ?_, fun i b h hr hi => ?_, fun h f => ?_, fun h f => State.raise_follower h f⟩
  · refine ends ?_; unfold State.timeout; rw [h]
  · refine ends ?_; unfold State.timeout; rw [h] <;> rfl
  · refine ends ?_; unfold State.timeout; rw [h] <;> rfl
  · refine ends ?_; unfold State.timeout; rw [h] <;> rfl
  · refine ends ?_; unfold State.timeout; rw [h] <;> rfl
  · refine ends ?_; rw [State.timeout_hostRead h, State.endHostRead_cue_timeout] <;> rfl
  · refine ends ?_; rw [State.timeout_hostRead h, State.endHostRead_patch_timeout] <;> rfl
  · show Host.Outcome.next s.timeout = Host.Outcome.next (s.writeDone .notDone)
    unfold State.timeout State.writeDone; rw [h, hq]
  · refine times h ?_
    rw [house hi, State.handOver_undecided hr]
    obtain ⟨hheld, hfailed, hop, hin⟩ := State.timeout_undecided
      (u := { s with ctl := { s.ctl with held := s.ctl.held ++ [.fault (raised false 5 none none)] } }) hi hr
    exact ⟨hheld.trans (List.append_assoc _ _ _), hfailed, hop, hin⟩
  · refine times h ?_
    rw [header hi, State.handOver_undecided hr]
    obtain ⟨hram, hproj, hheld, hfailed, hin⟩ := State.headerRead_timeout
      { s with ctl := { s.ctl with held := s.ctl.held ++ [.fault (raised false 5 none (some b))] } } b hi
    exact ⟨hheld, hfailed, hram, hproj, hin⟩
  · refine times h ?_
    rw [house hi, State.handOver_fault_leader hr]
    exact State.timeout_leader hi hr
  · refine times h ?_
    rw [header hi, State.handOver_fault_leader hr]
    obtain ⟨hram, hproj, hheld, hfailed, hin⟩ := State.headerRead_timeout
      { s with sup := { s.sup with raised := s.sup.raised ++ [raised false 5 none (some b)] } } b hi
    exact ⟨hheld, hfailed, hram, hproj, hin⟩
  · refine times h ?_
    rw [State.handOver_follower hr]
    exact State.timeout_follower hi hr
  · refine times h ?_
    rw [State.handOver_follower hr]
    obtain ⟨hram, hproj, hheld, hfailed, hin⟩ := State.headerRead_timeout s b hi
    exact ⟨hheld, hfailed, hram, hproj, hin⟩
  · rw [State.raise_engine h]

end Sys2Proof.Machine

namespace Sys2Proof.Machine

/-! ### The cue records and the house items after a write -/

section Tables

variable {α : Type}

theorem Four.find_insert (f : Four (Assoc α)) (l l' : Fin 4) (k n : Nat) (v : α) :
    Assoc.find ((f.set l' (Assoc.insert k v (f.get l'))).get l) n = if l = l' ∧ n = k then some v else Assoc.find (f.get l) n := by
  by_cases hl : l = l'
  · subst hl
    rw [Four.get_set_same, Assoc.find_insert]
    simp
  · rw [Four.get_set_other _ _ _ _ hl, if_neg (fun h => hl h.1)]

theorem Four.find_erase (f : Four (Assoc α)) (l l' : Fin 4) (k n : Nat) :
    Assoc.find ((f.set l' (Assoc.erase k (f.get l'))).get l) n = if l = l' ∧ n = k then none else Assoc.find (f.get l) n := by
  by_cases hl : l = l'
  · subst hl
    rw [Four.get_set_same, Assoc.find_erase]
    simp
  · rw [Four.get_set_other _ _ _ _ hl, if_neg (fun h => hl h.1)]

end Tables

/-! ### The segments after a patch write -/

/-- In a write of ascending circuits a circuit stands once (R34). -/
theorem eq_of_circuit {pairs : List (Nat × Option PatchEntry)} (h : risesStrictly (pairs.map (fun e => e.1)) = true)
    {e e' : Nat × Option PatchEntry} (he : e ∈ pairs) (he' : e' ∈ pairs) (hc : e.1 = e'.1) : e = e' :=
  List.inj_on_of_nodup_map (((risesStrictly_iff _).mp h).imp fun h => Nat.ne_of_lt h) he he' hc

theorem mem_pairsIn {n : Nat} {pairs : List (Nat × Option PatchEntry)} {e : Nat × Option PatchEntry} :
    e ∈ pairsIn n pairs ↔ e ∈ pairs ∧ segmentOf e.1 = n := by simp [pairsIn]

theorem pairsIn_isEmpty_iff {n : Nat} {pairs : List (Nat × Option PatchEntry)} :
    (pairsIn n pairs).isEmpty = true ↔ ∀ e ∈ pairs, segmentOf e.1 ≠ n := by
  simp [pairsIn]

/-- Where a written table takes a pair from, the last of its circuit. -/
theorem find_writePairs_of_mem {pairs mine : List (Nat × Option PatchEntry)}
    (h : risesStrictly (pairs.map (fun e => e.1)) = true) (hsub : ∀ e ∈ mine, e ∈ pairs) (m : Assoc PatchEntry)
    {e : Nat × Option PatchEntry} (he : e ∈ mine) : Assoc.find (writePairs mine m) e.1 = e.2 := by
  rw [find_writePairs]
  cases hf : mine.reverse.find? (fun x => x.1 = e.1) with
  | none => exact absurd (List.find?_eq_none.mp hf e (List.mem_reverse.mpr he)) (by simp)
  | some x =>
    have hx : x ∈ mine := List.mem_reverse.mp (List.mem_of_find?_eq_some hf)
    have hxe : x.1 = e.1 := by simpa using List.find?_some hf
    rw [eq_of_circuit h (hsub x hx) (hsub e he) hxe]

theorem find_writePairs_of_notMem {mine : List (Nat × Option PatchEntry)} (m : Assoc PatchEntry) {k : Nat}
    (h : ∀ e ∈ mine, e.1 ≠ k) : Assoc.find (writePairs mine m) k = Assoc.find m k := by
  have hf : mine.reverse.find? (fun x => x.1 = k) = none := by simpa using h
  rw [find_writePairs, hf]

theorem getD_writeSegments (pairs : List (Nat × Option PatchEntry)) (damaged : List Nat)
    (segments : List (Option (Checked (Assoc PatchEntry)))) {i : Nat} (h : i < segments.length) :
    (writeSegments pairs damaged segments).getD i none =
      if (pairsIn (i + 1) pairs).isEmpty then segments.getD i none
      else some (.seal segmentBytes (writePairs (pairsIn (i + 1) pairs)
        ((readSegment damaged (i + 1) (segments.getD i none)).getD []))) := by
  simp [writeSegments, List.getD, h]

theorem find_readSegment (damaged : List Nat) (n k : Nat) (x : Option (Checked (Assoc PatchEntry))) :
    Assoc.find ((readSegment damaged n x).getD []) k =
      if n ∈ damaged then none else (Checked.read segmentBytes x).bind (fun old => Assoc.find old k) := by
  unfold readSegment
  by_cases h : n ∈ damaged
  · simp [h]
  · cases hx : Checked.read segmentBytes x <;> simp [h]

/-- A segment that no pair lies in is as it was; one that a pair lies in holds the pairs, and else what was read (R35). -/
theorem read_writeSegments {pairs : List (Nat × Option PatchEntry)} (damaged : List Nat)
    {segments : List (Option (Checked (Assoc PatchEntry)))} {n : Nat} (h1 : 1 ≤ n) (h2 : n ≤ segments.length)
    (hr : risesStrictly (pairs.map (fun e => e.1)) = true) :
    let old := Checked.read segmentBytes (segments.getD (n - 1) none)
    let new := Checked.read segmentBytes ((writeSegments pairs damaged segments).getD (n - 1) none)
    ((∀ e ∈ pairs, segmentOf e.1 ≠ n) → new = old)
    ∧ ((∃ e ∈ pairs, segmentOf e.1 = n) → ∃ m, new = some m ∧ ∀ k, segmentOf k = n →
        (∀ e ∈ pairs, e.1 = k → Assoc.find m k = e.2)
        ∧ ((∀ e ∈ pairs, e.1 ≠ k) → Assoc.find m k =
            if n ∈ damaged then none else old.bind (fun o => Assoc.find o k))) := by
  have hn : n - 1 + 1 = n := Nat.sub_add_cancel h1
  intro old new
  have hnew : new = Checked.read segmentBytes (if (pairsIn n pairs).isEmpty then segments.getD (n - 1) none
      else some (.seal segmentBytes (writePairs (pairsIn n pairs)
        ((readSegment damaged n (segments.getD (n - 1) none)).getD [])))) := by
    have h := getD_writeSegments pairs damaged segments (i := n - 1) (by omega)
    rw [hn] at h
    exact congrArg (Checked.read segmentBytes) h
  refine ⟨fun h => ?_, fun ⟨e, he, hs⟩ => ⟨writePairs (pairsIn n pairs) ((readSegment damaged n
    (segments.getD (n - 1) none)).getD []), ?_, fun k hk => ⟨fun x hx hxk => ?_, fun hk' => ?_⟩⟩⟩
  · rw [hnew, if_pos (pairsIn_isEmpty_iff.mpr h)]
  · rw [hnew, if_neg (fun h => pairsIn_isEmpty_iff.mp h e he hs), Checked.read_seal]
  · subst hxk
    exact find_writePairs_of_mem hr (fun e he => (mem_pairsIn.mp he).1) _ (mem_pairsIn.mpr ⟨hx, hk⟩)
  · rw [find_writePairs_of_notMem _ (fun e he => hk' e (mem_pairsIn.mp he).1), find_readSegment]

/-! ### The notice of a patch write -/

theorem mem_segmentPairs {n : Nat} (hn : 1 ≤ n) {m : Assoc PatchEntry} {k : Nat} {v : Option PatchEntry} :
    (k, v) ∈ segmentPairs n m ↔ 1 ≤ k ∧ segmentOf k = n ∧ v = Assoc.find m k := by
  have circuits : k ∈ segmentCircuits n ↔ 1 ≤ k ∧ segmentOf k = n := by
    simp only [segmentCircuits, List.mem_map, List.mem_range, segmentOf]
    exact ⟨fun ⟨i, hi, hk⟩ => by omega, fun ⟨h1, h2⟩ => ⟨k - (n - 1) * 96 - 1, by omega, by omega⟩⟩
  unfold segmentPairs
  rw [← and_assoc, ← circuits]
  simp only [List.mem_map, Prod.mk.injEq]
  constructor
  · rintro ⟨k', hk', rfl, rfl⟩; exact ⟨hk', rfl⟩
  · rintro ⟨hk, rfl⟩; exact ⟨k, hk, rfl, rfl⟩

theorem readSegment_isNone_iff (damaged : List Nat) (n : Nat) (x : Option (Checked (Assoc PatchEntry))) :
    (readSegment damaged n x).isNone = true ↔ n ∈ damaged ∨ Checked.read segmentBytes x = none := by
  unfold readSegment
  by_cases h : n ∈ damaged <;> simp [h]

/-- The notice of a patch write carries, of a segment that a pair lies in, its pairs, or all 96 entries where it has been
rebuilt (R35). -/
theorem mem_noticePairs {pairs : List (Nat × Option PatchEntry)} {damaged : List Nat}
    {segments : List (Option (Checked (Assoc PatchEntry)))} {e : Nat × Option PatchEntry} :
    e ∈ noticePairs pairs damaged segments ↔ ∃ i, i < segments.length ∧ (∃ x ∈ pairs, segmentOf x.1 = i + 1) ∧
      e ∈ (if (readSegment damaged (i + 1) (segments.getD i none)).isNone then
        segmentPairs (i + 1) (writePairs (pairsIn (i + 1) pairs) []) else pairsIn (i + 1) pairs) := by
  unfold noticePairs
  simp only [List.mem_flatMap]
  constructor
  · rintro ⟨⟨x, i⟩, hx, he⟩
    rw [List.mem_zipIdx_iff_getElem?] at hx
    dsimp only at hx he
    obtain ⟨hi, rfl⟩ := List.getElem?_eq_some_iff.mp hx
    split_ifs at he with hempty hread
    · exact absurd he (List.not_mem_nil)
    all_goals
      have touched : ∃ x ∈ pairs, segmentOf x.1 = i + 1 := by
        by_contra h
        exact hempty (pairsIn_isEmpty_iff.mpr fun x hx hs => h ⟨x, hx, hs⟩)
      have found : segments.getD i none = segments[i] := by simp [List.getD, hi]
      refine ⟨i, hi, touched, ?_⟩
    · rw [found, if_pos hread]; exact he
    · rw [found, if_neg hread]; exact he
  · rintro ⟨i, hi, ⟨x, hx, hs⟩, he⟩
    have found : segments.getD i none = segments[i] := by simp [List.getD, hi]
    refine ⟨(segments[i], i), List.mem_zipIdx_iff_getElem?.mpr (List.getElem?_eq_getElem hi), ?_⟩
    rw [found] at he
    dsimp only
    rw [if_neg fun h => pairsIn_isEmpty_iff.mp h x hx hs]
    exact he

/-- Beside the pairs of the write, the notice carries the other circuits of a rebuilt segment, absent (R35). -/
theorem mem_noticePairs_iff {pairs : List (Nat × Option PatchEntry)} {damaged : List Nat}
    {segments : List (Option (Checked (Assoc PatchEntry)))} {k : Nat} {v : Option PatchEntry}
    (hr : risesStrictly (pairs.map (fun e => e.1)) = true) (hrange : ∀ e ∈ pairs, 1 ≤ e.1 ∧ e.1 ≤ 2304)
    (hlen : segments.length = 24) : (k, v) ∈ noticePairs pairs damaged segments ↔
      (k, v) ∈ pairs ∨ ((segmentOf k ∈ damaged ∨ Checked.read segmentBytes (segments.getD (segmentOf k - 1) none) = none)
        ∧ 1 ≤ k ∧ k ≤ 2304 ∧ (∃ e ∈ pairs, segmentOf e.1 = segmentOf k) ∧ (∀ e ∈ pairs, e.1 ≠ k) ∧ v = none) := by
  rw [mem_noticePairs]
  constructor
  · rintro ⟨i, hi, touched, he⟩
    split_ifs at he with hread
    · obtain ⟨hk, hseg, hv⟩ := (mem_segmentPairs (Nat.le_add_left 1 i)).mp he
      by_cases hin : ∃ e ∈ pairs, e.1 = k
      · obtain ⟨e, hpairs, rfl⟩ := hin
        rw [find_writePairs_of_mem hr (fun e he => (mem_pairsIn.mp he).1) _ (mem_pairsIn.mpr ⟨hpairs, hseg⟩)] at hv
        subst hv
        exact .inl hpairs
      · have absent : ∀ e ∈ pairs, e.1 ≠ k := fun e he h => hin ⟨e, he, h⟩
        rw [find_writePairs_of_notMem _ (fun e he => absent e (mem_pairsIn.mp he).1)] at hv
        rw [readSegment_isNone_iff] at hread
        rw [hseg, Nat.add_sub_cancel]
        refine .inr ⟨hread, hk, ?_, touched, absent, hv⟩
        unfold segmentOf at hseg; omega
    · exact .inl (mem_pairsIn.mp he).1
  · have place (h : k ≤ 2304) : segmentOf k - 1 < segments.length ∧ segmentOf k - 1 + 1 = segmentOf k := by
      unfold segmentOf; omega
    rintro (hin | ⟨hread, hk, hk', touched, absent, rfl⟩)
    · obtain ⟨hk, hk'⟩ := hrange _ hin
      obtain ⟨hi, hn⟩ := place hk'
      refine ⟨segmentOf k - 1, hi, ?_, ?_⟩ <;> rw [hn]
      · exact ⟨_, hin, rfl⟩
      · split_ifs
        · refine (mem_segmentPairs (by unfold segmentOf; omega)).mpr ⟨hk, rfl, ?_⟩
          exact (find_writePairs_of_mem hr (fun e he => (mem_pairsIn.mp he).1) _ (mem_pairsIn.mpr ⟨hin, rfl⟩)).symm
        · exact mem_pairsIn.mpr ⟨hin, rfl⟩
    · obtain ⟨hi, hn⟩ := place hk'
      refine ⟨segmentOf k - 1, hi, ?_, ?_⟩ <;> rw [hn]
      · exact touched
      · rw [if_pos ((readSegment_isNone_iff _ _ _).mpr hread)]
        refine (mem_segmentPairs (by unfold segmentOf; omega)).mpr ⟨hk, rfl, ?_⟩
        exact (find_writePairs_of_notMem [] fun e he => absent e (mem_pairsIn.mp he).1).symm

namespace State

/-! ### The projection worked out anew -/

theorem reproject_other {b : Bank} {w : WriteEntry} (hw : w.bank ≠ some b ∨ w.doomed ≠ none) (h : Header) (ws : List WriteEntry) :
    reproject b h (w :: ws) = ((reproject b h ws).1, w :: (reproject b h ws).2) := by
  have hw : w.bank ≠ some b ∨ w.doomed.isSome = true := hw.imp_right Option.isSome_iff_ne_none.mpr
  rw [reproject, if_pos hw]

theorem reproject_doomed {b : Bank} {w : WriteEntry} (hb : w.bank = some b) (hd : w.doomed = none) {h : Header}
    {l : PbId} {c : Cue} {st : Status} (hk : w.kind = .cueWrite l c) (hcap : h.capacity l c = some st) (ws : List WriteEntry) :
    reproject b h (w :: ws) = ((reproject b h ws).1, { w with doomed := some st } :: (reproject b h ws).2) := by
  rw [reproject, if_neg (by simp [hb, hd]), hk]
  dsimp only
  rw [hcap]

theorem reproject_applied {b : Bank} {w : WriteEntry} (hb : w.bank = some b) (hd : w.doomed = none) {h : Header}
    (hk : (∀ l c, w.kind ≠ .cueWrite l c) ∨ ∃ l c, w.kind = .cueWrite l c ∧ h.capacity l c = none) (ws : List WriteEntry) :
    reproject b h (w :: ws) = ((reproject b (h.apply w.kind) ws).1, w :: (reproject b (h.apply w.kind) ws).2) := by
  rw [reproject, if_neg (by simp [hb, hd])]
  rcases hk with hk | ⟨l, c, hk, hcap⟩
  · cases hkind : w.kind
    case cueWrite l c => exact absurd hkind (hk l c)
    all_goals rfl
  · rw [hk]
    dsimp only
    rw [hcap]

/-- Working the projection out anew keeps the writes in their places (R14). -/
theorem length_reproject (b : Bank) (h : Header) (ws : List WriteEntry) : (reproject b h ws).2.length = ws.length := by
  induction ws generalizing h with
  | nil => rfl
  | cons w ws ih =>
    by_cases hw : w.bank ≠ some b ∨ w.doomed ≠ none
    · rw [reproject_other hw]; exact congrArg (· + 1) (ih h)
    · obtain ⟨hb, hd⟩ := not_or.mp hw
      have hb := not_not.mp hb
      have hd := not_not.mp hd
      cases hk : w.kind
      case cueWrite l c =>
        cases hcap : h.capacity l c with
        | some st => rw [reproject_doomed hb hd hk hcap]; exact congrArg (· + 1) (ih h)
        | none => rw [reproject_applied hb hd (.inr ⟨l, c, hk, hcap⟩)]; exact congrArg (· + 1) (ih _)
      all_goals rw [reproject_applied hb hd (.inl (by simp [hk]))]; exact congrArg (· + 1) (ih _)

end State

end Sys2Proof.Machine

namespace Sys2Proof.Machine

/-! ### A bank area after a step of its write -/

namespace StoredBank

theorem after_header (x : StoredBank) (h : Header) (k : WriteKind) (damaged : List Nat) :
    (x.after h k damaged).header = some (.seal Header.bytes h) := by cases k <;> rfl

theorem after_segments {x : StoredBank} {h : Header} {k : WriteKind} {damaged : List Nat} (hk : ∀ pairs, k ≠ .patchWrite pairs) :
    (x.after h k damaged).segments = x.segments := by
  cases k
  case patchWrite pairs => exact absurd rfl (hk pairs)
  all_goals rfl

/-- The first and the last step of an erase write the header (R15). -/
theorem eraseStep_header (x : StoredBank) (k : Nat) : (x.eraseStep k).header =
    if k = 0 then some (.seal Header.bytes .blank) else if 27 ≤ k then some (.seal Header.bytes .fresh) else x.header := by
  unfold eraseStep
  grind

theorem eraseStep_windows (x : StoredBank) (k : Nat) : (x.eraseStep k).windows =
    if k = 25 then some (.seal Windows.bytes .empty) else x.windows := by
  unfold eraseStep
  grind

theorem eraseStep_cues (x : StoredBank) (k : Nat) : (x.eraseStep k).cues =
    if k = 26 then ⟨[], [], [], []⟩ else x.cues := by
  unfold eraseStep
  grind

theorem eraseStep_segment {x : StoredBank} (k : Nat) {n : Nat} (h1 : 1 ≤ n) (h24 : n ≤ 24) (hl : x.segments.length = 24) :
    (x.eraseStep k).segments.getD (n - 1) none =
      if k = n then some (.seal segmentBytes []) else x.segments.getD (n - 1) none := by
  have hs : (x.eraseStep k).segments =
      if 1 ≤ k ∧ k ≤ 24 then x.segments.set (k - 1) (some (.seal segmentBytes [])) else x.segments := by
    unfold eraseStep
    grind
  rw [hs]
  by_cases hk : 1 ≤ k ∧ k ≤ 24
  · rw [if_pos hk]
    by_cases hkn : k = n
    · subst hkn
      rw [if_pos rfl, List.getD_eq_getElem?_getD, List.getElem?_set_self (by omega)]
      rfl
    · rw [if_neg hkn, List.getD_eq_getElem?_getD, List.getElem?_set_ne (by omega), List.getD_eq_getElem?_getD]
  · rw [if_neg hk, if_neg (by omega)]

end StoredBank

namespace State

/-- The area of a bank after the step being performed for a write to it (R6, R13, R15). -/
def bankAfter (s : State) (w : WriteEntry) (b : Bank) (damaged : List Nat) : StoredBank :=
  if w.kind = .bankErase then (s.store.banks.get b).eraseStep s.ctl.eraseStep
  else (s.store.banks.get b).after ((s.ram b).apply w.kind) w.kind damaged

theorem bankAfter_erase {s : State} {w : WriteEntry} (h : w.kind = .bankErase) (b : Bank) (damaged : List Nat) :
    s.bankAfter w b damaged = (s.store.banks.get b).eraseStep s.ctl.eraseStep := if_pos h

theorem bankAfter_other {s : State} {w : WriteEntry} (h : w.kind ≠ .bankErase) (b : Bank) (damaged : List Nat) :
    s.bankAfter w b damaged = (s.store.banks.get b).after ((s.ram b).apply w.kind) w.kind damaged := if_neg h

theorem storeAfter_bank {s : State} {w : WriteEntry} {b : Bank} (hb : w.bank = some b)
    (hk : ∀ item, w.kind ≠ .houseWrite item) (damaged : List Nat) :
    s.storeAfter w damaged = { s.store with banks := s.store.banks.set b (s.bankAfter w b damaged) } := by
  unfold storeAfter bankAfter
  rw [hb]
  cases hkind : w.kind
  case houseWrite item => exact absurd hkind (hk item)
  all_goals rfl

theorem storeAfter_house {s : State} {w : WriteEntry} {item : HouseItem} (hk : w.kind = .houseWrite item) (damaged : List Nat) :
    s.storeAfter w damaged =
      { s.store with house := Assoc.insert item.id (.seal HouseItem.bytes item) s.store.house } := by
  unfold storeAfter; rw [hk]

end State

end Sys2Proof.Machine

namespace Sys2Proof.Machine

namespace State

/-! ### The notices of a write as what they add -/

/-- The list notice of a write: its list, for a cue write or delete in the active bank (R13, R14). -/
def listNoted (s : State) (w : WriteEntry) : List PbId :=
  match w.kind with
  | .cueWrite l _ => if w.bank.isSome ∧ w.bank = s.bank.active then [l] else []
  | .cueDelete l _ => if w.bank.isSome ∧ w.bank = s.bank.active then [l] else []
  | _ => []

theorem listNotice_eq (s : State) (w : WriteEntry) :
    s.listNotice w = { s with eng := { s.eng with notices := s.eng.notices ++ s.listNoted w } } := by
  unfold listNotice listNoted
  cases w.kind
  case cueWrite | cueDelete => dsimp only; split_ifs <;> simp
  all_goals simp

/-- The patch notices of a write: for a patch or window write to the active bank or the changeover target (R13, R30). -/
def patchNoted (s : State) (w : WriteEntry) (pairs : List (Nat × Option PatchEntry)) : List PatchNotice :=
  match w.bank, w.kind with
  | some b, .patchWrite _ => if s.bank.active = some b ∨ s.isTarget b = true then [.entries b pairs] else []
  | some b, .windowWrite x => if s.bank.active = some b ∨ s.isTarget b = true then [.windows b x] else []
  | _, _ => []

theorem patchNoticeFor_eq (s : State) (w : WriteEntry) (pairs : List (Nat × Option PatchEntry)) :
    s.patchNoticeFor w pairs = { s with patch := { s.patch with notices := s.patch.notices ++ s.patchNoted w pairs } } := by
  unfold patchNoticeFor patchNoted
  cases w.bank with
  | none => simp
  | some b =>
    cases w.kind
    case patchWrite | windowWrite => dsimp only; split_ifs <;> simp
    all_goals simp

theorem notify_eq {s : State} {w : WriteEntry} (hk : ∀ item, w.kind ≠ .houseWrite item) (pairs : List (Nat × Option PatchEntry)) :
    s.notify w pairs = { s with
      eng := { s.eng with notices := s.eng.notices ++ s.listNoted w },
      patch := { s.patch with notices := s.patch.notices ++ s.patchNoted w pairs } } := by
  have steps : s.notify w pairs = (s.listNotice w).patchNoticeFor w pairs := by
    unfold notify
    cases hkind : w.kind
    case houseWrite item => exact absurd hkind (hk item)
    all_goals rfl
  rw [steps, patchNoticeFor_eq, listNotice_eq]
  rfl

/-! ### A house item handed over -/

/-- The setup generations after a completed house write (R152). -/
def raisedGens (s : State) (item : HouseItem) : Three Nat := (s.raiseGens item).cas.gens

theorem raiseGens_eq (s : State) (item : HouseItem) :
    s.raiseGens item = { s with cas := { s.cas with gens := s.raisedGens item } } := by
  unfold raisedGens raiseGens
  cases item
  case line st l x => dsimp only; cases stage? st <;> rfl
  all_goals rfl

/-- A house item delivered leaves the store, the Store Controller, the ports, the slots and the outside alone (Table 1-1). -/
theorem deliver_kept (s : State) (item : HouseItem) :
    let t := s.deliver item true
    t.store = s.store ∧ t.con = s.con ∧ t.aux = s.aux ∧ t.slots = s.slots ∧ t.merge = s.merge ∧ t.free = s.free
      ∧ t.wire = s.wire ∧ t.pending = s.pending ∧ t.sup.raised = s.sup.raised := by
  cases item
  case line st l x =>
    dsimp only [deliver, deliverLine]
    cases line? l <;> cases stage? st <;> exact ⟨rfl, rfl, rfl, rfl, rfl, rfl, rfl, rfl, rfl⟩
  all_goals exact ⟨rfl, rfl, rfl, rfl, rfl, rfl, rfl, rfl, rfl⟩

theorem handOver_item_leader {s : State} (h : s.cas.role = .leader) (item : HouseItem) :
    s.handOver (.item item true) = (s.deliver item true).raiseGens item := by
  unfold handOver; rw [h]; rfl

/-- A house item handed over on any part leaves the same alone; it may join what the Store Controller holds back (R2). -/
theorem handOver_kept (s : State) (item : HouseItem) :
    let t := s.handOver (.item item true)
    t.ctl = { s.ctl with held := t.ctl.held } ∧ t.store = s.store ∧ t.con = s.con ∧ t.aux = s.aux ∧ t.slots = s.slots
      ∧ t.merge = s.merge ∧ t.free = s.free ∧ t.wire = s.wire ∧ t.pending = s.pending ∧ t.sup.raised = s.sup.raised := by
  cases hr : s.cas.role
  case undecided => rw [handOver_undecided hr]; exact ⟨rfl, rfl, rfl, rfl, rfl, rfl, rfl, rfl, rfl, rfl⟩
  case leader =>
    rw [handOver_item_leader hr, raiseGens_eq]
    refine ⟨?_, deliver_kept s item⟩
    rw [deliver_ctl]
  all_goals
    rw [handOver_follower (by simp [isFollower, hr])]
    exact ⟨rfl, rfl, rfl, rfl, rfl, rfl, rfl, rfl, rfl, rfl⟩

theorem line?_succ (l : Fin 6) : line? (l.val + 1) = some l := dif_pos ⟨by omega, by omega⟩

theorem stage?_succ (n : Fin 3) : stage? (n.val + 1) = some n := dif_pos ⟨by omega, by omega⟩

/-- What each house item sets on the leader, and which setup generations go up (Table 1-1, R152). -/
theorem deliver_applied (s : State) (item : HouseItem) :
    let t := (s.deliver item true).raiseGens item
    (∀ n, item = .silence n → t.link.limit = n)
    ∧ (∀ n, item = .safeFade n → t.outp.safeFade = n ∧ t.cas.gens = s.cas.gens.map nextGen)
    ∧ (∀ n, item = .backTime n → t.eng.backTime = n ∧ t.cas.gens = s.cas.gens)
    ∧ (∀ n, item = .lamp n → t.outp.lamp = n ∧ t.cas.gens = s.cas.gens.map nextGen)
    ∧ (∀ x, item = .policy x → t.sup.policy = x ∧ t.cas.gens = s.cas.gens.map nextGen)
    ∧ (∀ x, item = .resident x → t.bank.resident = x ∧ t.cas.gens = s.cas.gens)
    ∧ (∀ e, item = .safeLook e → t.outp.safeLook = e ∧ t.cas.gens = s.cas.gens.map nextGen)
    ∧ (∀ n pts, item = .curve n pts → t.patch.curves = s.patch.curves.set (n - 1) pts)
    ∧ (∀ g i, item = .groups g → (t.patch.groups.get i) =
        { s.patch.groups.get i with members := (g.get i).members, curve := (g.get i).curve })
    ∧ (∀ i x, item = .input i x → t.inputs.get i = { s.inputs.get i with settings := x })
    ∧ (∀ l x, item = .line 0 (l.val + 1) x → t.line l = (s.line l).take x ∧ t.cas.gens = s.cas.gens)
    ∧ (∀ (n : Fin 3) (l : Fin 6) x, item = .line (n.val + 1) (l.val + 1) x →
        (t.cas.lineItems.get n).get l = x ∧ t.cas.gens = s.cas.gens.set n (nextGen (s.cas.gens.get n))) := by
  refine ⟨?_, ?_, ?_, ?_, ?_, ?_, ?_, ?_, ?_, ?_, ?_, ?_⟩
  · rintro n rfl; rfl
  · rintro n rfl; exact ⟨rfl, rfl⟩
  · rintro n rfl; exact ⟨rfl, rfl⟩
  · rintro n rfl; exact ⟨rfl, rfl⟩
  · rintro n rfl; exact ⟨rfl, rfl⟩
  · rintro n rfl; exact ⟨rfl, rfl⟩
  · rintro n rfl; exact ⟨rfl, rfl⟩
  · rintro n pts rfl; rfl
  · rintro g i rfl; fin_cases i <;> rfl
  · rintro i x rfl; exact Four.get_set_same _ _ _
  · rintro l x rfl
    dsimp only [deliver, deliverLine, raiseGens]
    rw [line?_succ, show stage? 0 = none from rfl]
    exact ⟨Six.get_set_same _ _ _, rfl⟩
  · rintro n l x rfl
    dsimp only [deliver, deliverLine, raiseGens]
    rw [line?_succ, stage?_succ]
    dsimp only
    rw [Three.get_set_same, Six.get_set_same]
    exact ⟨rfl, rfl⟩

end State

end Sys2Proof.Machine

namespace Sys2Proof.Machine

namespace State

/-! ### The end of the head write -/

/-- An answer joins its port's replies, and leaves the other port alone (R168). -/
theorem answer_outgoing (s : State) (q : Requester) (st : Status) (b : List Byte) :
    ((s.answer q st b).port q.port).outgoing = (s.port q.port).outgoing
        ++ [{ kind := if (kindInfo q.kind.toNat).isSome then q.kind + 0x80 else 0xFF, tag := q.tag, status := st, fields := b }]
      ∧ (s.answer q st b).port (otherPort q.port) = s.port (otherPort q.port) := by
  obtain ⟨port, tag, kind⟩ := q
  cases port
  · exact ⟨outgoing_append s.con _, rfl⟩
  · exact ⟨outgoing_append s.aux _, rfl⟩

theorem endHeadWrite_eq {s : State} {w : WriteEntry} {ws : List WriteEntry} (h : s.ctl.queue = w :: ws) (st : Status)
    (b : List Byte) : s.endHeadWrite st b =
      ({ s with ctl := { s.ctl with queue := ws, eraseStep := 0 } } : State).answer w.req st b := by
  unfold endHeadWrite; rw [h]

theorem headerAfter_eq (s : State) (w : WriteEntry) : s.headerAfter w =
    { s with ctl := { s.ctl with ram := (s.headerAfter w).ctl.ram, failed := (s.headerAfter w).ctl.failed } } := by
  unfold headerAfter
  split <;> rfl

theorem headerAfter_bank {s : State} {w : WriteEntry} {b : Bank} (hb : w.bank = some b) (hk : ∀ item, w.kind ≠ .houseWrite item) :
    s.headerAfter w = s.setRam b ((s.ram b).apply w.kind) := by
  unfold headerAfter
  rw [hb]
  cases hkind : w.kind
  case houseWrite item => exact absurd hkind (hk item)
  all_goals rfl

theorem headerAfter_house {s : State} {w : WriteEntry} {item : HouseItem} (hk : w.kind = .houseWrite item) :
    s.headerAfter w = { s with ctl := { s.ctl with failed := s.ctl.failed.filter (fun i => i ≠ item.id) } } := by
  unfold headerAfter; rw [hk]

/-- The head write done: the store written, the header made anew, the write off the queue and answered (R13). -/
def headDone (s : State) (w : WriteEntry) (damaged : List Nat) : State :=
  (({ s with store := s.storeAfter w damaged } : State).headerAfter w).endHeadWrite w.status w.fields

/-- The pairs that the notice of a patch write carries (R35). -/
def notedPairs (s : State) (w : WriteEntry) (damaged : List Nat) : List (Nat × Option PatchEntry) :=
  match w.kind, w.bank with
  | .patchWrite pairs, some b => noticePairs pairs damaged (s.store.banks.get b).segments
  | _, _ => []

theorem completeWrite_eq (s : State) (w : WriteEntry) (damaged : List Nat) :
    s.completeWrite w damaged = (s.headDone w damaged).notify w (s.notedPairs w damaged) := rfl

section HeadDone

variable {s : State} {w : WriteEntry} {ws : List WriteEntry} (damaged : List Nat)

theorem headDone_eq (hq : s.ctl.queue = w :: ws) : s.headDone w damaged =
    ({ s with store := s.storeAfter w damaged, ctl := { (s.headerAfter w).ctl with queue := ws, eraseStep := 0 } } :
      State).answer w.req w.status w.fields := by
  have header : ({ s with store := s.storeAfter w damaged } : State).headerAfter w =
      { s with store := s.storeAfter w damaged, ctl := (s.headerAfter w).ctl } := by
    unfold headerAfter
    split <;> rfl
  have queue : (s.headerAfter w).ctl.queue = w :: ws := by rw [headerAfter_eq]; exact hq
  unfold headDone
  rw [header]
  exact endHeadWrite_eq (s := { s with store := s.storeAfter w damaged, ctl := (s.headerAfter w).ctl }) queue _ _

theorem headDone_blocks (hq : s.ctl.queue = w :: ws) :
    let e := s.headDone w damaged
    e.link = s.link ∧ e.bank = s.bank ∧ e.patch = s.patch ∧ e.eng = s.eng ∧ e.slots = s.slots ∧ e.merge = s.merge
      ∧ e.outp = s.outp ∧ e.cas = s.cas ∧ e.inputs = s.inputs ∧ e.sup = s.sup ∧ e.free = s.free ∧ e.wire = s.wire
      ∧ e.pending = s.pending := by
  intro e
  simp only [e, headDone_eq damaged hq, answer_link, answer_bank, answer_patch, answer_eng, answer_slots, answer_merge,
    answer_outp, answer_cas, answer_inputs, answer_sup, answer_free, answer_wire, answer_pending, and_self]

theorem headDone_store (hq : s.ctl.queue = w :: ws) :
    let e := s.headDone w damaged
    e.store = s.storeAfter w damaged ∧ e.ctl.queue = ws ∧ e.ctl.op = s.ctl.op ∧ e.ctl.eraseStep = 0
      ∧ e.ctl.proj = s.ctl.proj ∧ e.ctl.ram = (s.headerAfter w).ctl.ram ∧ e.ctl.failed = (s.headerAfter w).ctl.failed := by
  intro e
  have hstore : e.store = s.storeAfter w damaged := by simp only [e, headDone_eq damaged hq, answer_store]
  have hctl : e.ctl = { (s.headerAfter w).ctl with queue := ws, eraseStep := 0 } := by
    simp only [e, headDone_eq damaged hq, answer_ctl]
  rw [hctl]
  refine ⟨hstore, rfl, ?_, rfl, ?_, rfl, rfl⟩ <;> rw [headerAfter_eq]

theorem headDone_ports (hq : s.ctl.queue = w :: ws) :
    let e := s.headDone w damaged
    (e.port w.req.port).outgoing = (s.port w.req.port).outgoing
        ++ [{ kind := if (kindInfo w.req.kind.toNat).isSome then w.req.kind + 0x80 else 0xFF, tag := w.req.tag,
              status := w.status, fields := w.fields }]
      ∧ e.port (otherPort w.req.port) = s.port (otherPort w.req.port) := by
  intro e
  obtain ⟨hout, hother⟩ := answer_outgoing { s with
    store := s.storeAfter w damaged, ctl := { (s.headerAfter w).ctl with queue := ws, eraseStep := 0 } } w.req w.status w.fields
  rw [← headDone_eq damaged hq] at hout hother
  exact ⟨hout.trans (by cases w.req.port <;> rfl), hother.trans (by cases w.req.port <;> rfl)⟩

/-- A completed write of a bank leaves its notices beside the end of the head write, and nothing else (R13). -/
theorem completeWrite_bank (hk : ∀ item, w.kind ≠ .houseWrite item) : s.completeWrite w damaged =
    { s.headDone w damaged with
      eng := { (s.headDone w damaged).eng with notices := (s.headDone w damaged).eng.notices ++ (s.headDone w damaged).listNoted w },
      patch := { (s.headDone w damaged).patch with
        notices := (s.headDone w damaged).patch.notices ++ (s.headDone w damaged).patchNoted w (s.notedPairs w damaged) } } := by
  rw [completeWrite_eq, notify_eq hk]

theorem completeWrite_house {item : HouseItem} (hk : w.kind = .houseWrite item) :
    s.completeWrite w damaged = (s.headDone w damaged).handOver (.item item true) := by
  rw [completeWrite_eq]
  unfold notify; rw [hk]

/-- What a completed write leaves of the end of the head write, whatever its notices (R13). -/
theorem completeWrite_kept :
    let e := s.headDone w damaged
    let t := s.completeWrite w damaged
    t.ctl = { e.ctl with held := t.ctl.held } ∧ t.store = e.store ∧ t.con = e.con ∧ t.aux = e.aux ∧ t.slots = e.slots
      ∧ t.merge = e.merge ∧ t.free = e.free ∧ t.wire = e.wire ∧ t.pending = e.pending ∧ t.sup.raised = e.sup.raised := by
  by_cases hk : ∃ item, w.kind = .houseWrite item
  · obtain ⟨item, hk⟩ := hk
    rw [completeWrite_house damaged hk]
    exact handOver_kept _ item
  · rw [completeWrite_bank damaged (by simpa using hk)]
    exact ⟨rfl, rfl, rfl, rfl, rfl, rfl, rfl, rfl, rfl, rfl⟩

end HeadDone

end State

end Sys2Proof.Machine

namespace Sys2Proof.Machine

namespace State

/-! ### A failed write -/

theorem failedHeader_eq (s : State) (w : WriteEntry) :
    s.failedHeader w = { s with ctl := { s.ctl with ram := (s.failedHeader w).ctl.ram } } := by
  unfold failedHeader
  split <;> rfl

theorem failedHeader_ram {s : State} {w : WriteEntry} {b : Bank} (hb : w.bank = some b) :
    (s.failedHeader w).ram b = if w.kind = .bankErase then .blank else s.ram b := by
  unfold failedHeader
  rw [hb]
  cases hk : w.kind
  case bankErase => exact (ram_setRam_same s b .blank).trans (if_pos rfl).symm
  all_goals exact (if_neg (by simp)).symm

theorem failedHeader_ram_other {s : State} {w : WriteEntry} {b : Bank} (hb : w.bank ≠ some b) :
    (s.failedHeader w).ram b = s.ram b := by
  unfold failedHeader
  split
  next b' _ hb' => exact Four.get_set_other _ _ _ _ fun h => hb (h ▸ hb')
  next => rfl

theorem failedProjection_eq (s : State) (w : WriteEntry) :
    s.failedProjection w = { s with ctl := (s.failedProjection w).ctl } := by
  unfold failedProjection
  cases w.bank <;> rfl

theorem failedProjection_none {s : State} {w : WriteEntry} (hb : w.bank = none) : s.failedProjection w = s := by
  unfold failedProjection; rw [hb]

theorem failedProjection_some {s : State} {w : WriteEntry} {b : Bank} (hb : w.bank = some b) :
    (s.failedProjection w).ctl = { s.ctl with
      queue := (reproject b (s.ram b) s.ctl.queue).2,
      proj := s.ctl.proj.set b (reproject b (s.ram b) s.ctl.queue).1 } := by
  unfold failedProjection; rw [hb]; rfl

/-- The fault of a failed write (R14). -/
def writeFault (s : State) (w : WriteEntry) : EngineFault := { s.fault .storeFault false 4 with bank := w.bank }

/-- The head write failed: off the queue and answered WRITE_FAILED (R14, R15). -/
def headFailed (s : State) (w : WriteEntry) : State := (s.failedHeader w).endHeadWrite .writeFailed []

section Failing

variable {s : State} {w : WriteEntry} {ws : List WriteEntry}

theorem headFailed_eq (hq : s.ctl.queue = w :: ws) : s.headFailed w =
    ({ s with ctl := { (s.failedHeader w).ctl with queue := ws, eraseStep := 0 } } : State).answer w.req .writeFailed [] := by
  have queue : (s.failedHeader w).ctl.queue = w :: ws := by rw [failedHeader_eq]; exact hq
  have header : s.failedHeader w = { s with ctl := (s.failedHeader w).ctl } := by rw [failedHeader_eq]
  unfold headFailed
  rw [header]
  exact endHeadWrite_eq (s := { s with ctl := (s.failedHeader w).ctl }) queue _ _

theorem headFailed_ctl (hq : s.ctl.queue = w :: ws) :
    (s.headFailed w).ctl = { (s.failedHeader w).ctl with queue := ws, eraseStep := 0 } := by
  rw [headFailed_eq hq, answer_ctl]

theorem headFailed_blocks (hq : s.ctl.queue = w :: ws) :
    let e := s.headFailed w
    e.store = s.store ∧ e.link = s.link ∧ e.bank = s.bank ∧ e.patch = s.patch ∧ e.eng = s.eng ∧ e.slots = s.slots
      ∧ e.merge = s.merge ∧ e.outp = s.outp ∧ e.cas = s.cas ∧ e.inputs = s.inputs ∧ e.sup = s.sup ∧ e.free = s.free
      ∧ e.wire = s.wire := by
  intro e
  simp only [e, headFailed_eq hq, answer_store, answer_link, answer_bank, answer_patch, answer_eng, answer_slots,
    answer_merge, answer_outp, answer_cas, answer_inputs, answer_sup, answer_free, answer_wire, and_self]

theorem headFailed_ports (hq : s.ctl.queue = w :: ws) :
    let e := s.headFailed w
    (e.port w.req.port).outgoing = (s.port w.req.port).outgoing
        ++ [{ kind := if (kindInfo w.req.kind.toNat).isSome then w.req.kind + 0x80 else 0xFF, tag := w.req.tag,
              status := .writeFailed, fields := [] }]
      ∧ e.port (otherPort w.req.port) = s.port (otherPort w.req.port) := by
  intro e
  obtain ⟨hout, hother⟩ := answer_outgoing { s with
    ctl := { (s.failedHeader w).ctl with queue := ws, eraseStep := 0 } } w.req .writeFailed []
  rw [← headFailed_eq hq] at hout hother
  exact ⟨hout.trans (by cases w.req.port <;> rfl), hother.trans (by cases w.req.port <;> rfl)⟩

/-- A failed write raises its fault, works the projection out anew and leaves its list notice beside the end of the head
write, and nothing else (R14). -/
theorem failWrite_result (s : State) (w : WriteEntry) :
    let e := s.headFailed w
    s.failWrite w = { e with
      ctl := (e.failedProjection w).ctl,
      sup := (e.raise (e.writeFault w)).sup,
      eng := { e.eng with notices := e.eng.notices ++ e.listNoted w } } := by
  intro e
  have raised : e.raise (e.writeFault w) = { e with sup := (e.raise (e.writeFault w)).sup } := by
    unfold raise; split <;> rfl
  have steps : s.failWrite w = ((e.raise (e.writeFault w)).failedProjection w).listNotice w := rfl
  have projected : (({ e with sup := (e.raise (e.writeFault w)).sup } : State).failedProjection w).ctl =
      (e.failedProjection w).ctl := by
    unfold failedProjection; cases w.bank <;> rfl
  rw [steps, raised, failedProjection_eq, listNotice_eq, projected]
  rfl

/-- The queue and the projections after a failed write (R14). -/
theorem failWrite_queue (hq : s.ctl.queue = w :: ws) :
    let t := s.failWrite w
    t.ctl.op = s.ctl.op ∧ t.ctl.queue.length = ws.length ∧ t.ctl.eraseStep = 0
      ∧ (∀ b, w.bank = some b → t.ram b = (if w.kind = .bankErase then .blank else s.ram b)
          ∧ (t.proj b, t.ctl.queue) = reproject b (t.ram b) ws)
      ∧ (∀ b, w.bank ≠ some b → t.ram b = s.ram b ∧ t.proj b = s.proj b) := by
  intro t
  have hctl : t.ctl = ((s.headFailed w).failedProjection w).ctl := by simp only [t, failWrite_result]
  have hproj : (s.failedHeader w).ctl.proj = s.ctl.proj := by rw [failedHeader_eq]
  have hop : (s.failedHeader w).ctl.op = s.ctl.op := by rw [failedHeader_eq]
  have hram (b : Bank) : (s.headFailed w).ram b = (s.failedHeader w).ram b := by
    unfold ram; rw [headFailed_ctl hq]
  have other {b : Bank} (hb : w.bank ≠ some b) : (s.failedHeader w).ctl.ram.get b = s.ctl.ram.get b :=
    failedHeader_ram_other hb
  unfold ram proj
  rw [hctl]
  cases hb : w.bank with
  | none =>
    rw [failedProjection_none hb, headFailed_ctl hq]
    refine ⟨hop, rfl, rfl, fun b h => (Option.some_ne_none b h.symm).elim, fun b h => ⟨other (by rw [hb]; exact h), ?_⟩⟩
    rw [hproj]
  | some b =>
    rw [failedProjection_some hb, hram, headFailed_ctl hq]
    refine ⟨hop, length_reproject _ _ _, rfl, fun b' h => ?_, fun b' h => ⟨other (by rw [hb]; exact h), ?_⟩⟩
    · obtain rfl := Option.some.inj h
      refine ⟨failedHeader_ram hb, ?_⟩
      rw [Four.get_set_same]
      rfl
    · rw [Four.get_set_other _ _ _ _ (fun h' => h (congrArg some h'.symm)), hproj]

end Failing

/-! ### A step of an erase that is not its last -/

theorem eraseOn_eq {s : State} {w : WriteEntry} {b : Bank} (hk : w.kind = .bankErase) (hb : w.bank = some b)
    (damaged : List Nat) : s.eraseOn w = { s with
      store := s.storeAfter w damaged,
      ctl := { s.ctl with
        eraseStep := s.ctl.eraseStep + 1,
        ram := if s.ctl.eraseStep = 0 then s.ctl.ram.set b .blank else s.ctl.ram } } := by
  have store : s.storeAfter w [] = s.storeAfter w damaged := by unfold storeAfter; rw [hk, hb]
  unfold eraseOn
  dsimp only
  rw [hb, store]
  dsimp only
  split_ifs <;> rfl

end State

end Sys2Proof.Machine

namespace Sys2Proof.Machine

namespace State

/-! ### The end of a write step -/

section Steps

variable {s : State} {w : WriteEntry} {ws : List WriteEntry}

theorem exec_writeStep_done (hop : s.ctl.op = some .write) (hq : s.ctl.queue = w :: ws) (damaged : List Nat) :
    exec (.writeStepDone (.done true damaged)) s = .next (s.freePort.confirmWrite w damaged).settle := by
  show Host.Outcome.next (s.writeDone _) = _
  unfold writeDone; rw [hop, hq]

theorem exec_writeStep_failed (hop : s.ctl.op = some .write) (hq : s.ctl.queue = w :: ws) {a : WriteAnswer}
    {damaged : List Nat} (ha : a = .done false damaged ∨ a = .notDone) :
    exec (.writeStepDone a) s = .next (s.freePort.failWrite w).settle := by
  show Host.Outcome.next (s.writeDone _) = _
  unfold writeDone
  rcases ha with rfl | rfl <;> rw [hop, hq]

theorem confirmWrite_last (h : w.kind ≠ .bankErase ∨ 27 ≤ s.ctl.eraseStep) (damaged : List Nat) :
    s.confirmWrite w damaged = s.completeWrite w damaged :=
  if_neg fun ⟨hk, hs⟩ => h.elim (fun h => h hk) (fun h => absurd hs (Nat.not_lt.mpr h))

theorem confirmWrite_erasing (hk : w.kind = .bankErase) (h : s.ctl.eraseStep < 27) (damaged : List Nat) :
    s.confirmWrite w damaged = s.eraseOn w := if_pos ⟨hk, h⟩

/-! ### The notices by the kind of the write -/

theorem listNoted_congr {t : State} (h : t.bank = s.bank) (w : WriteEntry) : t.listNoted w = s.listNoted w := by
  unfold listNoted; rw [h]

theorem patchNoted_congr {t : State} (h : t.bank = s.bank) (w : WriteEntry) (pairs : List (Nat × Option PatchEntry)) :
    t.patchNoted w pairs = s.patchNoted w pairs := by
  unfold patchNoted isTarget; rw [h]

/-- A cue write or delete of a bank notes its list exactly where the bank is the active one (R13, R14). -/
theorem listNoted_cue {l : PbId} (hk : (∃ c, w.kind = .cueWrite l c) ∨ ∃ n, w.kind = .cueDelete l n) (hb : w.bank ≠ none) :
    s.listNoted w = if w.bank = s.bank.active then [l] else [] := by
  have hsome : w.bank.isSome = true := Option.isSome_iff_ne_none.mpr hb
  unfold listNoted
  rcases hk with ⟨c, hk⟩ | ⟨n, hk⟩ <;> rw [hk] <;> simp only [hsome, true_and]

theorem listNoted_none (hk : (∀ l c, w.kind ≠ .cueWrite l c) ∧ ∀ l n, w.kind ≠ .cueDelete l n) : s.listNoted w = [] := by
  unfold listNoted
  cases h : w.kind
  case cueWrite l c => exact absurd h (hk.1 l c)
  case cueDelete l n => exact absurd h (hk.2 l n)
  all_goals rfl

theorem patchNoted_none (hk : (∀ x, w.kind ≠ .patchWrite x) ∧ ∀ x, w.kind ≠ .windowWrite x)
    (pairs : List (Nat × Option PatchEntry)) : s.patchNoted w pairs = [] := by
  unfold patchNoted
  cases w.bank with
  | none => rfl
  | some b =>
    cases h : w.kind
    case patchWrite x => exact absurd h (hk.1 x)
    case windowWrite x => exact absurd h (hk.2 x)
    all_goals rfl

theorem patchNoted_windows {x : Windows} {b : Bank} (hk : w.kind = .windowWrite x) (hb : w.bank = some b)
    (pairs : List (Nat × Option PatchEntry)) :
    s.patchNoted w pairs = if s.bank.active = some b ∨ s.isTarget b = true then [.windows b x] else [] := by
  unfold patchNoted; rw [hk, hb]

theorem patchNoted_entries {x : List (Nat × Option PatchEntry)} {b : Bank} (hk : w.kind = .patchWrite x) (hb : w.bank = some b)
    (damaged : List Nat) : s.patchNoted w (s.notedPairs w damaged) =
      if s.bank.active = some b ∨ s.isTarget b = true then
        [.entries b (noticePairs x damaged (s.store.banks.get b).segments)] else [] := by
  unfold patchNoted notedPairs; rw [hk, hb]

end Steps

end State

end Sys2Proof.Machine

namespace Sys2Proof.Machine

namespace State

/-! ### A completed write -/

section Completing

variable {s : State} {w : WriteEntry} {ws : List WriteEntry} (damaged : List Nat)

theorem completeWrite_ctl (hq : s.ctl.queue = w :: ws) :
    let t := s.completeWrite w damaged
    t.store = s.storeAfter w damaged ∧ t.ctl.queue = ws ∧ t.ctl.op = s.ctl.op ∧ t.ctl.eraseStep = 0
      ∧ (∀ b, t.proj b = s.proj b) ∧ (∀ b, t.ram b = (s.headerAfter w).ram b) ∧ t.ctl.failed = (s.headerAfter w).ctl.failed := by
  intro t
  obtain ⟨hctl, hstore, -⟩ := completeWrite_kept (s := s) (w := w) damaged
  obtain ⟨estore, equeue, eop, estep, eproj, eram, efailed⟩ := headDone_store damaged hq
  unfold proj ram
  rw [show t.ctl = _ from hctl]
  exact ⟨hstore.trans estore, equeue, eop, estep, fun b => congrArg (Four.get · b) eproj,
    fun b => congrArg (Four.get · b) eram, efailed⟩

theorem completeWrite_ports (hq : s.ctl.queue = w :: ws) :
    let t := s.completeWrite w damaged
    (t.port w.req.port).outgoing = (s.port w.req.port).outgoing
        ++ [{ kind := if (kindInfo w.req.kind.toNat).isSome then w.req.kind + 0x80 else 0xFF, tag := w.req.tag,
              status := w.status, fields := w.fields }]
      ∧ t.port (otherPort w.req.port) = s.port (otherPort w.req.port) := by
  intro t
  obtain ⟨-, -, hcon, haux, -⟩ := completeWrite_kept (s := s) (w := w) damaged
  have hport (p : PortId) : t.port p = (s.headDone w damaged).port p := by
    cases p
    · exact hcon
    · exact haux
  rw [hport, hport]
  exact headDone_ports damaged hq

/-- A completed write of a bank: the notices it leaves, and what it does not touch (R13). -/
theorem completeWrite_notices (hq : s.ctl.queue = w :: ws) (hk : ∀ item, w.kind ≠ .houseWrite item) :
    let t := s.completeWrite w damaged
    t.eng = { s.eng with notices := s.eng.notices ++ s.listNoted w }
      ∧ t.patch = { s.patch with notices := s.patch.notices ++ s.patchNoted w (s.notedPairs w damaged) } := by
  intro t
  obtain ⟨-, hbank, hpatch, heng, -⟩ := headDone_blocks damaged hq
  have ht : t = _ := completeWrite_bank damaged hk
  rw [ht, listNoted_congr hbank, patchNoted_congr hbank, heng, hpatch]
  exact ⟨rfl, rfl⟩

theorem completeWrite_outside (hq : s.ctl.queue = w :: ws) :
    let t := s.completeWrite w damaged
    t.slots = s.slots ∧ t.merge = s.merge ∧ t.free = s.free ∧ t.wire = s.wire ∧ t.pending = s.pending
      ∧ t.sup.raised = s.sup.raised := by
  intro t
  obtain ⟨-, -, -, -, hslots, hmerge, hfree, hwire, hpending, hraised⟩ := completeWrite_kept (s := s) (w := w) damaged
  obtain ⟨-, -, -, -, eslots, emerge, -, -, -, esup, efree, ewire, epending⟩ := headDone_blocks damaged hq
  exact ⟨hslots.trans eslots, hmerge.trans emerge, hfree.trans efree, hwire.trans ewire, hpending.trans epending,
    hraised.trans (congrArg (fun x => x.raised) esup)⟩

/-- A completed house write on the leader: the item reaches its block, and is no longer listed as failed (R13, R178). -/
theorem completeWrite_leader (hq : s.ctl.queue = w :: ws) {item : HouseItem} (hk : w.kind = .houseWrite item)
    (hr : s.cas.role = .leader) : s.completeWrite w damaged = ((s.headDone w damaged).deliver item true).raiseGens item := by
  obtain ⟨-, -, -, -, -, -, -, hcas, -⟩ := headDone_blocks damaged hq
  rw [completeWrite_house damaged hk, handOver_item_leader (by rw [hcas]; exact hr)]

end Completing

/-- What a completed house write sets on the leader, and which setup generations go up (Table 1-1, R152). -/
theorem completeWrite_applied {s : State} {w : WriteEntry} {ws : List WriteEntry} (damaged : List Nat)
    (hq : s.ctl.queue = w :: ws) {item : HouseItem} (hk : w.kind = .houseWrite item) (hr : s.cas.role = .leader) :
    let t := s.completeWrite w damaged
    t.ctl.failed = s.ctl.failed.filter (fun i => i ≠ item.id)
    ∧ (∀ n, item = .silence n → t.link.limit = n)
    ∧ (∀ n, item = .safeFade n → t.outp.safeFade = n ∧ t.cas.gens = s.cas.gens.map nextGen)
    ∧ (∀ n, item = .backTime n → t.eng.backTime = n ∧ t.cas.gens = s.cas.gens)
    ∧ (∀ n, item = .lamp n → t.outp.lamp = n ∧ t.cas.gens = s.cas.gens.map nextGen)
    ∧ (∀ x, item = .policy x → t.sup.policy = x ∧ t.cas.gens = s.cas.gens.map nextGen)
    ∧ (∀ x, item = .resident x → t.bank.resident = x ∧ t.cas.gens = s.cas.gens)
    ∧ (∀ e, item = .safeLook e → t.outp.safeLook = e ∧ t.cas.gens = s.cas.gens.map nextGen)
    ∧ (∀ n pts, item = .curve n pts → t.patch.curves = s.patch.curves.set (n - 1) pts)
    ∧ (∀ g i, item = .groups g → (t.patch.groups.get i) =
        { s.patch.groups.get i with members := (g.get i).members, curve := (g.get i).curve })
    ∧ (∀ i x, item = .input i x → t.inputs.get i = { s.inputs.get i with settings := x })
    ∧ (∀ l x, item = .line 0 (l.val + 1) x → t.line l = (s.line l).take x ∧ t.cas.gens = s.cas.gens)
    ∧ (∀ (n : Fin 3) (l : Fin 6) x, item = .line (n.val + 1) (l.val + 1) x →
        (t.cas.lineItems.get n).get l = x ∧ t.cas.gens = s.cas.gens.set n (nextGen (s.cas.gens.get n))) := by
  intro t
  obtain ⟨-, -, hpatch, -, -, -, houtp, hcas, hinputs, -⟩ := headDone_blocks damaged hq
  obtain ⟨-, -, -, -, -, -, hfailed⟩ := completeWrite_ctl damaged hq
  have applied := deliver_applied (s.headDone w damaged) item
  have hline (l : Fin 6) : (s.headDone w damaged).line l = s.line l := congrArg (fun o : OutputStage => o.lines.get l) houtp
  simp only [hpatch, hcas, hinputs, hline, ← completeWrite_leader damaged hq hk hr] at applied
  refine ⟨?_, applied⟩
  rw [show t.ctl.failed = _ from hfailed, headerAfter_house hk]

end State

end Sys2Proof.Machine

namespace Sys2Proof.Machine

/-! ### What is read of a bank after a step of its write -/

namespace StoredBank

variable (x : StoredBank) (h : Header) (damaged : List Nat)

theorem readCue_after_cueWrite (l l' : PbId) (c : Cue) (n : Nat) :
    Checked.read Cue.bytes (Assoc.find ((x.after h (.cueWrite l' c) damaged).cues.get l) n) =
      if l = l' ∧ n = c.number then some c else Checked.read Cue.bytes (Assoc.find (x.cues.get l) n) := by
  refine (congrArg _ (Four.find_insert x.cues l l' c.number n (.seal Cue.bytes c))).trans ?_
  split_ifs
  · exact Checked.read_seal _ _
  · rfl

theorem readCue_after_cueDelete (l l' : PbId) (n' n : Nat) :
    Checked.read Cue.bytes (Assoc.find ((x.after h (.cueDelete l' n') damaged).cues.get l) n) =
      if l = l' ∧ n = n' then none else Checked.read Cue.bytes (Assoc.find (x.cues.get l) n) := by
  refine (congrArg _ (Four.find_erase x.cues l l' n' n)).trans ?_
  split_ifs <;> rfl

theorem readCue_eraseStep (k : Nat) (l : PbId) (n : Nat) :
    Checked.read Cue.bytes (Assoc.find ((x.eraseStep k).cues.get l) n) =
      if k = 26 then none else Checked.read Cue.bytes (Assoc.find (x.cues.get l) n) := by
  rw [eraseStep_cues]
  split_ifs
  · fin_cases l <;> rfl
  · rfl

theorem readWindows_eraseStep (k : Nat) : Checked.read Windows.bytes (x.eraseStep k).windows =
    if k = 25 then some ⟨none, none, none, none⟩ else Checked.read Windows.bytes x.windows := by
  rw [eraseStep_windows]
  split_ifs
  · exact Checked.read_seal _ _
  · rfl

theorem readHeader_eraseStep (k : Nat) : Checked.read Header.bytes (x.eraseStep k).header =
    if k = 0 then some .blank else if 27 ≤ k then some .fresh else Checked.read Header.bytes x.header := by
  rw [eraseStep_header]
  split_ifs
  · exact Checked.read_seal _ _
  · exact Checked.read_seal _ _
  · rfl

theorem readSegment_eraseStep {k n : Nat} (h1 : 1 ≤ n) (h24 : n ≤ 24) (hl : x.segments.length = 24) :
    Checked.read segmentBytes ((x.eraseStep k).segments.getD (n - 1) none) =
      if k = n then some [] else Checked.read segmentBytes (x.segments.getD (n - 1) none) := by
  rw [eraseStep_segment k h1 h24 hl]
  split_ifs
  · exact Checked.read_seal _ _
  · rfl

end StoredBank

namespace State

section Stored

variable {s : State} {w : WriteEntry} {b : Bank} (damaged : List Nat)

/-- The store after a step of a house write holds its item, and every other as it was (R13, R17). -/
theorem storedItem_after {item : HouseItem} (hk : w.kind = .houseWrite item) (i : Nat) :
    ({ s with store := s.storeAfter w damaged } : State).storedItem i = if i = item.id then some item else s.storedItem i := by
  unfold storedItem
  rw [storeAfter_house hk, Assoc.find_insert]
  split_ifs
  · exact Checked.read_seal _ _
  · rfl

theorem banks_after (hb : w.bank = some b) (hk : ∀ item, w.kind ≠ .houseWrite item) :
    (s.storeAfter w damaged).house = s.store.house ∧ (s.storeAfter w damaged).banks.get b = s.bankAfter w b damaged
      ∧ ∀ b', b' ≠ b → (s.storeAfter w damaged).banks.get b' = s.store.banks.get b' := by
  rw [storeAfter_bank hb hk]
  exact ⟨rfl, Four.get_set_same _ _ _, fun b' h => Four.get_set_other _ _ _ _ h⟩

/-- The header in the store after a step of a bank's write (R13, R15). -/
theorem storedHeader_after (hb : w.bank = some b) (hk : ∀ item, w.kind ≠ .houseWrite item) :
    let t : State := { s with store := s.storeAfter w damaged }
    (w.kind ≠ .bankErase → t.storedHeader b = some ((s.ram b).apply w.kind))
    ∧ (w.kind = .bankErase → t.storedHeader b =
        if s.ctl.eraseStep = 0 then some .blank else if 27 ≤ s.ctl.eraseStep then some .fresh else s.storedHeader b) := by
  obtain ⟨-, area, -⟩ := banks_after damaged hb hk
  unfold storedHeader
  dsimp only
  rw [area]
  refine ⟨fun hne => ?_, fun he => ?_⟩
  · rw [bankAfter_other hne, StoredBank.after_header, Checked.read_seal]
  · rw [bankAfter_erase he, StoredBank.readHeader_eraseStep]

/-- What the store hands over of a bank's cues, windows and segments after a step of its write. -/
theorem stored_after (hb : w.bank = some b) (hk : ∀ item, w.kind ≠ .houseWrite item) :
    let t : State := { s with store := s.storeAfter w damaged }
    let x := s.bankAfter w b damaged
    (∀ l n, t.storedCue b l n = Checked.read Cue.bytes (Assoc.find (x.cues.get l) n))
    ∧ t.storedWindows b = Checked.read Windows.bytes x.windows
    ∧ ∀ n, t.storedSegment b n = Checked.read segmentBytes (x.segments.getD (n - 1) none) := by
  obtain ⟨-, area, -⟩ := banks_after damaged hb hk
  unfold storedCue storedWindows storedSegment
  dsimp only
  rw [area]
  exact ⟨fun _ _ => rfl, rfl, fun _ => rfl⟩

end Stored

/-- What a failed write leaves alone, its notice and its fault (R14). -/
theorem failWrite_blocks {s : State} {w : WriteEntry} {ws : List WriteEntry} (hq : s.ctl.queue = w :: ws) :
    let t := s.failWrite w
    (t.store = s.store ∧ t.link = s.link ∧ t.bank = s.bank ∧ t.patch = s.patch ∧ t.slots = s.slots ∧ t.merge = s.merge
      ∧ t.outp = s.outp ∧ t.cas = s.cas ∧ t.inputs = s.inputs ∧ t.free = s.free ∧ t.wire = s.wire)
    ∧ t.eng = { s.eng with notices := s.eng.notices ++ s.listNoted w }
    ∧ (s.isFollower = false → t.sup.raised = s.sup.raised ++ [s.writeFault w]) := by
  intro t
  have result : t = _ := failWrite_result s w
  obtain ⟨hstore, hlink, hbank, hpatch, heng, hslots, hmerge, houtp, hcas, hinputs, hsup, hfree, hwire⟩ :=
    headFailed_blocks hq
  rw [result, listNoted_congr hbank, heng]
  refine ⟨⟨hstore, hlink, hbank, hpatch, hslots, hmerge, houtp, hcas, hinputs, hfree, hwire⟩, rfl, fun hf => ?_⟩
  have engine : (s.headFailed w).isFollower = false := by unfold isFollower; rw [hcas]; exact hf
  have fault : (s.headFailed w).writeFault w = s.writeFault w := by unfold writeFault State.fault; rw [hsup]
  dsimp only
  rw [raise_engine engine, fault, hsup]

theorem failWrite_ports {s : State} {w : WriteEntry} {ws : List WriteEntry} (hq : s.ctl.queue = w :: ws) :
    let t := s.failWrite w
    (t.port w.req.port).outgoing = (s.port w.req.port).outgoing
        ++ [{ kind := if (kindInfo w.req.kind.toNat).isSome then w.req.kind + 0x80 else 0xFF, tag := w.req.tag,
              status := .writeFailed, fields := [] }]
      ∧ t.port (otherPort w.req.port) = s.port (otherPort w.req.port) := by
  intro t
  have same (p : PortId) : t.port p = (s.headFailed w).port p := by
    have result : t = _ := failWrite_result s w
    rw [result]
    cases p <;> rfl
  rw [same, same]
  exact headFailed_ports hq

end State

end Sys2Proof.Machine

namespace Sys2Proof.Machine

/-! ### Write steps -/

namespace State

section Steps

variable {s : State} {w : WriteEntry} {ws : List WriteEntry}

/-- A completed write of a bank is made in the header copy of that bank alone (R13). -/
theorem completeWrite_ram {b : Bank} (damaged : List Nat) (hq : s.ctl.queue = w :: ws) (hb : w.bank = some b)
    (hk : ∀ item, w.kind ≠ .houseWrite item) :
    let t := s.completeWrite w damaged
    t.ram b = (s.ram b).apply w.kind ∧ ∀ b', b' ≠ b → t.ram b' = s.ram b' := by
  obtain ⟨-, -, -, -, -, hram, -⟩ := completeWrite_ctl damaged hq
  refine ⟨(hram b).trans ?_, fun b' hb' => (hram b').trans ?_⟩ <;> rw [headerAfter_bank hb hk]
  · exact ram_setRam_same _ _ _
  · exact Four.get_set_other _ _ _ _ hb'

/-- An erase and a title leave no notice (R13). -/
theorem completeWrite_quiet (damaged : List Nat) (hq : s.ctl.queue = w :: ws)
    (hk : w.kind = .bankErase ∨ ∃ x, w.kind = .bankTitle x) :
    (s.completeWrite w damaged).eng = s.eng ∧ (s.completeWrite w damaged).patch = s.patch := by
  have house : ∀ item, w.kind ≠ .houseWrite item := by rcases hk with hk | ⟨x, hk⟩ <;> simp [hk]
  have list : s.listNoted w = [] := listNoted_none (by rcases hk with hk | ⟨x, hk⟩ <;> simp [hk])
  have patch : s.patchNoted w (s.notedPairs w damaged) = [] :=
    patchNoted_none (by rcases hk with hk | ⟨x, hk⟩ <;> simp [hk]) _
  obtain ⟨heng, hpatch⟩ := completeWrite_notices damaged hq house
  rw [heng, hpatch, list, patch, List.append_nil, List.append_nil]
  exact ⟨rfl, rfl⟩

end Steps

end State

/-- The fields of the reply to a house write are those of its item (R17). -/
theorem WriteEntry.fields_house {w : WriteEntry} {item : HouseItem} (hk : w.kind = .houseWrite item) :
    w.fields = item.fields := by
  unfold WriteEntry.fields; rw [hk]

/-- Settles O25: a step ends as `completeWrite_ctl`, `completeWrite_notices` and `completeWrite_applied` say, or as
`failWrite_queue` and `failWrite_blocks` do; the store then holds what `stored_after` reads of it. -/
theorem writeStepsEnd : Obligations.WriteStepsEnd := by
  unfold Obligations.WriteStepsEnd
  refine ⟨fun s w ws damaged hop hq => ⟨?_, fun hlast => ?_, fun b hk hb hstep => ?_, fun a ha => ?_⟩, fun w b => ?_,
    fun s w damaged => ⟨fun item hk => ?_, fun b hb hk => ?_⟩,
    fun pairs damaged segments k v hr hrange hlen => mem_noticePairs_iff hr hrange hlen,
    fun b h w ws => ⟨rfl, fun hw => State.reproject_other hw h ws, fun hb hd =>
      ⟨fun l c st hk hcap => State.reproject_doomed hb hd hk hcap ws, fun hk => State.reproject_applied hb hd hk ws⟩⟩⟩
  · show Host.Outcome.next (s.writeDone .busy) = _
    unfold State.writeDone; rw [hop, hq]
  · have hqf : s.freePort.ctl.queue = w :: ws := hq
    refine ⟨s.freePort.completeWrite w damaged, ?_, ?_⟩
    · rw [State.exec_writeStep_done hop hq, State.confirmWrite_last (s := s.freePort) hlast]
    · obtain ⟨hstore, hqueue, hop', hstep, hproj, -⟩ := State.completeWrite_ctl damaged hqf
      obtain ⟨hout, hother⟩ := State.completeWrite_ports damaged hqf
      have notices (hk : ∀ item, w.kind ≠ .houseWrite item) := State.completeWrite_notices damaged hqf hk
      refine ⟨hstore, hqueue, hop', hstep, hout, hother, hproj, fun b hb hk => ?_, fun item hk hr => ?_, fun l c hk hb => ?_,
        fun l n hk hb => ?_, fun x b hk hb => ?_, fun x b hk hb => ?_, fun hk => ?_, State.completeWrite_outside damaged hqf⟩
      · exact State.completeWrite_ram damaged hqf hb hk
      · exact State.completeWrite_applied damaged hqf hk hr
      · rw [(notices (by simp [hk])).1]
        exact congrArg (s.eng.notices ++ ·) (State.listNoted_cue (s := s.freePort) (.inl ⟨c, hk⟩) hb)
      · rw [(notices (by simp [hk])).1]
        exact congrArg (s.eng.notices ++ ·) (State.listNoted_cue (s := s.freePort) (.inr ⟨n, hk⟩) hb)
      · rw [(notices (by simp [hk])).2]
        exact congrArg (s.patch.notices ++ ·) (State.patchNoted_windows (s := s.freePort) hk hb _)
      · rw [(notices (by simp [hk])).2]
        exact congrArg (s.patch.notices ++ ·) (State.patchNoted_entries (s := s.freePort) hk hb damaged)
      · exact State.completeWrite_quiet damaged hqf hk
  · refine ⟨s.freePort.eraseOn w, ?_, ?_⟩
    · rw [State.exec_writeStep_done hop hq, State.confirmWrite_erasing (s := s.freePort) hk hstep]
    · rw [State.eraseOn_eq (s := s.freePort) hk hb damaged]
      refine ⟨rfl, rfl, rfl, rfl, fun _ => rfl, ?_, rfl, rfl, rfl⟩
      show (if s.ctl.eraseStep = 0 then s.ctl.ram.set b .blank else s.ctl.ram).get b = _
      split_ifs
      · exact Four.get_set_same _ _ _
      · rfl
  · have hqf : s.freePort.ctl.queue = w :: ws := hq
    refine ⟨s.freePort.failWrite w, State.exec_writeStep_failed hop hq ha, ?_⟩
    obtain ⟨hop', hlen, hstep, hown, hothers⟩ := State.failWrite_queue hqf
    obtain ⟨hout, hother⟩ := State.failWrite_ports hqf
    obtain ⟨⟨hstore, hlink, hbank, hpatch, hslots, hmerge, houtp, hcas, hinputs, hfree, hwire⟩, heng, hraised⟩ :=
      State.failWrite_blocks hqf
    refine ⟨hstore, hop', hlen, hstep, hout, hother, hraised, hown, hothers, fun l c hk hb => ?_, fun l n hk hb => ?_,
      fun item hk => ⟨houtp, hbank, hpatch, ?_⟩, hlink, hbank, hpatch, hslots, hmerge, houtp, hcas, hinputs, hfree, hwire⟩
    · rw [heng]
      exact congrArg (s.eng.notices ++ ·) (State.listNoted_cue (s := s.freePort) (.inl ⟨c, hk⟩) hb)
    · rw [heng]
      exact congrArg (s.eng.notices ++ ·) (State.listNoted_cue (s := s.freePort) (.inr ⟨n, hk⟩) hb)
    · rw [heng, State.listNoted_none (by simp [hk]), List.append_nil]
      rfl
  · have house {item : HouseItem} : w.kind = .houseWrite item → w.fields = item.fields := WriteEntry.fields_house
    refine ⟨fun l c hk hb => ?_, fun _ hk => ?_, fun _ => house, fun _ => house, fun _ => house, fun _ => house,
      fun _ => house, fun _ => house, fun _ _ => house, fun _ => house, fun st l x hk => ?_, fun _ => house, fun i x hk => ?_, ?_⟩
    · unfold WriteEntry.fields; rw [hk, hb]; rfl
    · unfold WriteEntry.fields; rw [hk]
    · rw [house hk]
      exact (List.append_assoc _ _ _).symm
    · rw [house hk]; rfl
    · unfold WriteEntry.fields
      rintro (hk | ⟨_, _, hk⟩ | ⟨_, hk⟩ | ⟨_, hk⟩) <;> rw [hk]
  · have items := State.storedItem_after (s := s) damaged hk
    refine ⟨?_, ?_, fun i hi => ?_⟩
    · exact congrArg (fun x => x.banks) (State.storeAfter_house hk damaged)
    · exact (items _).trans (if_pos rfl)
    · exact (items i).trans (if_neg hi)
  · obtain ⟨house, -, others⟩ := State.banks_after (s := s) damaged hb hk
    obtain ⟨written, erased⟩ := State.storedHeader_after (s := s) damaged hb hk
    obtain ⟨cues, windows, segments⟩ := State.stored_after (s := s) damaged hb hk
    refine ⟨house, others, written, erased, fun l n => ?_, ?_, fun n h1 h24 hl => ⟨fun he => ?_, fun hne hk' => ?_, fun pairs hp hr => ?_⟩⟩
    · rw [cues]
      cases hkind : w.kind
      case cueWrite l' c =>
        rw [State.bankAfter_other (by simp [hkind]), hkind]
        exact StoredBank.readCue_after_cueWrite _ _ _ _ _ _ _
      case cueDelete l' n' =>
        rw [State.bankAfter_other (by simp [hkind]), hkind]
        exact StoredBank.readCue_after_cueDelete _ _ _ _ _ _ _
      case bankErase =>
        rw [State.bankAfter_erase hkind]
        exact StoredBank.readCue_eraseStep _ _ _ _
      all_goals
        rw [State.bankAfter_other (by simp [hkind]), hkind]
        rfl
    · rw [windows]
      cases hkind : w.kind
      case bankErase =>
        rw [State.bankAfter_erase hkind]
        exact StoredBank.readWindows_eraseStep _ _
      case windowWrite x =>
        rw [State.bankAfter_other (by simp [hkind]), hkind]
        exact Checked.read_seal _ _
      all_goals
        rw [State.bankAfter_other (by simp [hkind]), hkind]
        rfl
    · rw [segments, State.bankAfter_erase he]
      exact StoredBank.readSegment_eraseStep _ h1 h24 hl
    · rw [segments, State.bankAfter_other hne, StoredBank.after_segments hk']
      rfl
    · have hne : w.kind ≠ .bankErase := by simp [hp]
      rw [segments, State.bankAfter_other hne, hp]
      exact read_writeSegments damaged h1 (h24.trans_eq hl.symm) hr

end Sys2Proof.Machine

/-! With no show nothing is lit: what the invariant depends on, and how each operation keeps it (R29, R46, R115). -/

namespace Sys2Proof.Machine

/-- What a playback shows: its state, its look, its back stack and its pending GO (R63). -/
def Playback.shown (x : Playback) : PbState × Look × List BackEntry × Option PendingGo :=
  (x.state, x.look, x.back, x.pendingGo)

end Sys2Proof.Machine

namespace Sys2Proof.Machine.State

/-- No playback is lit, moving or waiting, and nothing is patched. -/
def Dark (s : State) : Prop :=
  s.slots = [] ∧ s.patch.active = [] ∧ s.patch.windows = .empty
    ∧ ∀ p, (s.pb p).state = .empty ∧ (s.pb p).look = [] ∧ (s.pb p).back = [] ∧ (s.pb p).pendingGo = none

/-- What the invariant depends on: the active bank, the slots, the active patch and what the playbacks show. -/
def shown (s : State) :
    Option Bank × List Slot × Assoc PatchEntry × Windows × (PbId → PbState × Look × List BackEntry × Option PendingGo) :=
  (s.bank.active, s.slots, s.patch.active, s.patch.windows, fun p => (s.pb p).shown)

theorem shown_congr {s t : State} (hb : t.bank = s.bank) (hp : t.patch = s.patch) (he : t.eng = s.eng)
    (hs : t.slots = s.slots) : t.shown = s.shown := by
  simp only [shown, pb, hb, hp, he, hs]

theorem standsWithoutShow_congr {s t : State} (h : t.shown = s.shown) : t.StandsWithoutShow ↔ s.StandsWithoutShow := by
  simp only [shown, Playback.shown, Prod.mk.injEq, funext_iff] at h
  obtain ⟨hb, hs, ha, hw, hp⟩ := h
  simp only [StandsWithoutShow, hb, hs, ha, hw, fun p => (hp p).1, fun p => (hp p).2.1, fun p => (hp p).2.2.1,
    fun p => (hp p).2.2.2]

theorem StandsWithoutShow.of_shown {s t : State} (hs : s.StandsWithoutShow) (h : t.shown = s.shown) : t.StandsWithoutShow :=
  (standsWithoutShow_congr h).mpr hs

/-- With an active bank there is nothing to keep (R46). -/
theorem stands_of_active {s : State} (h : s.bank.active ≠ none) : s.StandsWithoutShow := fun hn => absurd hn h

/-- An operation that keeps the active bank keeps the invariant if it does so on a dark part. -/
theorem StandsWithoutShow.of_dark {s t : State} (hs : s.StandsWithoutShow) (hb : t.bank.active = s.bank.active)
    (h : s.bank.active = none → s.Dark → t.StandsWithoutShow) : t.StandsWithoutShow := by
  by_cases hn : s.bank.active = none
  · exact h hn (hs hn)
  · exact stands_of_active (hb ▸ hn)

/-- A playback that is not EMPTY, or has something to go back to, or a pending GO, plays a show (R46). -/
theorem StandsWithoutShow.active_of_lit {s : State} (hs : s.StandsWithoutShow) (p : PbId)
    (h : (s.pb p).state ≠ .empty ∨ (s.pb p).back ≠ [] ∨ (s.pb p).pendingGo ≠ none) : s.bank.active ≠ none := by
  intro hn
  obtain ⟨-, -, -, hpb⟩ := hs hn
  obtain ⟨hstate, -, hback, hgo⟩ := hpb p
  rcases h with h | h | h
  · exact h hstate
  · exact h hback
  · exact h hgo

theorem shown_setPb {s : State} {p : PbId} {x : Playback} (hx : x.shown = (s.pb p).shown) : (s.setPb p x).shown = s.shown := by
  have playbacks : (fun q => ((s.setPb p x).pb q).shown) = fun q => (s.pb q).shown := by
    funext q
    by_cases hq : q = p
    · rw [hq, pb_setPb_same, hx]
    · rw [pb_setPb_other _ _ _ _ hq]
  simp only [shown, setPb_bank, setPb_slots, setPb_patch, playbacks]

theorem StandsWithoutShow.foldl {α : Type} {s : State} (hs : s.StandsWithoutShow) {f : State → α → State}
    (hf : ∀ t a, t.StandsWithoutShow → (f t a).StandsWithoutShow) (l : List α) : (l.foldl f s).StandsWithoutShow := by
  induction l generalizing s with
  | nil => exact hs
  | cons a l ih => exact ih (hf s a hs)

theorem stands_ite {b : Prop} [Decidable b] {s t : State} (hs : s.StandsWithoutShow) (ht : t.StandsWithoutShow) :
    (if b then s else t).StandsWithoutShow := by
  split_ifs
  · exact hs
  · exact ht

end Sys2Proof.Machine.State

namespace Sys2Proof.Machine.State

/-! ### Operations outside the show -/

@[simp] theorem shown_setPort (s : State) (p : PortId) (x : Port) : (s.setPort p x).shown = s.shown :=
  shown_congr (by simp) (by simp) (by simp) (by simp)

@[simp] theorem shown_takeOff (s : State) (p : PortId) (rest : List Request) : (s.takeOff p rest).shown = s.shown :=
  shown_setPort _ _ _

@[simp] theorem shown_answer (s : State) (q : Requester) (st : Status) (b : List Byte) : (s.answer q st b).shown = s.shown :=
  shown_setPort _ _ _

@[simp] theorem shown_report (s : State) (k : Nat) (u : Bool) (b : List Byte) : (s.report k u b).shown = s.shown :=
  shown_congr (by simp) (by simp) (by simp) (by simp)

@[simp] theorem shown_raise (s : State) (f : EngineFault) : (s.raise f).shown = s.shown :=
  shown_congr (by simp) (by simp) (by simp) (by simp)

@[simp] theorem shown_startReply (s : State) (p : PortId) : (s.startReply p).shown = s.shown :=
  shown_congr (by simp) (by simp) (by simp) (by simp)

@[simp] theorem shown_pump (s : State) : s.pump.shown = s.shown := shown_congr (by simp) (by simp) (by simp) (by simp)

@[simp] theorem shown_arbitrate (s : State) : s.arbitrate.shown = s.shown :=
  shown_congr (by simp) (by simp) (by simp) (by simp)

@[simp] theorem shown_settle (s : State) : s.settle.shown = s.shown := shown_congr (by simp) (by simp) (by simp) (by simp)

@[simp] theorem shown_emit (s : State) (o : Output) : (s.emit o).shown = s.shown := rfl

@[simp] theorem shown_setLine (s : State) (l : Fin 6) (x : Line) : (s.setLine l x).shown = s.shown := rfl

@[simp] theorem shown_setBuilder (s : State) (p : PortId) (x : Option Builder) : (s.setBuilder p x).shown = s.shown :=
  shown_setPort _ _ _

theorem shown_takeRequest {β : Type} {s : State} {p : PortId} {code : Nat} {parse : List Byte → Except Status β}
    {work : State → Requester → β → State} (wk : ∀ u q v, (work u q v).shown = u.shown) :
    (s.takeRequest p code parse work).shown = s.shown :=
  takeRequest_keeps (P := fun t => t.shown = s.shown) rfl (fun _ _ _ => shown_takeOff _ _ _)
    (fun _ _ _ _ h => (shown_answer _ _ _ _).trans h) (fun _ h => (shown_pump _).trans h)
    (fun _ _ _ h => (wk _ _ _).trans h)

theorem shown_takeStoreRequest {β : Type} {s : State} {p : PortId} {code : Nat} {parse : List Byte → Except Status β}
    {work : State → Requester → β → State} (wk : ∀ u q v, (work u q v).shown = u.shown) :
    (s.takeStoreRequest p code parse work).shown = s.shown :=
  shown_takeRequest fun u q v => (shown_arbitrate _).trans (wk u q v)

/-! ### The lines -/

@[simp] theorem shown_rackReport (s : State) (stage line : Nat) (rack : Nat × Nat) (n : RackNews) :
    (s.rackReport stage line rack n).shown = s.shown := by cases n <;> simp [rackReport]

@[simp] theorem shown_tableEvent (s : State) (stage : Nat) (e : CircuitEvent) : (s.tableEvent stage e).shown = s.shown :=
  shown_congr (by simp) (by simp) (by simp) (by simp)

theorem shown_handEvents (s : State) (l : Fin 6) (i : Nat) (d : Debounce) : (s.handEvents l i d).shown = s.shown := by
  unfold handEvents
  dsimp only
  split_ifs
  · rfl
  · rfl
  · rfl
  · exact foldl_keeps (g := shown) (fun t a => shown_tableEvent t _ _) _ _

theorem shown_takeStatuses (s : State) (l : Fin 6) (statuses : List CircuitStatus) :
    (s.takeStatuses l statuses).shown = s.shown := by
  refine foldl_keeps (g := shown) (fun t a => ?_) _ _
  unfold takeStatus
  split_ifs
  · rfl
  · exact shown_handEvents _ _ _ _

@[simp] theorem shown_countReturn (s : State) (l : Fin 6) (r : Return) : (s.countReturn l r).shown = s.shown := by
  cases r with
  | bad => simp [countReturn, setRack]
  | good m n x =>
    simp only [countReturn]
    split_ifs <;> simp [shown_takeStatuses, setRack]

theorem shown_takeReturn (s : State) (l : Fin 6) (clean : Bool) (b : List Byte) : (s.takeReturn l clean b).shown = s.shown := by
  unfold takeReturn
  split_ifs <;> simp [closeInterval]

theorem shown_lineExpiry (s : State) (l : Fin 6) : (s.lineExpiry l).shown = s.shown := by
  unfold lineExpiry missReturn sendLevels
  split_ifs <;> simp [closeInterval]

theorem shown_lineHoldWork (s : State) (q : Requester) (a : Nat × Bool) : (s.lineHoldWork q a).shown = s.shown := by
  unfold lineHoldWork
  refine (shown_answer _ _ _ _).trans ?_
  split <;> rfl

theorem shown_faultClearWork (s : State) (q : Requester) (a : Option (Nat × FaultKind)) :
    (s.faultClearWork q a).shown = s.shown := by
  unfold faultClearWork
  dsimp only
  split
  · exact (shown_answer _ _ _ _).trans rfl
  · split
    · exact shown_answer _ _ _ _
    · split <;> exact (shown_answer _ _ _ _).trans rfl

/-! ### The ports -/

theorem shown_receive (s : State) (p : PortId) (kind tag : Byte) (body : List Byte) :
    (s.receive p kind tag body).shown = s.shown := by
  have heard (t : State) : (t.heard p kind).shown = t.shown := by
    cases p
    · show (t.consoleHeard kind).shown = t.shown
      unfold consoleHeard
      dsimp only
      split_ifs
      · exact shown_report _ _ _ _
      · rfl
    · rfl
  have queued (t : State) : (t.queueFrame p kind tag body).shown = t.shown := by
    unfold queueFrame
    dsimp only
    split_ifs <;> simp
  unfold receive
  split_ifs
  · simp
  · simp [startReplies, queued, heard]

theorem shown_finishSending (s : State) (p : PortId) : (s.finishSending p).shown = s.shown := by
  unfold finishSending
  split <;> simp

theorem shown_takeUnknown (s : State) (p : PortId) : (s.takeUnknown p).shown = s.shown := by
  unfold takeUnknown
  split
  · rfl
  · split_ifs <;> simp

/-! ### The cascade -/

theorem shown_cascadeExpiry (s : State) : s.cascadeExpiry.shown = s.shown := by
  have stages (t : State) : (three.foldl sendStage t).shown = t.shown :=
    foldl_keeps (f := sendStage) (g := shown) (fun _ _ => rfl) _ _
  have setups (t : State) : (three.foldl sendSetup t).shown = t.shown :=
    foldl_keeps (f := sendSetup) (g := shown) (fun _ _ => rfl) _ _
  unfold cascadeExpiry
  dsimp only
  split_ifs
  · rw [setups]; exact stages s
  · exact stages s
  · rfl

theorem shown_watchHop (s : State) (hop : Nat) : (s.watchHop hop).shown = s.shown := by
  have role (t : State) (n : Nat) : (t.roleOfStage n).shown = t.shown := by
    unfold roleOfStage
    split_ifs <;> rfl
  unfold watchHop changeId
  split
  · exact role _ _
  · dsimp only
    generalize (if s.cas.cand = some hop then s.cas.candRun + 1 else 1) = run
    split_ifs
    · rfl
    · exact role _ _
    · rfl

/-- The six lines changed one after another. -/
theorem shown_foldLines (s : State) (f : Fin 6 → Line → Line) :
    (six.foldl (fun t l => t.setLine l (f l (t.line l))) s).shown = s.shown :=
  foldl_keeps (g := shown) (fun t l => shown_setLine t l _) _ _

theorem shown_takeStage (s : State) (f : StageFrame) : (s.takeStage f).shown = s.shown := by
  have taken := shown_foldLines
    { s with outp := { s.outp with target := (stageSettled f s.free).blend }, free := s.free + stageOpens f }
    (fun l x => { x with next := levelsOfLine (stageSettled f s.free).levels l })
  unfold takeStage
  dsimp only at taken ⊢
  generalize List.foldl _ _ six = u at taken ⊢
  exact taken

theorem shown_applySetup (s : State) (f : SetupFrame) : (s.applySetup f).shown = s.shown := by
  have taken := shown_foldLines { s with free := s.free + setupOpens f }
    (fun l x => x.take ((setupSettled f s.free).lines.getD l.val defaultLine))
  unfold applySetup
  dsimp only at taken ⊢
  generalize List.foldl _ _ six = u at taken ⊢
  exact taken

theorem shown_stageFrameIn {s : State} (f : StageFrame) (hl : s.isLeader = false) :
    (s.stageFrameIn f).shown = s.dinByte.shown := by
  have lost (t : State) : t.endLeaderLost.shown = t.shown := by
    unfold endLeaderLost
    split_ifs <;> rfl
  unfold stageFrameIn
  simp only [hl, Bool.false_eq_true, if_false, shown_emit]
  split_ifs
  · rw [shown_takeStage, lost, shown_watchHop]
  · rw [lost, shown_watchHop]

theorem shown_setupFrameIn {s : State} (f : SetupFrame) (hl : s.isLeader = false) :
    (s.setupFrameIn f).shown = s.dinByte.shown := by
  unfold setupFrameIn
  simp only [hl, Bool.false_eq_true, if_false, shown_emit]
  split_ifs
  · rw [shown_applySetup, shown_watchHop]
  · rw [shown_watchHop]

theorem shown_countError (s : State) (i : CasInput) : (s.countError i).shown = s.shown ∨ (s.countError i).shown = s.dinByte.shown := by
  cases i with
  | uin => exact .inl rfl
  | din =>
    right
    show (if s.dinByte.isLeader then s.dinByte else _).shown = _
    split_ifs <;> rfl

theorem shown_takeUp (s : State) (n : Fin 3) (f : UpFrame) : (s.takeUp n f).shown = s.shown := by
  have joined (t : State) (g : UpFrame) : (t.joinStage n g).shown = t.shown := by
    unfold joinStage
    dsimp only
    split_ifs
    · rfl
    · exact shown_report _ _ _ _
  have lines (t : State) (x : List LineReport) : (t.reportStageLines n x).shown = t.shown :=
    foldl_keeps (g := shown) (fun t a => shown_rackReport t _ _ _ _) _ _
  unfold takeUp
  refine (foldl_keeps (g := shown) (fun t a => shown_tableEvent t _ _) _ _).trans ?_
  exact (lines _ _).trans (joined _ _)

theorem shown_upFrameIn (s : State) (f : UpFrame) : (s.upFrameIn f).shown = s.shown := by
  have orphan : s.seeOrphan.shown = s.shown := by
    unfold seeOrphan
    split_ifs
    · rfl
    · exact shown_raise _ _
  unfold upFrameIn
  split_ifs
  · rfl
  · rfl
  · exact orphan
  · split
    · rw [shown_pump, shown_takeUp]
    · rfl
  · rfl

theorem shown_loseStage (s : State) (n : Fin 3) : (s.loseStage n).shown = s.shown := by
  unfold loseStage
  dsimp only
  split_ifs
  · rw [shown_pump, shown_raise, shown_report]; rfl
  · rfl

/-! ### House items and the ends of store operations -/

theorem shown_startLines (s : State) : s.startLines.shown = s.shown := by
  unfold startLines
  split_ifs <;> rfl

theorem shown_deliver (s : State) (item : HouseItem) (c : Bool) : (s.deliver item c).shown = s.shown := by
  cases item with
  | line st l x =>
    show (s.deliverLine st l x c).shown = s.shown
    unfold deliverLine
    split
    · rfl
    · split
      · rfl
      · split_ifs
        · rfl
        · exact shown_startLines _
  | _ => rfl

theorem shown_deliverHeld (s : State) (h : Held) : (s.deliverHeld h).shown = s.shown := by
  have gens (t : State) (i : HouseItem) : (t.raiseGens i).shown = t.shown := by
    rw [raiseGens_eq]; rfl
  cases h with
  | fault f => exact shown_raise s f
  | item i c =>
    simp only [deliverHeld]
    split_ifs
    · rw [gens, shown_deliver]
    · exact shown_deliver _ _ _

theorem shown_handOver (s : State) (h : Held) : (s.handOver h).shown = s.shown := by
  unfold handOver
  split
  · rfl
  · exact shown_deliverHeld s h
  · rfl

theorem shown_becomeLeader (s : State) : s.becomeLeader.shown = s.shown := by
  unfold becomeLeader
  rw [shown_startLines, foldl_keeps (g := shown) shown_deliverHeld]
  rfl

theorem shown_endStartUpRead (s : State) (i : Nat) (passes : Bool) : (s.endStartUpRead i passes).shown = s.shown := by
  have house (t : State) : (t.houseRead i passes).shown = t.shown := by
    unfold houseRead
    split
    · exact shown_handOver _ _
    · exact (shown_handOver _ _).trans rfl
  unfold endStartUpRead
  dsimp only
  rw [shown_settle]
  have read : (if i ≤ 42 then s.freePort.houseRead i passes else s.freePort.headerRead (Fin.ofNat 4 (i - 43)) passes).shown
      = s.shown := by
    split_ifs
    · exact house _
    · rfl
  generalize (if i ≤ 42 then _ else _) = u at read ⊢
  split_ifs <;> exact read

theorem shown_listNotice (s : State) (w : WriteEntry) : (s.listNotice w).shown = s.shown := by
  rw [listNotice_eq]; rfl

theorem shown_completeWrite (s : State) (w : WriteEntry) (damaged : List Nat) : (s.completeWrite w damaged).shown = s.shown := by
  have noted (t : State) (pairs : List (Nat × Option PatchEntry)) : (t.notify w pairs).shown = t.shown := by
    unfold notify
    split
    · exact shown_handOver _ _
    · rw [patchNoticeFor_eq]; exact shown_listNotice t w
  have headed (t : State) : (t.headerAfter w).shown = t.shown := by
    rw [headerAfter_eq]; rfl
  have ended (t : State) (st : Status) (b : List Byte) : (t.endHeadWrite st b).shown = t.shown :=
    shown_congr (by simp) (by simp) (by simp) (by simp)
  unfold completeWrite
  rw [noted, ended, headed]
  rfl

theorem shown_failWrite (s : State) (w : WriteEntry) : (s.failWrite w).shown = s.shown := by
  have headed : (s.failedHeader w).shown = s.shown := by
    rw [failedHeader_eq]; rfl
  have ended (t : State) (st : Status) (b : List Byte) : (t.endHeadWrite st b).shown = t.shown :=
    shown_congr (by simp) (by simp) (by simp) (by simp)
  have projected (t : State) : (t.failedProjection w).shown = t.shown := by
    rw [failedProjection_eq]; rfl
  rw [failWrite_eq, shown_listNotice, projected, shown_raise, ended, headed]

theorem shown_confirmWrite (s : State) (w : WriteEntry) (damaged : List Nat) : (s.confirmWrite w damaged).shown = s.shown := by
  unfold confirmWrite
  split_ifs
  · unfold eraseOn
    dsimp only
    split
    · split_ifs <;> rfl
    · rfl
  · exact shown_completeWrite s w damaged

theorem shown_writeDone (s : State) (a : WriteAnswer) : (s.writeDone a).shown = s.shown := by
  unfold writeDone
  split
  · rw [shown_settle, shown_confirmWrite]; rfl
  · rw [shown_settle, shown_failWrite]; rfl
  · rw [shown_settle, shown_failWrite]; rfl
  · rfl

theorem shown_startUpDone (s : State) (a : StoreAnswer) : (s.startUpDone a).shown = s.shown := by
  unfold startUpDone
  split
  · rfl
  · exact shown_endStartUpRead _ _ _
  · rfl

theorem shown_answerPatch (s : State) (q : Requester) (first count : Nat) (m : Assoc PatchEntry) (w : Windows) :
    (s.answerPatch q first count m w).shown = s.shown := (shown_answer _ _ _ _).trans rfl

theorem shown_endHostRead (s : State) (r : HostRead) (passes : Bool) : (s.endHostRead r passes).shown = s.shown := by
  cases r with
  | cue q b l n first => simp only [endHostRead]; split <;> exact shown_answer _ _ _ _
  | patch q b first count =>
    simp only [endHostRead]
    split
    · exact shown_answerPatch _ _ _ _ _ _
    · exact shown_answer _ _ _ _

theorem shown_hostReadDone (s : State) (a : StoreAnswer) : (s.hostReadDone a).shown = s.shown := by
  unfold hostReadDone
  split
  · rfl
  · rw [shown_settle, shown_endHostRead]; rfl
  · rfl

/-! ### The requests of the store and the reads -/

@[simp] theorem shown_enqueue (s : State) (w : WriteEntry) : (s.enqueue w).shown = s.shown :=
  shown_congr (by simp) (by simp) (by simp) (by simp)

@[simp] theorem shown_acceptWrite (s : State) (q : Requester) (k : WriteKind) (b : Option Bank) (st : Status) :
    (s.acceptWrite q k b st).shown = s.shown := by
  unfold acceptWrite
  split_ifs <;> simp

@[simp] theorem shown_acceptBankWrite (s : State) (q : Requester) (k : WriteKind) (b : Bank) :
    (s.acceptBankWrite q k b).shown = s.shown := by
  unfold acceptBankWrite
  split_ifs <;> simp

theorem shown_cueOpenWork (s : State) (q : Requester) (a : Builder) : (s.cueOpenWork q a).shown = s.shown := by
  unfold cueOpenWork
  split_ifs <;> simp

theorem shown_cueAddWork (s : State) (q : Requester) (a : List (Nat × Nat)) : (s.cueAddWork q a).shown = s.shown := by
  unfold cueAddWork
  split
  · simp
  · dsimp only
    split_ifs <;> simp

theorem shown_cueCloseWork (s : State) (q : Requester) (a : Unit) : (s.cueCloseWork q a).shown = s.shown := by
  unfold cueCloseWork
  split
  · simp
  · split
    · simp
    · split
      · simp
      · split <;> simp

theorem shown_cueAbandonWork (s : State) (q : Requester) (a : Unit) : (s.cueAbandonWork q a).shown = s.shown := by
  unfold cueAbandonWork
  split_ifs <;> simp

theorem shown_cueDeleteWork (s : State) (q : Requester) (a : (Bank × PbId) × Nat) : (s.cueDeleteWork q a).shown = s.shown := by
  unfold cueDeleteWork
  split_ifs <;> simp

theorem shown_windowSetWork (s : State) (q : Requester) (a : Bank × Windows) : (s.windowSetWork q a).shown = s.shown := by
  unfold windowSetWork
  split_ifs <;> simp

theorem shown_bankEraseWork (s : State) (q : Requester) (b : Bank) : (s.bankEraseWork q b).shown = s.shown := by
  unfold bankEraseWork
  split_ifs <;> simp

theorem shown_recordWork (s : State) (q : Requester) (a : RecordArgs) : (s.recordWork q a).shown = s.shown := by
  unfold recordWork
  split
  · simp
  · dsimp only
    split
    · simp
    · split_ifs <;> simp

theorem shown_cueReadWork (s : State) (q : Requester) (a : (Bank × PbId) × Nat × Nat) : (s.cueReadWork q a).shown = s.shown := by
  unfold cueReadWork
  dsimp only
  split_ifs
  · simp
  · split
    · simp
    · simp
    · rfl

theorem shown_patchReadWork (s : State) (q : Requester) (a : Bank × Nat × Nat) : (s.patchReadWork q a).shown = s.shown := by
  unfold patchReadWork
  dsimp only
  split_ifs
  · simp
  · split
    · exact shown_answerPatch _ _ _ _ _ _
    · rfl

theorem shown_listReadWork (s : State) (q : Requester) (a : (Bank × PbId) × Nat) : (s.listReadWork q a).shown = s.shown := by
  unfold listReadWork
  dsimp only
  split_ifs <;> simp

theorem shown_statusWork (s : State) (q : Requester) (a : Unit) : (s.statusWork q a).shown = s.shown := by
  unfold statusWork
  split_ifs
  · exact shown_answer _ _ _ _
  · exact shown_answer _ _ _ _
  · exact (shown_answer _ _ _ _).trans rfl

theorem shown_levelsReadWork (s : State) (q : Requester) (a : Nat × Nat × Nat) : (s.levelsReadWork q a).shown = s.shown := by
  unfold levelsReadWork
  dsimp only
  split
  · simp
  · split_ifs <;> simp

theorem shown_slotReadWork (s : State) (q : Requester) (a : Nat × Nat) : (s.slotReadWork q a).shown = s.shown := by
  unfold slotReadWork
  split <;> simp

theorem shown_parkWork (s : State) (q : Requester) (a : Nat × Nat × Bool) : (s.parkWork q a).shown = s.shown := by
  unfold parkWork
  dsimp only
  split_ifs
  · exact shown_answer _ _ _ _
  · exact (shown_answer _ _ _ _).trans rfl

theorem shown_unparkWork (s : State) (q : Requester) (c : Nat) : (s.unparkWork q c).shown = s.shown := by
  have kept (rest : List Park) : (s.keepParks q rest).shown = s.shown := (shown_answer _ _ _ _).trans rfl
  unfold unparkWork
  split_ifs
  · split <;> exact kept _
  · exact shown_answer _ _ _ _
  · exact kept _

theorem shown_masterWork (s : State) (q : Requester) (a : Nat × Nat × Bool) : (s.masterWork q a).shown = s.shown := by
  refine (shown_answer _ _ _ _).trans ?_
  unfold setMaster
  split
  · exact shown_setPb rfl
  · rfl

/-! ### Changeovers under way -/

theorem shown_answerOwed (s : State) (o : Option Byte) (st : Status) (b : List Byte) : (s.answerOwed o st b).shown = s.shown :=
  shown_congr (by simp) (by simp) (by simp) (by simp)

theorem shown_cancelChangeover (s : State) (c : Change) : (s.cancelChangeover c).shown = s.shown :=
  (shown_answerOwed _ _ _ _).trans rfl

theorem shown_changeoverWork (s : State) (q : Requester) (a : Bank × Bool) : (s.changeoverWork q a).shown = s.shown := by
  unfold changeoverWork
  split_ifs
  · exact shown_answer _ _ _ _
  · exact shown_answer _ _ _ _
  · rfl

theorem shown_changeoverCancelWork (s : State) (q : Requester) (a : Unit) : (s.changeoverCancelWork q a).shown = s.shown := by
  unfold changeoverCancelWork
  split
  · exact shown_answer _ _ _ _
  · exact (shown_answer _ _ _ _).trans (shown_cancelChangeover _ _)

theorem shown_decideStartUp (s : State) : s.decideStartUp.shown = s.shown := by
  have told : (if s.ctl.houseFailed = true then
      ({ s with bank := { s.bank with decided := true } } : State).raise
        (({ s with bank := { s.bank with decided := true } } : State).fault .houseCheck false 0)
      else { s with bank := { s.bank with decided := true } }).shown = s.shown := by
    split_ifs
    · exact shown_raise _ _
    · rfl
  unfold decideStartUp
  dsimp only
  generalize (if s.ctl.houseFailed = true then _ else _) = u at told ⊢
  split_ifs
  · split
    · rw [shown_settle, told]
    · split_ifs
      · rw [shown_settle, told]
      · rw [shown_settle]; exact told
  · rfl

end Sys2Proof.Machine.State

namespace Sys2Proof.Machine.State

/-! ### Standbys, fetches and GO -/

@[simp] theorem shown_inputResult (s : State) (i : Fin 4) (p : PbId) (a : InputCommand) (r : InputResult) (cue : Nat) :
    (s.inputResult i p a r cue).shown = s.shown := shown_congr (by simp) (by simp) (by simp) (by simp)

@[simp] theorem shown_endGo (s : State) (p : PbId) (src : GoSource) (st : Status) : (s.endGo p src st).shown = s.shown :=
  shown_congr (by simp) (by simp) (by simp) (by simp)

@[simp] theorem shown_dropFetch (s : State) (p : PbId) : (s.dropFetch p).shown = s.shown :=
  (shown_setPb (by rfl)).trans rfl

@[simp] theorem shown_endAtOnce (s : State) (p : PbId) (before now : Standby) : (s.endAtOnce p before now).shown = s.shown := by
  have ended : (s.setPb p { s.pb p with standby := now }).shown = s.shown := shown_setPb rfl
  unfold endAtOnce
  dsimp only
  split_ifs
  · exact ended
  · exact (shown_report _ _ _ _).trans ended

@[simp] theorem shown_takeStandby (s : State) (p : PbId) (now : Standby) : (s.takeStandby p now).shown = s.shown :=
  (shown_report _ _ _ _).trans (shown_setPb (by rfl))

/-- A fetch changes nothing that is lit, moving or waiting (R54). -/
@[simp] theorem shown_startFetchCore (s : State) (p : PbId) : (s.startFetchCore p).shown = s.shown := by
  unfold startFetchCore
  dsimp only
  split
  · split_ifs
    · simp
    · split
      · simp
      · simp
      · exact (shown_setPb (by rfl)).trans (shown_dropFetch s p)
  · simp

/-- A GO pends only on a show, and what it is handed keeps the show active (R46, R57). -/
theorem stands_handPending {s : State} (hs : s.StandsWithoutShow) (p : PbId) : (s.handPending p).StandsWithoutShow := by
  by_cases hg : (s.pb p).pendingGo = none
  · simpa [handPending, hg] using hs
  · exact stands_of_active (by rw [handPending_bank]; exact hs.active_of_lit p (.inr (.inr hg)))

theorem stands_startFetch {s : State} (hs : s.StandsWithoutShow) (p : PbId) : (s.startFetch p).StandsWithoutShow :=
  stands_handPending (hs.of_shown (shown_startFetchCore s p)) p

theorem stands_endPending {s : State} (hs : s.StandsWithoutShow) (p : PbId) (st : Status) :
    (s.endPending p st).StandsWithoutShow := by
  by_cases hg : (s.pb p).pendingGo = none
  · simpa [endPending, hg] using hs
  · exact stands_of_active (by rw [endPending_bank]; exact hs.active_of_lit p (.inr (.inr hg)))

/-- Without a show a GO ends NO_SHOW (R66). -/
theorem stands_goCommand {s : State} (hs : s.StandsWithoutShow) (p : PbId) (src : GoSource) (o : Option Nat) (a : Bool) :
    (s.goCommand p src o a).StandsWithoutShow := by
  refine hs.of_dark (by simp) fun hn _ => hs.of_shown ?_
  have refused : s.goCommand p src o a = s.endGo p src .noShow := by simp [goCommand, hn]
  rw [refused, shown_endGo]

theorem stands_takeOutcome {s : State} (hs : s.StandsWithoutShow) (p : PbId) (f : Fetch) (r : Option Cue) :
    (s.takeOutcome p f r).StandsWithoutShow := by
  cases r with
  | some c => exact stands_handPending (hs.of_shown (shown_takeStandby _ _ _)) p
  | none => exact stands_handPending (hs.of_shown ((shown_takeStandby _ _ _).trans (shown_raise _ _))) p

/-! ### BACK, HOLD, RESUME, JUMP, RELEASE and the follows -/

/-- A BACK that is taken goes back in a show (R46, R73). -/
theorem stands_backCommand {s t : State} (hs : s.StandsWithoutShow) {p : PbId} {r : BackTaken}
    (h : s.backCommand p = .ok (t, r)) : t.StandsWithoutShow := by
  unfold backCommand at h
  dsimp only at h
  split at h
  · cases h
  · rename_i top rest hback
    have active := hs.active_of_lit p (.inr (.inl (by rw [hback]; exact List.cons_ne_nil _ _)))
    split_ifs at h
    all_goals
      split at h
      · cases h
      · cases h; exact stands_of_active (by simpa using active)

/-- Only a playback that plays a show is held (R74). -/
theorem stands_holdCommand {s t : State} (hs : s.StandsWithoutShow) {p : PbId} (h : s.holdCommand p = .ok t) :
    t.StandsWithoutShow := by
  have entered (hstate : (s.pb p).state ≠ .empty) : (s.enterHeld p).StandsWithoutShow :=
    stands_of_active (by rw [enterHeld_bank]; exact hs.active_of_lit p (.inl hstate))
  unfold holdCommand at h
  split at h
  · rename_i hstate
    cases h; exact entered (by simp [hstate])
  · rename_i hstate
    split_ifs at h
    cases h; exact entered (by simp [hstate])
  · cases h
  · cases h; exact hs

theorem stands_resumeCommand {s t : State} (hs : s.StandsWithoutShow) {p : PbId} (h : s.resumeCommand p = .ok t) :
    t.StandsWithoutShow := by
  unfold resumeCommand at h
  split_ifs at h with hstate
  cases h
  exact stands_of_active (by simpa using hs.active_of_lit p (.inl (by simp [hstate])))

theorem stands_releaseReply {s : State} (hs : s.StandsWithoutShow) (q : Requester) (p : PbId) (slot time : Nat) (a : Bool) :
    (s.releaseReply q p slot time a).StandsWithoutShow :=
  stands_startFetch (hs.of_shown ((shown_answer _ _ _ _).trans (shown_setPb (by rfl)))) p

theorem releaseSlot_bank (s : State) (q : Requester) (p : PbId) (time : Nat) (a : Bool) (moves : List Move) :
    (s.releaseSlot q p time a moves).bank = s.bank := by
  unfold releaseSlot releaseReply
  dsimp only
  split_ifs <;> simp

/-- A playback that is not EMPTY fades out of a show; an EMPTY one makes no slot (R76). -/
theorem stands_releaseCommand {s : State} (hs : s.StandsWithoutShow) (q : Requester) (p : PbId) (time : Nat) (a : Bool) :
    (s.releaseCommand q p time a).StandsWithoutShow := by
  unfold releaseCommand
  split
  · exact stands_releaseReply (stands_endPending hs _ _) _ _ _ _ _
  · rename_i hstate
    dsimp only
    split
    · exact hs.of_shown (shown_answer _ _ _ _)
    · exact stands_of_active (by rw [releaseSlot_bank]; exact hs.active_of_lit p (.inl hstate))

theorem stands_backWork {s : State} (hs : s.StandsWithoutShow) (q : Requester) (p : PbId) : (s.backWork q p).StandsWithoutShow := by
  unfold backWork
  split
  · exact hs.of_shown (shown_answer _ _ _ _)
  · rename_i h
    exact (stands_backCommand hs h).of_shown (shown_answer _ _ _ _)

theorem stands_holdWork {s : State} (hs : s.StandsWithoutShow) (q : Requester) (p : PbId) : (s.holdWork q p).StandsWithoutShow := by
  unfold holdWork
  split
  · exact hs.of_shown (shown_answer _ _ _ _)
  · rename_i h
    exact (stands_holdCommand hs h).of_shown (shown_answer _ _ _ _)

theorem stands_resumeWork {s : State} (hs : s.StandsWithoutShow) (q : Requester) (p : PbId) :
    (s.resumeWork q p).StandsWithoutShow := by
  unfold resumeWork
  split
  · exact hs.of_shown (shown_answer _ _ _ _)
  · rename_i h
    exact (stands_resumeCommand hs h).of_shown (shown_answer _ _ _ _)

theorem stands_jumpWork {s : State} (hs : s.StandsWithoutShow) (q : Requester) (a : PbId × Nat) :
    (s.jumpWork q a).StandsWithoutShow := by
  have told {t : State} (ht : t.StandsWithoutShow) (st : Status) (b : List Byte) : (t.answer q st b).StandsWithoutShow :=
    ht.of_shown (shown_answer _ _ _ _)
  exact stands_ite (told hs _ _) (stands_ite (told hs _ _) (stands_ite (told hs _ _)
    (told (stands_startFetch (hs.of_shown (shown_setPb (by rfl))) _) _ _)))

theorem shown_countFollows (s : State) : s.countFollows.shown = s.shown := by
  unfold countFollows
  split_ifs
  · rfl
  · simp only [shown, pb, Four.get_map]
    rfl

theorem stands_expireFollow {s : State} (hs : s.StandsWithoutShow) (p : PbId) : (s.expireFollow p).StandsWithoutShow := by
  unfold expireFollow
  split
  · split_ifs
    · exact (stands_goCommand (hs.of_shown (shown_setPb (by rfl))) p .follow none false).of_shown (shown_settle _)
    · exact hs
  · exact hs

/-- Without a show no slot is there to advance (R94). -/
theorem stands_fadeStep {s : State} (hs : s.StandsWithoutShow) : s.fadeStep.StandsWithoutShow := by
  refine stands_ite hs (hs.of_dark ?_ fun _ hd => ?_)
  · rw [foldl_keeps (g := fun t => t.bank.active) (fun t n => by rw [advanceSlot_bank])]
  · rw [hd.1]; exact hs

/-! ### The Supervisor -/

theorem shown_tick (s : State) : s.tick.shown = s.shown := by
  unfold tick
  dsimp only
  split_ifs <;> rfl

/-- FREEZE holds only what plays a show (R180). -/
theorem stands_freeze {s : State} (hs : s.StandsWithoutShow) (p : PbId) : (s.freeze p).StandsWithoutShow := by
  unfold freeze
  split_ifs with h
  · refine stands_of_active ?_
    rw [enterHeld_bank]
    exact hs.active_of_lit p (.inl (by rcases h with h | ⟨h, -⟩ <;> simp [h]))
  · exact hs

theorem stands_applyLoss {s : State} (hs : s.StandsWithoutShow) : s.applyLoss.StandsWithoutShow := by
  have applied := hs.of_shown (t := { s with sup := { s.sup with loss := some s.sup.policy } }) rfl
  have frozen := applied.foldl (fun t p ht => stands_freeze ht p) four
  unfold applyLoss
  dsimp only
  generalize four.foldl freeze _ = u at frozen ⊢
  split
  · exact applied
  · exact frozen
  · exact frozen.of_shown rfl

theorem stands_goSilent {s : State} (hs : s.StandsWithoutShow) : s.goSilent.StandsWithoutShow := by
  have silent := hs.of_shown (t := { s with link := { s.link with silent := true, timer := false, silence := 0 } }) rfl
  have told (k : Nat) (b : List Byte) := silent.of_shown (shown_report _ k true b)
  exact stands_ite ((stands_applyLoss (told _ _)).of_shown (shown_pump _)) hs

theorem stands_takeFault {s : State} (hs : s.StandsWithoutShow) (f : EngineFault) : (s.takeFault f).StandsWithoutShow := by
  have halted {t : State} (ht : t.StandsWithoutShow) : t.enterHalted.StandsWithoutShow :=
    (ht.of_shown (t := { t with sup := { t.sup with halted := true } }) rfl).foldl (fun _ p hu => stands_endPending hu p _) _
  have told := hs.of_shown (shown_report s 0xE2 true (f.fields ++ bBool s.sup.record.isNone))
  unfold takeFault
  dsimp only
  generalize s.report 0xE2 true _ = u at told ⊢
  have recorded := told.of_shown (t := { u with sup := { u.sup with record := s.sup.record.or (some f) } }) rfl
  exact stands_ite ((halted recorded).of_shown (shown_report _ _ _ _)) recorded

theorem stands_takeRaised {s : State} (hs : s.StandsWithoutShow) (place : Nat) : (s.takeRaised place).StandsWithoutShow := by
  unfold takeRaised
  split_ifs
  · split
    · exact hs
    · exact (stands_takeFault (hs.of_shown (by rfl)) _).of_shown (shown_pump _)
  · exact hs

/-! ### The changeover -/

/-- The active bank after a commit is its target (R122). -/
theorem commit_bank (s : State) (c : Change) : (s.commit c).bank = { s.bank with active := some c.target, change := none } := by
  unfold commit
  dsimp only
  rw [foldl_keeps (g := State.bank) startFetch_bank, answerOwed_bank, showActive_bank, releaseParks_bank,
    foldl_keeps (g := State.bank) commitPlayback_bank, withdrawFetches_bank]

theorem stands_commit (s : State) (c : Change) : (s.commit c).StandsWithoutShow := stands_of_active (by rw [commit_bank]; simp)

theorem stands_darkCheck {s : State} (hs : s.StandsWithoutShow) (c : Change) : (s.darkCheck c).StandsWithoutShow :=
  stands_ite (stands_commit s c) hs

theorem stands_darkExpiry {s : State} (hs : s.StandsWithoutShow) : s.darkExpiry.StandsWithoutShow := by
  unfold darkExpiry
  split
  · exact hs
  · split_ifs
    · exact (stands_darkCheck (hs.of_shown (by rfl)) _).of_shown (shown_settle _)
    · exact hs

/-- A load step reads into the pending patch alone (R32, R118). -/
theorem loadInto_active {s : State} {b : Bank} {n : Nat} {u : PatchUnit} (h : s.loadInto b n = some u) :
    u.active = s.patch.active ∧ u.windows = s.patch.windows := by
  unfold loadInto at h
  split_ifs at h
  all_goals
    obtain ⟨x, -, rfl⟩ := Option.map_eq_some_iff.mp h
    exact ⟨rfl, rfl⟩

theorem stands_passLoad {s : State} (hs : s.StandsWithoutShow) (c : Change) {u : PatchUnit}
    (hu : u.active = s.patch.active ∧ u.windows = s.patch.windows) : (s.passLoad c u).StandsWithoutShow := by
  unfold passLoad
  dsimp only
  split_ifs
  · exact hs.of_shown (by simp only [shown, pb, hu])
  · exact stands_darkCheck (hs.of_shown (by simp only [shown, pb, hu])) _
  · exact stands_commit _ c

theorem stands_takeLoad {s : State} (hs : s.StandsWithoutShow) (b : Bank) (n : Nat) (passes : Bool) :
    (s.takeLoad b n passes).StandsWithoutShow := by
  have failed (c : Change) : (s.failLoad c).shown = s.shown := by
    unfold failLoad
    dsimp only
    split
    · exact (shown_answer _ _ _ _).trans rfl
    · exact (shown_raise _ _).trans rfl
  unfold takeLoad
  split
  · exact hs
  · split
    · exact stands_passLoad hs _ (loadInto_active ‹_›)
    · exact hs.of_shown (failed _)

theorem stands_loadDone {s : State} (hs : s.StandsWithoutShow) (a : StoreAnswer) : (s.loadDone a).StandsWithoutShow := by
  have freed : s.freePort.StandsWithoutShow := hs.of_shown rfl
  unfold loadDone
  split
  · exact hs
  · exact StandsWithoutShow.of_shown (stands_ite (stands_takeLoad freed _ _ _) freed) (shown_settle _)
  · exact hs

/-- A playback without a look is EMPTY after a RESTART (R85). -/
theorem stands_restartPlayback {s : State} (hs : s.StandsWithoutShow) (p : PbId) : (s.restartPlayback p).StandsWithoutShow := by
  have ended := stands_endPending hs p .cancelled
  unfold restartPlayback
  generalize s.endPending p .cancelled = t at ended
  refine ended.of_dark (by simp) fun hn hd => ended.of_shown ?_
  obtain ⟨hslots, -, -, hpb⟩ := hd
  obtain ⟨hstate, hlook, hback, -⟩ := hpb p
  have dropped : (t.dropSlots p).shown = t.shown := by simp [shown, pb, hslots, withoutSlotsOf]
  have same : (t.dropSlots p).pb p = t.pb p := rfl
  refine (shown_setPb ?_).trans dropped
  simp only [Playback.shown, same, hstate, hlook, hback]
  rfl

theorem stands_restartWork {s : State} (hs : s.StandsWithoutShow) (q : Requester) (a : Unit) :
    (s.restartWork q a).StandsWithoutShow := by
  have restarted (t : State) (ht : t.StandsWithoutShow) :
      (four.foldl (fun t p => (t.restartPlayback p).startFetch p) t).StandsWithoutShow :=
    ht.foldl (fun _ p hu => stands_startFetch (stands_restartPlayback hu p) p) _
  unfold restartWork
  dsimp only
  refine (restarted _ ?_).of_shown (shown_answer _ _ _ _)
  split
  · exact hs.of_shown ((shown_cancelChangeover _ _).trans rfl)
  · exact hs.of_shown rfl

/-! ### Fetch outcomes, notices, inputs and the role -/

theorem stands_fetchDone {s : State} (hs : s.StandsWithoutShow) (a : StoreAnswer) : (s.fetchDone a).StandsWithoutShow := by
  have freed : s.freePort.StandsWithoutShow := hs.of_shown rfl
  unfold fetchDone
  split
  · exact hs
  · exact StandsWithoutShow.of_shown (stands_ite (stands_takeOutcome freed _ _ _) freed) (shown_settle _)
  · exact hs

theorem stands_timeout {s : State} (hs : s.StandsWithoutShow) : s.timeout.StandsWithoutShow := by
  have raised (f : EngineFault) : (s.freePort.raise f).StandsWithoutShow := hs.of_shown ((shown_raise _ f).trans rfl)
  unfold timeout
  split
  · exact hs.of_shown ((shown_endStartUpRead _ _ _).trans (shown_handOver _ _))
  · exact StandsWithoutShow.of_shown (stands_ite (stands_takeOutcome (raised _) _ _ _) (raised _)) (shown_settle _)
  · exact StandsWithoutShow.of_shown (stands_ite (stands_takeLoad (raised _) _ _ _) (raised _)) (shown_settle _)
  · exact (raised _).of_shown ((shown_settle _).trans (shown_endHostRead _ _ _))
  · exact hs.of_shown ((shown_settle _).trans ((shown_failWrite _ _).trans rfl))
  · exact hs
  · exact hs

/-- Without a show a patch notice leaves the active patch alone (R31). -/
theorem stands_takePatchNotice {s : State} (hs : s.StandsWithoutShow) : s.takePatchNotice.StandsWithoutShow := by
  unfold takePatchNotice
  split
  · exact hs
  · rename_i n rest _
    have same : (({ s with patch := { s.patch with notices := rest } } : State).applyPatchNotice n).bank = s.bank := by
      cases n <;> rfl
    refine hs.of_dark (by rw [same]) fun hn _ => hs.of_shown ?_
    cases n <;> simp [applyPatchNotice, shown, pb, hn]

theorem stands_takeListNotice {s : State} (hs : s.StandsWithoutShow) : s.takeListNotice.StandsWithoutShow := by
  unfold takeListNotice
  split
  · exact hs
  · exact (stands_startFetch (hs.of_shown (by rfl)) _).of_shown (shown_settle _)

theorem stands_actOnInput {s : State} (hs : s.StandsWithoutShow) (i : Fin 4) : (s.actOnInput i).StandsWithoutShow := by
  have told {t : State} (ht : t.StandsWithoutShow) (p : PbId) (a : InputCommand) (r : InputResult) (cue : Nat) :
      (t.inputResult i p a r cue).StandsWithoutShow := ht.of_shown (shown_inputResult _ _ _ _ _ _)
  have commanded (p : PbId) (a : InputCommand) : (s.inputCommand i p a).StandsWithoutShow := by
    cases a with
    | go => exact stands_goCommand hs _ _ _ _
    | back =>
      simp only [inputCommand]
      split
      · exact told hs _ _ _ _
      · rename_i h; exact told (stands_backCommand hs h) _ _ _ _
    | hold =>
      simp only [inputCommand]
      split
      · exact told hs _ _ _ _
      · rename_i h; exact told (stands_holdCommand hs h) _ _ _ _
    | resume =>
      simp only [inputCommand]
      split
      · exact told hs _ _ _ _
      · rename_i h; exact told (stands_resumeCommand hs h) _ _ _ _
  unfold actOnInput
  refine stands_ite ?_ hs
  split
  · exact hs
  · exact stands_ite (told hs _ _ _ _) (commanded _ _)

theorem stands_debounce {s : State} (hs : s.StandsWithoutShow) (i : Fin 4) : (s.debounce i).StandsWithoutShow := by
  unfold debounce
  dsimp only
  split_ifs
  · exact hs
  · exact hs.of_shown rfl
  · exact (stands_actOnInput (hs.of_shown (by rfl)) i).of_shown (shown_settle _)

/-- A follower's Patch Unit, playbacks and slots stand at their reset values (R162). -/
theorem stands_becomeFollower (s : State) : s.becomeFollower.StandsWithoutShow := by
  refine StandsWithoutShow.of_shown (fun _ => ?_) (shown_settle _)
  exact standsWithoutShow_reset rfl

theorem stands_decideRole {s : State} (hs : s.StandsWithoutShow) (d : Bool) : (s.decideRole d).StandsWithoutShow :=
  stands_ite (stands_ite (stands_becomeFollower s) (hs.of_shown (shown_becomeLeader s))) hs

theorem stands_stageFrameIn {s : State} (hs : s.StandsWithoutShow) (f : StageFrame) : (s.stageFrameIn f).StandsWithoutShow := by
  cases hl : s.isLeader with
  | true => rw [stageFrameIn, if_pos hl]; exact hs
  | false => exact (stands_decideRole hs true).of_shown (shown_stageFrameIn f hl)

theorem stands_setupFrameIn {s : State} (hs : s.StandsWithoutShow) (f : SetupFrame) : (s.setupFrameIn f).StandsWithoutShow := by
  cases hl : s.isLeader with
  | true => rw [setupFrameIn, if_pos hl]; exact hs
  | false => exact (stands_decideRole hs true).of_shown (shown_setupFrameIn f hl)

theorem stands_countError {s : State} (hs : s.StandsWithoutShow) (i : CasInput) : (s.countError i).StandsWithoutShow := by
  rcases shown_countError s i with h | h
  · exact hs.of_shown h
  · exact (stands_decideRole hs true).of_shown h

end Sys2Proof.Machine.State

namespace Sys2Proof.Machine

/-! ### The source of a circuit's level -/

/-- The four indexes, cut at one of them. -/
theorem four_split (i : Fin 4) : four = four.take i.val ++ i :: four.drop (i.val + 1) := by
  fin_cases i <;> rfl

theorem lt_of_mem_take_four : ∀ {i j : Fin 4}, j ∈ four.take i.val → j < i := by decide

/-- The search of the four indexes finds the first that passes. -/
theorem find_four {P : Fin 4 → Bool} {g : Fin 4} (hg : P g = true) (hfirst : ∀ g' : Fin 4, g' < g → P g' = false) :
    four.find? P = some g :=
  List.find?_eq_some_iff_append.mpr
    ⟨hg, _, _, four_split g, fun j hj => by simp [hfirst j (lt_of_mem_take_four hj)]⟩

/-- The first index at which a search of the four finds something decides it. -/
theorem findSome_four {α : Type} {f : Fin 4 → Option α} {i : Fin 4} {x : α} (hi : f i = some x)
    (hbefore : ∀ j, j < i → f j = none) : four.findSome? f = some x :=
  List.findSome?_eq_some_iff.mpr ⟨_, i, _, four_split i, hi, fun _ hj => hbefore _ (lt_of_mem_take_four hj)⟩

section Circuits

variable {s : State} {k : Nat}

/-- A circuit that no house group lists is not reserved (R41). -/
theorem State.houseGroupOf_none (h : ∀ g : Fin 4, k ∉ (s.patch.groups.get g).members) : s.houseGroupOf k = none := by
  simpa [State.houseGroupOf, List.find?_eq_none] using fun g _ => h g

/-- A circuit is reserved to the first house group that lists it (R41). -/
theorem State.houseGroupOf_some {g : Fin 4} (hg : k ∈ (s.patch.groups.get g).members)
    (hfirst : ∀ g' : Fin 4, g' < g → k ∉ (s.patch.groups.get g').members) : s.houseGroupOf k = some g :=
  find_four (by simpa using hg) (by simpa using hfirst)

/-- The fader of a house group gives the level of its circuits, through its curve (R27). -/
theorem State.circuit_house {g : Fin 4} (h : s.houseGroupOf k = some g) : s.circuitSource k = .house g
    ∧ s.circuitLevel k = curveValue (s.curve (s.patch.groups.get g).curve) (s.patch.groups.get g).level := by
  unfold State.circuitSource State.circuitLevel
  rw [h]
  exact ⟨rfl, rfl⟩

/-- Else the active patch's entry gives it (R27). -/
theorem State.circuit_entry {e : PatchEntry} (h : s.houseGroupOf k = none) (he : Assoc.find s.patch.active k = some e) :
    s.circuitSource k = .entry e.channel
      ∧ s.circuitLevel k = curveValue (s.curve e.curve) (s.output e.channel * e.proportion / 100) := by
  unfold State.circuitSource State.circuitLevel
  rw [h, he]
  exact ⟨rfl, rfl⟩

/-- Else a window's channel gives it, on curve 0 (R27, R28). -/
theorem State.circuit_window {c : Nat} (h : s.houseGroupOf k = none) (he : Assoc.find s.patch.active k = none)
    (hw : s.patch.windows.channel k = some c) :
    s.circuitSource k = .window c ∧ s.circuitLevel k = curveValue (s.curve 0) (s.output c) := by
  unfold State.circuitSource State.circuitLevel
  rw [h, he, hw]
  exact ⟨rfl, rfl⟩

/-- Else the circuit stands at 0 (R27). -/
theorem State.circuit_none (h : s.houseGroupOf k = none) (he : Assoc.find s.patch.active k = none)
    (hw : s.patch.windows.channel k = none) : s.circuitSource k = .none ∧ s.circuitLevel k = 0 := by
  unfold State.circuitSource State.circuitLevel
  rw [h, he, hw]
  exact ⟨rfl, rfl⟩

end Circuits

end Sys2Proof.Machine

namespace Sys2Proof.Machine.State

/-! ### Every command keeps it so -/

/-- A command that runs outside the show keeps the invariant. -/
theorem runs_outside {c : Instr} {s t : State} (hx : exec c s = .next t) (h : t.shown = s.shown) :
    Runs c s (fun t => s.StandsWithoutShow → t.StandsWithoutShow) := ⟨t, hx, fun hs => hs.of_shown h⟩

/-- A request whose work keeps the invariant keeps it (R167). -/
theorem stands_takeRequest {β : Type} {s : State} (hs : s.StandsWithoutShow) {p : PortId} {code : Nat}
    {parse : List Byte → Except Status β} {work : State → Requester → β → State}
    (wk : ∀ u q v, u.StandsWithoutShow → (work u q v).StandsWithoutShow) :
    (s.takeRequest p code parse work).StandsWithoutShow :=
  takeRequest_keeps hs (fun _ _ _ => hs.of_shown (shown_takeOff _ _ _)) (fun _ _ _ _ h => h.of_shown (shown_answer _ _ _ _))
    (fun _ h => h.of_shown (shown_pump _)) wk

theorem stands_takeStoreRequest {β : Type} {s : State} (hs : s.StandsWithoutShow) {p : PortId} {code : Nat}
    {parse : List Byte → Except Status β} {work : State → Requester → β → State}
    (wk : ∀ u q v, u.StandsWithoutShow → (work u q v).StandsWithoutShow) :
    (s.takeStoreRequest p code parse work).StandsWithoutShow :=
  stands_takeRequest hs fun u q v h => (wk u q v h).of_shown (shown_arbitrate _)

/-- Every command keeps nothing lit while no bank is active (R29, R46, R115). -/
theorem exec_stands (c : Instr) (s : State) : Runs c s (fun t => s.StandsWithoutShow → t.StandsWithoutShow) := by
  cases c with
  | deviceReset m => exact ⟨_, rfl, fun _ => standsWithoutShow_reset⟩
  | roleDecided d => exact ⟨_, rfl, fun hs => stands_decideRole hs d⟩
  | startUpReadDone a => exact runs_outside rfl (shown_startUpDone s a)
  | startUpDecision => exact runs_outside rfl (shown_decideStartUp s)
  | showTimeTick => exact runs_outside rfl (shown_tick s)
  | frameReceived p kind tag body =>
    refine runs_outside rfl ?_
    split_ifs
    · exact shown_receive s p kind tag body
    · exact shown_setPort _ _ _
  | portFrameError p => exact runs_outside rfl (shown_setPort _ _ _)
  | portFrameGap p l => exact runs_outside rfl (shown_setPort _ _ _)
  | frameSent p => exact runs_outside rfl (shown_finishSending s p)
  | consoleSilent => exact ⟨_, rfl, stands_goSilent⟩
  | ping p => exact runs_outside rfl (shown_takeRequest fun _ _ _ => shown_answer _ _ _ _)
  | status p => exact runs_outside rfl (shown_takeRequest shown_statusWork)
  | levelsRead p => exact runs_outside rfl (shown_takeRequest shown_levelsReadWork)
  | circuitRead p => exact runs_outside rfl (shown_takeRequest fun _ _ _ => shown_answer _ _ _ _)
  | playbackRead p => exact runs_outside rfl (shown_takeRequest fun _ _ _ => shown_answer _ _ _ _)
  | rackRead p => exact runs_outside rfl (shown_takeRequest fun _ _ _ => shown_answer _ _ _ _)
  | stageRead p => exact runs_outside rfl (shown_takeRequest fun _ _ _ => shown_answer _ _ _ _)
  | cueRead p => exact runs_outside rfl (shown_takeStoreRequest shown_cueReadWork)
  | listRead p => exact runs_outside rfl (shown_takeRequest shown_listReadWork)
  | bankInfo p => exact runs_outside rfl (shown_takeRequest fun _ _ _ => shown_answer _ _ _ _)
  | patchRead p => exact runs_outside rfl (shown_takeStoreRequest shown_patchReadWork)
  | faultsRead p => exact runs_outside rfl (shown_takeRequest fun _ _ _ => shown_answer _ _ _ _)
  | faultRecordRead p => exact runs_outside rfl (shown_takeRequest fun _ _ _ => shown_answer _ _ _ _)
  | houseRead p => exact runs_outside rfl (shown_takeRequest fun _ _ _ => shown_answer _ _ _ _)
  | slotRead p => exact runs_outside rfl (shown_takeRequest shown_slotReadWork)
  | cueOpen p => exact runs_outside rfl (shown_takeRequest shown_cueOpenWork)
  | cueAdd p => exact runs_outside rfl (shown_takeRequest shown_cueAddWork)
  | cueClose p => exact runs_outside rfl (shown_takeStoreRequest shown_cueCloseWork)
  | cueAbandon p => exact runs_outside rfl (shown_takeRequest shown_cueAbandonWork)
  | cueDelete p => exact runs_outside rfl (shown_takeStoreRequest shown_cueDeleteWork)
  | patchSet p => exact runs_outside rfl (shown_takeStoreRequest fun _ _ _ => shown_acceptBankWrite _ _ _ _)
  | windowSet p => exact runs_outside rfl (shown_takeStoreRequest shown_windowSetWork)
  | bankTitle p => exact runs_outside rfl (shown_takeStoreRequest fun _ _ _ => shown_acceptBankWrite _ _ _ _)
  | record p => exact runs_outside rfl (shown_takeStoreRequest shown_recordWork)
  | go p => exact ⟨_, rfl, fun hs => stands_takeStoreRequest hs fun _ _ _ h => stands_goCommand h _ _ _ _⟩
  | back p => exact ⟨_, rfl, fun hs => stands_takeStoreRequest hs fun _ _ _ h => stands_backWork h _ _⟩
  | hold p => exact ⟨_, rfl, fun hs => stands_takeRequest hs fun _ _ _ h => stands_holdWork h _ _⟩
  | resume p => exact ⟨_, rfl, fun hs => stands_takeRequest hs fun _ _ _ h => stands_resumeWork h _ _⟩
  | jump p => exact ⟨_, rfl, fun hs => stands_takeStoreRequest hs fun _ _ _ h => stands_jumpWork h _ _⟩
  | release p => exact ⟨_, rfl, fun hs => stands_takeStoreRequest hs fun _ _ _ h => stands_releaseCommand h _ _ _ _⟩
  | master p => exact runs_outside rfl (shown_takeRequest shown_masterWork)
  | park p => exact runs_outside rfl (shown_takeRequest shown_parkWork)
  | unpark p => exact runs_outside rfl (shown_takeRequest shown_unparkWork)
  | faultClear p => exact runs_outside rfl (shown_takeRequest shown_faultClearWork)
  | faultAck p => exact runs_outside rfl (shown_takeRequest fun _ _ _ => (shown_answer _ _ _ _).trans rfl)
  | changeover p => exact runs_outside rfl (shown_takeStoreRequest shown_changeoverWork)
  | changeoverCancel p => exact runs_outside rfl (shown_takeRequest shown_changeoverCancelWork)
  | bankErase p => exact runs_outside rfl (shown_takeStoreRequest shown_bankEraseWork)
  | houseSet p => exact runs_outside rfl (shown_takeStoreRequest fun _ _ _ => shown_acceptWrite _ _ _ _ _)
  | curveSet p => exact runs_outside rfl (shown_takeStoreRequest fun _ _ _ => shown_acceptWrite _ _ _ _ _)
  | houseCircuitsSet p => exact runs_outside rfl (shown_takeStoreRequest fun _ _ _ => shown_acceptWrite _ _ _ _ _)
  | safeLookSet p => exact runs_outside rfl (shown_takeStoreRequest fun _ _ _ => shown_acceptWrite _ _ _ _ _)
  | lineSet p => exact runs_outside rfl (shown_takeStoreRequest fun _ _ _ => shown_acceptWrite _ _ _ _ _)
  | inputSet p => exact runs_outside rfl (shown_takeStoreRequest fun _ _ _ => shown_acceptWrite _ _ _ _ _)
  | houseFade p => exact runs_outside rfl (shown_takeRequest fun _ _ _ => (shown_answer _ _ _ _).trans rfl)
  | blackout p => exact runs_outside rfl (shown_takeRequest fun _ _ _ => (shown_answer _ _ _ _).trans rfl)
  | lineHold p => exact runs_outside rfl (shown_takeRequest shown_lineHoldWork)
  | accessSet p => exact runs_outside rfl (shown_takeRequest fun _ _ _ => (shown_answer _ _ _ _).trans rfl)
  | lossClear p => exact runs_outside rfl (shown_takeRequest fun _ _ _ => (shown_answer _ _ _ _).trans rfl)
  | restart p => exact ⟨_, rfl, fun hs => stands_takeStoreRequest hs fun _ _ _ h => stands_restartWork h _ _⟩
  | unknownKindRequest p => exact runs_outside rfl (shown_takeUnknown s p)
  | fetchDone a => exact ⟨_, rfl, fun hs => stands_fetchDone hs a⟩
  | loadStepDone a => exact ⟨_, rfl, fun hs => stands_loadDone hs a⟩
  | hostReadDone a => exact runs_outside rfl (shown_hostReadDone s a)
  | writeStepDone a => exact runs_outside rfl (shown_writeDone s a)
  | storeTimeout => exact ⟨_, rfl, stands_timeout⟩
  | patchNotice => exact ⟨_, rfl, stands_takePatchNotice⟩
  | listNotice => exact ⟨_, rfl, stands_takeListNotice⟩
  | fadeStep => exact ⟨_, rfl, fun hs => (stands_fadeStep hs).of_shown (shown_pump _)⟩
  | followTimerCount => exact runs_outside rfl (shown_countFollows s)
  | followExpiry n =>
    cases h : idx4 n with
    | none => exact runs_outside (by simp only [exec, execFollowExpiry, h]) rfl
    | some p => exact ⟨_, by simp only [exec, execFollowExpiry, h], fun hs => stands_expireFollow hs p⟩
  | houseFadeStep => exact runs_outside rfl rfl
  | darkCheck => exact ⟨_, rfl, stands_darkExpiry⟩
  | blendStep => exact runs_outside rfl (by split_ifs <;> rfl)
  | followerBlendStep => exact runs_outside rfl (by split_ifs <;> rfl)
  | lineClockExpiry n =>
    cases h : line? n with
    | none => exact runs_outside (by simp only [exec, execLineClockExpiry, h]) rfl
    | some l => exact runs_outside (by simp only [exec, execLineClockExpiry, h]) (shown_lineExpiry s l)
  | returnFrame n clean b =>
    cases h : line? n with
    | none => exact runs_outside (by simp only [exec, execReturnFrame, h]) rfl
    | some l => exact runs_outside (by simp only [exec, execReturnFrame, h]) (shown_takeReturn s l clean b)
  | contactChange n closed =>
    cases h : idx4 n with
    | none => exact runs_outside (by simp only [exec, execContactChange, h]) rfl
    | some i =>
      refine runs_outside (t := s.changeContact i closed) (by simp only [exec, execContactChange, h]) ?_
      unfold changeContact
      dsimp only
      split_ifs <;> rfl
  | debounceExpiry n =>
    cases h : idx4 n with
    | none => exact runs_outside (by simp only [exec, execDebounceExpiry, h]) rfl
    | some i => exact ⟨_, by simp only [exec, execDebounceExpiry, h], fun hs => stands_debounce hs i⟩
  | cascadeFrameExpiry => exact runs_outside rfl (shown_cascadeExpiry s)
  | stageFrame f => exact ⟨_, rfl, fun hs => stands_ite (stands_stageFrameIn hs f) (stands_countError hs .din)⟩
  | setupFrame f => exact ⟨_, rfl, fun hs => stands_ite (stands_setupFrameIn hs f) (stands_countError hs .din)⟩
  | cascadeFrameError i => exact ⟨_, rfl, fun hs => stands_countError hs i⟩
  | cascadeByteGap i => exact ⟨_, rfl, fun hs => stands_countError hs i⟩
  | leaderLost => exact runs_outside rfl (by unfold loseLeader; split_ifs <;> rfl)
  | upFrameSend => exact runs_outside rfl (by unfold sendUp; split <;> rfl)
  | upFrame f =>
    exact ⟨_, rfl, fun hs => stands_ite (hs.of_shown (shown_upFrameIn s f)) (stands_countError hs .uin)⟩
  | stageLost n =>
    cases h : stage? n with
    | none => exact runs_outside (by simp only [exec, execStageLost, h]) rfl
    | some k => exact runs_outside (by simp only [exec, execStageLost, h]) (shown_loseStage s k)
  | orphanWatchExpiry => exact runs_outside rfl rfl
  | engineFault n => exact ⟨_, rfl, fun hs => stands_takeRaised hs n⟩
  | syncAfterBytesPassedOver p => exact runs_outside rfl (shown_setPort _ _ _)

end Sys2Proof.Machine.State

namespace Sys2Proof.Machine

/-- Settles O58: `exec_stands` carries the invariant over every command; a circuit without a group then has no source. -/
theorem nothingIsLitWithoutAShow : Obligations.NothingIsLitWithoutAShow := by
  refine ⟨fun s t => step_keeps (fun _ _ hs => hs.of_shown rfl) State.exec_stands, fun s k hs hn hg => ?_⟩
  obtain ⟨-, hactive, hwindows, -⟩ := hs hn
  have unpatched : Assoc.find s.patch.active k = none := by rw [hactive]; rfl
  have uncovered : s.patch.windows.channel k = none := by rw [hwindows]; rfl
  exact (State.circuit_none (State.houseGroupOf_none hg) unpatched uncovered).2

end Sys2Proof.Machine

/-! The channel outputs and the circuit levels (R27, R28, R37, R38, R105, R106). -/

namespace Sys2Proof.Machine

namespace State

section Output

variable {s : State} {c : Nat}

theorem parkOf_none (h : ∀ x ∈ s.merge.parks, x.channel ≠ c) : s.parkOf c = none :=
  List.find?_eq_none.mpr fun x hx => by simpa using h x hx

/-- A park holds its channel at its level (R105). -/
theorem output_parked {x : Park} (h : s.parkOf c = some x) : s.output c = x.level := by
  unfold output
  rw [h]

/-- A channel that is not parked is dark in blackout, else merged and scaled by the grand master (R105). -/
theorem output_unparked (h : s.parkOf c = none) :
    s.output c = if s.merge.blackout then 0 else s.merged c * s.merge.grand / 1000 := by
  unfold output
  rw [h]

/-- The merged level bounds each playback's scaled level, and is one of them (R105). -/
theorem scaled_le_merged (s : State) (c : Nat) (p : PbId) : s.scaled p c ≤ s.merged c := by
  unfold merged
  fin_cases p <;> simp

theorem exists_merged (s : State) (c : Nat) : ∃ p, s.merged c = s.scaled p c := by
  unfold merged
  rcases max_choice (max (s.scaled 0 c) (s.scaled 1 c)) (max (s.scaled 2 c) (s.scaled 3 c)) with h | h <;> rw [h]
  · rcases max_choice (s.scaled 0 c) (s.scaled 1 c) with h | h <;> exact ⟨_, h⟩
  · rcases max_choice (s.scaled 2 c) (s.scaled 3 c) with h | h <;> exact ⟨_, h⟩

/-- A level scaled by a master is no level above 1000 (R106). -/
theorem scale_le {level master : Nat} (hl : level ≤ 1000) (hm : master ≤ 1000) :
    level * master ≤ 1000000 ∧ level * master / 1000 ≤ 1000 := by
  have product : level * master ≤ 1000 * 1000 := Nat.mul_le_mul hl hm
  omega

/-- Without looks nothing is merged (R105). -/
theorem merged_dark (h : ∀ p, (s.pb p).look = []) : s.merged c = 0 := by
  obtain ⟨p, hp⟩ := exists_merged s c
  have unlit : (s.pb p).look.level c = 0 := by rw [h p]; rfl
  rw [hp, scaled, unlit, Nat.zero_mul, Nat.zero_div]

/-- The output lies in 0 to 1000 wherever looks, masters and parks do (R106). -/
theorem output_le (hp : ∀ p, (s.pb p).look.level c ≤ 1000 ∧ (s.pb p).master ≤ 1000) (hg : s.merge.grand ≤ 1000)
    (hk : ∀ x ∈ s.merge.parks, x.level ≤ 1000) :
    s.output c ≤ 1000 ∧ s.merged c ≤ 1000 ∧ s.merged c * s.merge.grand ≤ 1000000 := by
  have merged : s.merged c ≤ 1000 := by
    obtain ⟨p, h⟩ := exists_merged s c
    rw [h]
    exact (scale_le (hp p).1 (hp p).2).2
  refine ⟨?_, merged, (scale_le merged hg).1⟩
  cases hpark : s.parkOf c with
  | some x => exact (output_parked hpark).trans_le (hk x (List.mem_of_find?_eq_some hpark))
  | none =>
    rw [output_unparked hpark]
    split_ifs
    · exact Nat.zero_le _
    · exact (scale_le merged hg).2

/-- The output depends on the Merge Unit, the looks and the masters alone (R105). -/
theorem output_congr {t : State} (hm : t.merge = s.merge)
    (hp : ∀ p, (t.pb p).look = (s.pb p).look ∧ (t.pb p).master = (s.pb p).master) : t.output c = s.output c := by
  have scaled (p : PbId) : t.scaled p c = s.scaled p c := by unfold State.scaled; rw [(hp p).1, (hp p).2]
  simp only [output, merged, parkOf, scaled, hm]

end Output

end State

/-! ### Windows and curves -/

/-- The windows item covers a circuit with the first present window whose range holds it (R28). -/
theorem Windows.covering_eq (w : Windows) (k : Nat) :
    w.covering k = four.findSome? fun i => (w.get i).filter fun x => x.first ≤ k ∧ k ≤ x.last := by
  have indexed : w.toList = four.map w.get := rfl
  unfold Windows.covering
  rw [indexed, List.findSome?_map]
  refine congrArg (four.findSome? ·) (funext fun i => ?_)
  dsimp only [Function.comp]
  cases w.get i <;> simp [Option.filter]

/-- A circuit in one window's range alone takes that window's channel, up to channel 1536 (R28). -/
theorem Windows.channel_covered {w : Windows} {i : Fin 4} {x : Window} {k : Nat} (hi : w.get i = some x)
    (hk : x.first ≤ k ∧ k ≤ x.last) (hone : ∀ j y, w.get j = some y → y.first ≤ k → k ≤ y.last → j = i) :
    w.channel k = if x.channel + (k - x.first) ≤ 1536 then some (x.channel + (k - x.first)) else none := by
  have covered : w.covering k = some x := by
    rw [Windows.covering_eq]
    refine findSome_four (i := i) (by simp [hi, Option.filter, hk]) fun j hj => ?_
    cases hw : w.get j with
    | none => rfl
    | some y =>
      have missed : ¬ (y.first ≤ k ∧ k ≤ y.last) := fun h => hj.ne (hone j y hw h.1 h.2)
      simp [Option.filter, missed]
  unfold Windows.channel
  rw [covered]
  rfl

/-- A circuit in no window's range takes no channel (R28). -/
theorem Windows.channel_uncovered {w : Windows} {k : Nat} (h : ∀ i x, w.get i = some x → ¬ (x.first ≤ k ∧ k ≤ x.last)) :
    w.channel k = none := by
  have uncovered : w.covering k = none := by
    rw [Windows.covering_eq]
    refine List.findSome?_eq_none_iff.mpr fun i _ => ?_
    cases hw : w.get i with
    | none => rfl
    | some x => simp [Option.filter, h i x hw]
  unfold Windows.channel
  rw [uncovered]

/-- Below 1000 a curve runs straight from one of its points to the next (R38). -/
theorem curveValue_between {points : List Nat} {x : Nat} (hx : x < 1000) :
    curveValue points x = points.getD (x / 50) 0
      + (points.getD (x / 50 + 1) 0 - points.getD (x / 50) 0) * (x % 50) / 50 := if_pos hx

theorem curveValue_top {points : List Nat} {x : Nat} (hx : 1000 ≤ x) : curveValue points x = points.getD 20 0 :=
  if_neg (Nat.not_lt.mpr hx)

/-- Between two points that do not fall, the curve lies between them (R38). -/
theorem curveValue_mem {points : List Nat} {x : Nat} (hx : x < 1000)
    (h : points.getD (x / 50) 0 ≤ points.getD (x / 50 + 1) 0) :
    points.getD (x / 50) 0 ≤ curveValue points x ∧ curveValue points x ≤ points.getD (x / 50 + 1) 0 := by
  rw [curveValue_between hx]
  generalize points.getD (x / 50) 0 = a, points.getD (x / 50 + 1) 0 = b at h ⊢
  have share : (b - a) * (x % 50) / 50 ≤ b - a :=
    Nat.div_le_of_le_mul (by rw [Nat.mul_comm 50]; exact Nat.mul_le_mul_left _ (Nat.mod_lt x (by decide)).le)
  omega

theorem State.curve_zero (s : State) {i : Nat} (hi : i ≤ 20) : (s.curve 0).getD i 0 = i * 65535 / 20 := by
  have point : i < (List.range 21).length := by rw [List.length_range]; omega
  simp [State.curve, linearPoints, List.getD_eq_getElem?_getD, List.getElem?_map, List.getElem?_range (show i < 21 by omega)]

theorem State.curve_table (s : State) {u : Nat} (h1 : 1 ≤ u) (hu : u ≤ s.patch.curves.length) :
    s.curve u = s.patch.curves.getD (u - 1) [] := by
  have inside : u - 1 < s.patch.curves.length := by omega
  unfold State.curve
  rw [if_neg (by omega), List.getD_eq_getElem _ _ inside, List.getD_eq_getElem _ _ inside]

/-- Settles O38: the output by its three cases, the circuit level by its four sources, windows and curves by their lemmas. -/
theorem outputsAndCircuitLevels : Obligations.OutputsAndCircuitLevels := by
  refine ⟨fun s c => ⟨fun x h => State.output_parked h, fun hp hb => ?_, fun hp hb => ?_, fun hp hl => ?_, fun hp hg hk => ?_,
    fun t hm hp => State.output_congr hm hp⟩, fun s k => ⟨fun g hg hfirst => ?_, fun hg => ?_⟩, ?_, ?_, ?_, ?_, ?_⟩
  · rw [State.output_unparked (State.parkOf_none hp), if_pos hb]
  · refine ⟨?_, State.scaled_le_merged s c, State.exists_merged s c⟩
    rw [State.output_unparked (State.parkOf_none hp), if_neg (by simp [hb])]
  · rw [State.output_unparked (State.parkOf_none hp), State.merged_dark hl, Nat.zero_mul, Nat.zero_div, ite_self]
  · obtain ⟨output, merged, scaled⟩ := State.output_le hp hg hk
    exact ⟨output, merged, scaled, fun p => (State.scale_le (hp p).1 (hp p).2).1⟩
  · exact State.circuit_house (State.houseGroupOf_some hg hfirst)
  · have free := State.houseGroupOf_none hg
    exact ⟨fun e => State.circuit_entry free, fun c => State.circuit_window free, State.circuit_none free⟩
  · exact fun w i x k hi hfirst hlast => Windows.channel_covered hi ⟨hfirst, hlast⟩
  · exact fun w k => Windows.channel_uncovered
  · exact fun points x => ⟨curveValue_between, curveValue_top, curveValue_mem⟩
  · exact fun s i => s.curve_zero
  · exact fun s u => s.curve_table

end Sys2Proof.Machine

/-! The timers that count by themselves: show time, blend, house faders (R45, R156, R175, R182, R184). -/

namespace Sys2Proof.Machine

/-- One tick of the show time, and of a silence (R175, R184; log 36). -/
theorem State.tick_eq (s : State) : s.tick =
    { s with
      sup := { s.sup with showTime := (s.sup.showTime + 1) % 4294967296 },
      link := if s.link.silent then { s.link with silence := min (s.link.silence + 1) 4294967295 } else s.link } := by
  unfold State.tick
  dsimp only
  split_ifs <;> rfl

/-- A safe-fade time of 0 blends at once (R182). -/
theorem moveBlend_zero (blend target : Nat) : moveBlend 0 blend target = target := rfl

/-- One blend step goes up by the step and stops at the target, or down (R182). -/
theorem moveBlend_step {safeFade : Nat} (h : 0 < safeFade) (blend target : Nat) :
    let step := (1000 + (safeFade * 10 - 1)) / (safeFade * 10)
    (blend ≤ target → moveBlend safeFade blend target = min target (blend + step))
    ∧ (target ≤ blend → moveBlend safeFade blend target = max target (blend - step)) := by
  intro step
  have rounded : (1000 + safeFade * 10 - 1) / (safeFade * 10) = step := by
    rw [Nat.add_sub_assoc (by omega)]
  unfold moveBlend
  dsimp only
  rw [if_neg (by omega), rounded]
  clear_value step
  constructor <;> intro hle <;> split_ifs <;> omega

/-- A fader with steps remaining moves by its share of the difference, truncated toward zero (R45). -/
theorem HouseGroup.step_level {g : HouseGroup} (h : 0 < g.steps) :
    (g.step.level : Int) = g.level + ((g.target : Int) - g.level).tdiv g.steps := by
  unfold HouseGroup.step
  rw [if_neg (by omega)]
  split_ifs with hle
  · rw [← Nat.cast_sub hle, ← Int.ofNat_tdiv, ← Nat.cast_add]
  · have falls : (g.level - g.target) / g.steps ≤ g.level := (Nat.div_le_self _ _).trans (Nat.sub_le _ _)
    have down : (g.target : Int) - g.level = -((g.level - g.target : Nat) : Int) := by omega
    rw [down, Int.neg_tdiv, ← Int.ofNat_tdiv]
    exact Nat.cast_sub falls

theorem HouseGroup.step_idle {g : HouseGroup} (h : g.steps = 0) : g.step = g := if_pos h

theorem HouseGroup.step_eq {g : HouseGroup} (h : 0 < g.steps) : g.step = { g with level := g.step.level, steps := g.steps - 1 } := by
  unfold HouseGroup.step
  rw [if_neg (by omega)]
  split_ifs <;> rfl

/-- The last step reaches the target (R45). -/
theorem HouseGroup.step_last {g : HouseGroup} (h : g.steps = 1) : g.step.level = g.target := by
  have reached := HouseGroup.step_level (g := g) (by omega)
  rw [h, Nat.cast_one, Int.tdiv_one] at reached
  omega

/-- A blend step of the part's own timer (R156, R182). -/
theorem State.exec_blend {s : State} {c : Instr}
    (h : c = .blendStep ∧ s.isFollower = false ∨ c = .followerBlendStep ∧ s.isFollower = true) :
    exec c s = .next s.stepBlend := by
  rcases h with ⟨rfl, hf⟩ | ⟨rfl, hf⟩ <;> simp [exec, execBlendStep, execFollowerBlendStep, hf]

/-- Settles O6: the tick, the blend and the house faders, each by the equation of its step. -/
theorem timersStep : Obligations.TimersStep := by
  refine ⟨fun s => congrArg Host.Outcome.next s.tick_eq, fun s => ⟨fun c hc => ?_, fun hf => ?_, fun hf => ?_, ?_⟩⟩
  · refine ⟨_, State.exec_blend hc, rfl, fun hz => ?_, fun hp => moveBlend_step hp _ _⟩
    show moveBlend s.outp.safeFade _ _ = _
    rw [hz, moveBlend_zero]
  · simp [exec, execBlendStep, hf]
  · simp [exec, execFollowerBlendStep, hf]
  · refine ⟨_, rfl, rfl, fun g => ?_⟩
    have stepped : s.stepHouse.patch.groups.get g = (s.patch.groups.get g).step := Four.get_map _ _ _
    rw [stepped]
    exact ⟨HouseGroup.step_idle, HouseGroup.step_eq, HouseGroup.step_level, HouseGroup.step_last⟩

end Sys2Proof.Machine

/-! The controls: MASTER, HOUSE_FADE, BLACKOUT, LINE_HOLD, ACCESS_SET, LOSS_CLEAR (R44, R78, R108, R137, R171, R181). -/

namespace Sys2Proof.Machine

/-! ### The checks of a body of one size -/

section Sized

variable {α : Type} {n : Nat} {b : List Byte} {value : Option α}

theorem sized_length (h : b.length ≠ n) : sized n b value = .error .badLength := if_pos h

theorem sized_none (h : b.length = n) (hv : value = none) : sized n b value = .error .badValue := by
  rw [hv]; exact if_neg (not_not_intro h)

theorem sized_some {v : α} (h : b.length = n) (hv : value = some v) : sized n b value = .ok v := by
  rw [hv]; exact if_neg (not_not_intro h)

end Sized

/-- A byte at the front of a body reads as itself. -/
theorem byteAt_byte {n : Nat} (h : n ≤ 255) (l : List Byte) : byteAt (byte n :: l) 0 = n := by
  rw [byteAt_cons_zero, toNat_byte, Nat.mod_eq_of_lt (by omega)]

/-- A playback or house fader at the front of a body reads as itself. -/
theorem idx4_byteAt (g : Fin 4) (l : List Byte) : idx4 (byteAt (byte (num g) :: l) 0) = some g := by
  rw [byteAt_byte (by simp only [num]; omega), idx4_num]

theorem idx4_none {n : Nat} (h : n < 1 ∨ 4 < n) : idx4 n = none := dif_neg (by omega)

theorem okOr_decide (c : Prop) [Decidable c] : okOr (decide c) = if c then .adjusted else .ok := by
  simp [okOr]

/-! ### The bodies of the controls -/

theorem parseMaster_eq {target level : Nat} (ht : target ≤ 4) (hl : level ≤ 65535) :
    parseMaster (b1 target ++ b2 level) = .ok (target, min level 1000, decide (1000 < level)) := by
  have hbyte : byteAt (b1 target ++ b2 level) 0 = target := byteAt_byte (by omega) (b2 level)
  have hword : wordAt (b1 target ++ b2 level) 1 = level := wordAt_byte (by omega) []
  exact sized_some rfl (by rw [hbyte, hword, if_pos ht, capped_eq])

theorem parseMaster_far {target level : Nat} (h : 4 < target) (ht : target ≤ 255) :
    parseMaster (b1 target ++ b2 level) = .error .badValue := by
  have hbyte : byteAt (b1 target ++ b2 level) 0 = target := byteAt_byte ht (b2 level)
  exact sized_none rfl (by rw [hbyte, if_neg (by omega)])

theorem parseHouseFade_eq (g : Fin 4) {level time : Nat} (hl : level ≤ 65535) (ht : time ≤ 65535) :
    parseHouseFade (b1 (num g) ++ b2 level ++ b2 time)
      = .ok (g, min level 1000, min time 6000, decide (1000 < level ∨ 6000 < time)) := by
  have hgroup : idx4 (byteAt (b1 (num g) ++ b2 level ++ b2 time) 0) = some g := idx4_byteAt g _
  have hlevel : wordAt (b1 (num g) ++ b2 level ++ b2 time) 1 = level := wordAt_byte (by omega) (b2 time)
  have htime : wordAt (b1 (num g) ++ b2 level ++ b2 time) 3 = time := wordAt_byte (by omega) []
  exact sized_some rfl (by rw [hgroup, hlevel, htime, capped_eq, capped_eq, Option.map_some, Bool.decide_or])

theorem parseHouseFade_far {b : List Byte} (hl : b.length = 5) (hg : byteAt b 0 < 1 ∨ 4 < byteAt b 0) :
    parseHouseFade b = .error .badValue := sized_none hl (by rw [idx4_none hg]; rfl)

theorem parseBlackout_eq (on : Bool) : parseBlackout (bBool on) = .ok on := by cases on <;> rfl

theorem parseBlackout_far {b : List Byte} (hl : b.length = 1) (h : 1 < byteAt b 0) :
    parseBlackout b = .error .badValue := sized_none hl (if_neg (by omega))

theorem byteAt_bBool (on : Bool) : byteAt (bBool on) 0 = if on then 1 else 0 := by cases on <;> rfl

theorem parseLineHold_eq {n : Nat} (on : Bool) (h : n ≤ 6) : parseLineHold (b1 n ++ bBool on) = .ok (n, on) := by
  have hline : byteAt (b1 n ++ bBool on) 0 = n := byteAt_byte (by omega) _
  have hhold : byteAt (b1 n ++ bBool on) 1 = if on then 1 else 0 := byteAt_bBool on
  exact sized_some rfl (by rw [hline, hhold]; cases on <;> simp [h])

theorem parseLineHold_far {b : List Byte} (hl : b.length = 2) (h : 6 < byteAt b 0 ∨ 1 < byteAt b 1) :
    parseLineHold b = .error .badValue := sized_none hl (if_neg (by omega))

theorem parseAccessSet_eq {n : Nat} (h : n ≤ 31) : parseAccessSet (b1 n) = .ok (Mask.ofNat n) := by
  have hbyte : byteAt (b1 n) 0 = n := byteAt_byte (by omega) []
  exact sized_some rfl (by rw [hbyte, if_pos h])

theorem parseAccessSet_far {n : Nat} (h : 31 < n) (hn : n ≤ 255) : parseAccessSet (b1 n) = .error .badValue := by
  have hbyte : byteAt (b1 n) 0 = n := byteAt_byte hn []
  exact sized_none rfl (by rw [hbyte, if_neg (by omega)])

/-! ### The mask and the hold flags as numbers -/

theorem Mask.toNat_ofNat {n : Nat} (h : n ≤ 31) : (Mask.ofNat n).toNat = n := by
  interval_cases n <;> rfl

/-- The number that bits name, the first of them in the least significant place (R114, R137). -/
def bitsValue (l : List Bool) : Nat := l.foldr (fun x n => 2 * n + (if x then 1 else 0)) 0

theorem bitsValue_cons (x : Bool) (l : List Bool) : bitsValue (x :: l) = 2 * bitsValue l + (if x then 1 else 0) := rfl

theorem bitsValue_lt (l : List Bool) : bitsValue l < 2 ^ l.length := by
  induction l with
  | nil => exact Nat.one_pos
  | cons x rest ih =>
    rw [bitsValue_cons, List.length_cons, Nat.pow_succ]
    split <;> omega

theorem bitsValue_testBit (l : List Bool) (i : Nat) : (bitsValue l).testBit i = l.getD i false := by
  induction l generalizing i with
  | nil => exact Nat.zero_testBit i
  | cons x rest ih =>
    rw [bitsValue_cons]
    cases i with
    | zero => rw [Nat.testBit_zero]; cases x <;> simp
    | succ i =>
      have half : (2 * bitsValue rest + if x then 1 else 0) / 2 = bitsValue rest := by split <;> omega
      rw [Nat.testBit_succ, half, ih, List.getD_cons_succ]

namespace State

theorem holdFlags_eq (s : State) :
    s.holdFlags = bitsValue (s.outp.lines.toList.map Line.hold) := rfl

theorem holdFlags_lt (s : State) : s.holdFlags < 64 := by
  rw [holdFlags_eq]; exact bitsValue_lt _

theorem holdFlags_testBit (s : State) (l : Fin 6) : s.holdFlags.testBit l.val = (s.line l).hold := by
  rw [holdFlags_eq, bitsValue_testBit]
  fin_cases l <;> rfl

/-! ### The work of the controls -/

theorem setMaster_grand (s : State) (level : Nat) :
    s.setMaster 0 level = { s with merge := { s.merge with grand := level } } := rfl

theorem setMaster_playback (s : State) (q : PbId) (level : Nat) :
    s.setMaster (num q) level = s.setPb q { s.pb q with master := level } := by
  unfold setMaster; rw [idx4_num]

/-- The lines, or the one line, that a LINE_HOLD names (R137). -/
def held (s : State) (n : Nat) (on : Bool) : State :=
  match line? n with
  | some l => s.setLine l { s.line l with hold := on }
  | none => { s with outp := { s.outp with lines := s.outp.lines.map (fun x : Line => { x with hold := on }) } }

theorem lineHoldWork_eq (s : State) (q : Requester) (n : Nat) (on : Bool) :
    s.lineHoldWork q (n, on) = (s.held n on).answer q .ok (b1 n ++ b1 s.holdFlags ++ b1 (s.held n on).holdFlags) := by
  unfold lineHoldWork held; rfl

theorem held_all (s : State) (on : Bool) : s.held 0 on
    = { s with outp := { s.outp with lines := s.outp.lines.map (fun x : Line => { x with hold := on }) } } := rfl

theorem held_line (s : State) (l : Fin 6) (on : Bool) :
    s.held (l.val + 1) on = s.setLine l { s.line l with hold := on } := by
  unfold held; rw [line?_succ]

theorem held_parts (s : State) (n : Nat) (on : Bool) :
    s.held n on = { s with outp := { s.outp with lines := (s.held n on).outp.lines } } := by
  unfold held; split <;> rfl

theorem held_takeOff (s : State) (p : PortId) (rest : List Request) (n : Nat) (on : Bool) :
    (s.takeOff p rest).held n on = (s.held n on).takeOff p rest := by
  unfold held; cases p <;> split <;> rfl

theorem holdFlags_takeOff (s : State) (p : PortId) (rest : List Request) :
    (s.takeOff p rest).holdFlags = s.holdFlags := by cases p <;> rfl

/-- The console may make every kind, of a part that is no follower (checks 1 and 2 of R169). -/
theorem mayUse_console {s : State} (h : s.isFollower = false) (g : Group) : s.MayUse .console g := ⟨.inl rfl, h⟩

section Controls

variable {β : Type} {c : Instr} {s u : State} {p : PortId} {code : Nat} {r : Request} {rest : List Request}
  {parse : List Byte → Except Status β} {work : State → Requester → β → State} {v : β} {st : Status} {fields : List Byte}

/-- A request whose work changes neither a port nor a report, and answers: the change may be made before the request is
taken off (R168). -/
theorem does_change (hx : exec c s = .next (s.takeRequest p code parse work)) (hc : code < 256)
    (ht : s.Takes p code r rest) (hp : parse r.body = .ok v)
    (hw : work (s.takeOff p rest) (requesterOf p r) v = (u.takeOff p rest).answer (requesterOf p r) st fields)
    (hports : ∀ x, u.port x = s.port x) (hreports : u.link.reports = s.link.reports) (hlost : u.link.lost = s.link.lost) :
    Does c s p r rest st fields u := by
  refine ⟨_, by rw [hx, takeRequest_takes hc ht hp, hw], answered_of s _ p r rest st fields ?_ ?_,
    keepsReports_pump s _ ?_ ?_, ?_⟩
  · rw [(takeOff_port u p rest).1, (takeOff_port s p rest).1, hports]
  · rw [(takeOff_port u p rest).2, hports]
  · rw [answer_link, takeOff_link, hreports]
  · rw [answer_link, takeOff_link, hlost]
  · rw [inside_pump, inside_answer, inside_takeOff]

/-- MASTER past its general checks (R78). -/
theorem master_takes (hd : s.Head p 0x36 r rest) (hu : s.MayUse p .playback) : s.Takes p 0x36 r rest :=
  takes_always hd hu rfl (mustWait_free s rfl rfl)

/-- MASTER sets the grand master (R78). -/
theorem master_grand (hd : s.Head p 0x36 r rest) (hu : s.MayUse p .playback) {level : Nat}
    (hb : r.body = b1 0 ++ b2 level) (hl : level ≤ 65535) :
    Does (.master p) s p r rest (if 1000 < level then .adjusted else .ok) (b1 0 ++ b2 (min level 1000))
      { s with merge := { s.merge with grand := min level 1000 } } := by
  have hp : parseMaster r.body = _ := hb ▸ parseMaster_eq (by omega) hl
  refine does_change rfl (by decide) (master_takes hd hu) hp ?_ (fun x => by cases x <;> rfl) rfl rfl
  simp only [masterWork, setMaster_grand, okOr_decide]
  cases p <;> rfl

/-- MASTER sets a playback's master (R78). -/
theorem master_playback (hd : s.Head p 0x36 r rest) (hu : s.MayUse p .playback) {q : PbId} {level : Nat}
    (hb : r.body = b1 (num q) ++ b2 level) (hl : level ≤ 65535) :
    Does (.master p) s p r rest (if 1000 < level then .adjusted else .ok) (b1 (num q) ++ b2 (min level 1000))
      (s.setPb q { s.pb q with master := min level 1000 }) := by
  have hp : parseMaster r.body = _ := hb ▸ parseMaster_eq (by simp only [num]; omega) hl
  refine does_change rfl (by decide) (master_takes hd hu) hp ?_ (fun x => by cases x <;> rfl) rfl rfl
  simp only [masterWork, setMaster_playback, okOr_decide]
  cases p <;> rfl

/-- A control of the console alone, past its general checks (R169). -/
theorem console_takes (hf : s.isFollower = false) (hd : s.Head .console code r rest)
    (hk : kindInfo code = some (.consoleOnly, true)) (hs : needsStore code = false) (hn : needsDecision code = false) :
    s.Takes .console code r rest :=
  takes_always hd (mayUse_console hf _) hk (mustWait_free s hs hn)

theorem console_gate (hf : s.isFollower = false) (hk : kindInfo code = some (.consoleOnly, true)) :
    s.gate .console code = none :=
  gate_of s .console code .consoleOnly true (mayUse_console hf _) hk (.inl rfl)

/-- HOUSE_FADE (R44). -/
theorem houseFade_does (hf : s.isFollower = false) {g : Fin 4} {level time : Nat} (hd : s.Head .console 0x59 r rest)
    (hb : r.body = b1 (num g) ++ b2 level ++ b2 time) (hl : level ≤ 65535) (ht : time ≤ 65535) :
    Does (.houseFade .console) s .console r rest (if 1000 < level ∨ 6000 < time then .adjusted else .ok)
      (b1 (num g) ++ b2 (min level 1000) ++ b2 (min time 6000))
      { s with patch := { s.patch with
          groups := s.patch.groups.set g ((s.patch.groups.get g).fade (min level 1000) (min time 6000)) } } := by
  have hp : parseHouseFade r.body = _ := hb ▸ parseHouseFade_eq g hl ht
  refine does_change rfl (by decide) (console_takes hf hd rfl rfl rfl) hp ?_ (fun x => by cases x <;> rfl) rfl rfl
  simp only [houseFadeWork, okOr_decide]
  rfl

/-- BLACKOUT (R108). -/
theorem blackout_does (hf : s.isFollower = false) {on : Bool} (hd : s.Head .console 0x5A r rest) (hb : r.body = bBool on) :
    Does (.blackout .console) s .console r rest .ok (bBool on ++ bBool s.merge.blackout)
      { s with merge := { s.merge with blackout := on } } :=
  does_change rfl (by decide) (console_takes hf hd rfl rfl rfl) (hb ▸ parseBlackout_eq on) rfl
    (fun x => by cases x <;> rfl) rfl rfl

/-- LINE_HOLD (R137). -/
theorem lineHold_does (hf : s.isFollower = false) {n : Nat} {on : Bool} (hd : s.Head .console 0x5B r rest)
    (hb : r.body = b1 n ++ bBool on) (hn : n ≤ 6) :
    Does (.lineHold .console) s .console r rest .ok (b1 n ++ b1 s.holdFlags ++ b1 (s.held n on).holdFlags)
      (s.held n on) := by
  have hw : (s.takeOff .console rest).lineHoldWork (requesterOf .console r) (n, on)
      = ((s.held n on).takeOff .console rest).answer (requesterOf .console r) .ok
          (b1 n ++ b1 s.holdFlags ++ b1 (s.held n on).holdFlags) := by
    rw [lineHoldWork_eq, held_takeOff, holdFlags_takeOff, holdFlags_takeOff]
  refine does_change rfl (by decide) (console_takes hf hd rfl rfl rfl) (hb ▸ parseLineHold_eq on hn) hw (fun x => ?_) ?_ ?_
  · rw [held_parts]; cases x <;> rfl
  · rw [held_parts]
  · rw [held_parts]

/-- ACCESS_SET (R171). -/
theorem accessSet_does (hf : s.isFollower = false) {n : Nat} (hd : s.Head .console 0x5C r rest) (hb : r.body = b1 n)
    (hn : n ≤ 31) :
    Does (.accessSet .console) s .console r rest .ok (b1 s.link.mask.toNat ++ b1 n)
      { s with link := { s.link with mask := Mask.ofNat n } } := by
  refine does_change rfl (by decide) (console_takes hf hd rfl rfl rfl) (hb ▸ parseAccessSet_eq hn) ?_
    (fun x => by cases x <;> rfl) rfl rfl
  simp only [accessSetWork, Mask.toNat_ofNat hn]
  rfl

/-- LOSS_CLEAR (R181). -/
theorem lossClear_does (hf : s.isFollower = false) (hd : s.Head .console 0x5D r rest) (hb : r.body = []) :
    Does (.lossClear .console) s .console r rest .ok (b1 (lossCode s.sup.loss) ++ b2 s.outp.blend ++ b2 0)
      { s with sup := { s.sup with loss := none }, outp := { s.outp with target := 0 } } :=
  does_change rfl (by decide) (console_takes hf hd rfl rfl rfl) (parseNone_empty hb) rfl
    (fun x => by cases x <;> rfl) rfl rfl

end Controls

end State

/-! ### The obligation -/

/-- Settles O37, one control after the other: its body as its parser reads it, and its work. -/
theorem controlsActAtOnce : Obligations.ControlsActAtOnce := by
  intro s p r rest
  refine ⟨fun target level hd hu hb ht hl => ⟨fun hfar => ?_, fun h0 => ?_, fun q hq => ?_⟩, fun hf => ?_,
    ⟨s.holdFlags_lt, s.holdFlags_testBit⟩, fun n hn => ⟨Mask.toNat_ofNat hn, rfl, rfl, rfl, rfl, rfl⟩⟩
  · exact State.refuses_body rfl (by decide) hd (State.gate_of s p _ .playback true hu rfl (.inl rfl))
      (hb ▸ parseMaster_far hfar ht)
  · subst h0; exact State.master_grand hd hu hb hl
  · subst hq; exact State.master_playback hd hu hb hl
  have refused {β : Type} {c : Instr} {code : Nat} {parse : List Byte → Except Status β}
      {work : State → Requester → β → State} (hx : exec c s = .next (s.takeRequest .console code parse work))
      (hc : code < 256) (hk : kindInfo code = some (.consoleOnly, true)) (hd : s.Head .console code r rest)
      (hp : parse r.body = .error .badValue) : Refuses c s .console r rest .badValue :=
    State.refuses_body hx hc hd (State.console_gate hf hk) hp
  refine ⟨fun g level time hd hb hl ht => ?_, fun hd hl hg => refused rfl (by decide) rfl hd (parseHouseFade_far hl hg),
    fun on hd hb => State.blackout_does hf hd hb,
    fun hd hl h => refused rfl (by decide) rfl hd (parseBlackout_far hl h), fun on t n hd hb hline => ?_,
    fun hd hl h => refused rfl (by decide) rfl hd (parseLineHold_far hl h),
    fun n hd hb hn => State.accessSet_does hf hd hb hn,
    fun n hd hb h hn => refused rfl (by decide) rfl hd (hb ▸ parseAccessSet_far h hn),
    fun hd hb => State.lossClear_does hf hd hb⟩
  · have zero : (min time 6000 = 0) = (time = 0) := by simp
    have h := State.houseFade_does hf hd hb hl ht
    simpa only [HouseGroup.fade, zero] using h
  · obtain ⟨rfl, rfl⟩ | ⟨l, rfl, rfl⟩ := hline
    · exact State.lineHold_does hf hd hb (by omega)
    · rw [← State.held_line]
      exact State.lineHold_does hf hd hb (by omega)

end Sys2Proof.Machine

/-! The reads of the channel levels and of the circuits: LEVELS_READ, CIRCUIT_READ (R37, R114). -/

namespace Sys2Proof.Machine

/-! ### The flags packed in bytes -/

/-- A bit of the byte that up to eight bits name. -/
theorem getLsbD_bitsValue (l : List Bool) {i : Nat} (h : i < 8) : (byte (bitsValue l)).getLsbD i = l.getD i false := by
  rw [byte, BitVec.getLsbD_ofNat, bitsValue_testBit, decide_eq_true h, Bool.true_and]

theorem packBits_eight (a b c d e f g h : Bool) (rest : List Bool) :
    packBits (a :: b :: c :: d :: e :: f :: g :: h :: rest)
      = byte (bitsValue [a, b, c, d, e, f, g, h]) :: packBits rest := rfl

/-- The flags that do not fill a byte are filled up with free values (log 35). -/
theorem packBits_short {l : List Bool} (h : l ≠ []) (hl : l.length < 8) :
    packBits l = [byte (bitsValue (l ++ (List.range (8 - l.length)).map (fun i => Config.spareBit (l.length + i))))] := by
  unfold packBits
  split
  · simp only [List.length_cons] at hl; omega
  · exact absurd rfl h
  · rfl

/-- The flags stand one bit each in a row of bytes, the first in the least significant bit of the first (R114). -/
theorem packBits_spec (flags : List Bool) : (packBits flags).length = (flags.length + 7) / 8
    ∧ ∀ i, i < flags.length → ((packBits flags).getD (i / 8) 0).getLsbD (i % 8) = flags.getD i false := by
  by_cases hl : flags.length < 8
  · by_cases hn : flags = []
    · subst hn; exact ⟨rfl, fun i h => absurd h (Nat.not_lt_zero i)⟩
    · have hpos : 0 < flags.length := List.length_pos_of_ne_nil hn
      rw [packBits_short hn hl]
      refine ⟨by rw [List.length_singleton]; omega, fun i hi => ?_⟩
      rw [Nat.div_eq_of_lt (by omega), Nat.mod_eq_of_lt (by omega), List.getD_cons_zero,
        getLsbD_bitsValue _ (by omega), List.getD_append _ _ _ _ hi]
  · match flags with
    | a :: b :: c :: d :: e :: f :: g :: h :: rest =>
      obtain ⟨hlen, hbit⟩ := packBits_spec rest
      rw [packBits_eight]
      refine ⟨by simp only [List.length_cons, hlen]; omega, fun i hi => ?_⟩
      by_cases h8 : i < 8
      · have first := List.getD_append [a, b, c, d, e, f, g, h] rest false i h8
        rw [Nat.div_eq_of_lt h8, Nat.mod_eq_of_lt h8, List.getD_cons_zero, getLsbD_bitsValue _ h8, ← first]
        rfl
      · have hpast : i / 8 = (i - 8) / 8 + 1 := by omega
        have hmod : i % 8 = (i - 8) % 8 := by omega
        have later := List.getD_append_right [a, b, c, d, e, f, g, h] rest false i (by simpa using h8)
        simp only [List.length_cons] at hi
        rw [hpast, hmod, List.getD_cons_succ, hbit (i - 8) (by omega)]
        exact later.symm
    | [] | [_] | [_, _] | [_, _, _] | [_, _, _, _] | [_, _, _, _, _] | [_, _, _, _, _, _] | [_, _, _, _, _, _, _] =>
      exact absurd (by simp) hl
  termination_by flags.length
  decreasing_by simp only [List.length_cons]; omega

/-! ### The bodies of the two reads -/

theorem parseLevelsRead_channels {b : List Byte} (hl : b.length = 5) (hs : byteAt b 0 ≤ 4) (h1 : 1 ≤ wordAt b 1)
    (h2 : 1 ≤ wordAt b 3) (h3 : wordAt b 3 ≤ 400) (h4 : wordAt b 1 + wordAt b 3 ≤ 1537) :
    parseLevelsRead b = .ok (byteAt b 0, wordAt b 1, wordAt b 3) :=
  sized_some hl ((if_neg (by omega)).trans
    (if_pos ⟨hs, (isChannel_iff _).mpr ⟨h1, by omega⟩, h2, h3, h4⟩))

theorem parseLevelsRead_parks {b : List Byte} (hl : b.length = 5) (hs : byteAt b 0 = 5) :
    parseLevelsRead b = .ok (byteAt b 0, wordAt b 1, wordAt b 3) := sized_some hl (if_pos hs)

theorem parseLevelsRead_bad {b : List Byte} (hl : b.length = 5)
    (h : 5 < byteAt b 0 ∨ byteAt b 0 ≤ 4 ∧ (wordAt b 1 < 1 ∨ 1536 < wordAt b 1 ∨ wordAt b 3 < 1 ∨ 400 < wordAt b 3
      ∨ 1537 < wordAt b 1 + wordAt b 3)) : parseLevelsRead b = .error .badValue := by
  refine sized_none hl ((if_neg (by omega)).trans (if_neg ?_))
  rintro ⟨hs, hc, h2, h3, h4⟩
  have hc := (isChannel_iff _).mp hc
  have h4 : wordAt b 1 + wordAt b 3 ≤ 1537 := h4
  omega

theorem parseCircuitRead_run {b : List Byte} (hl : b.length = 3) (h1 : 1 ≤ wordAt b 0) (h2 : 1 ≤ byteAt b 2)
    (h3 : byteAt b 2 ≤ 96) (h4 : wordAt b 0 + byteAt b 2 ≤ 2305) :
    parseCircuitRead b = .ok (wordAt b 0, byteAt b 2) :=
  sized_some hl (if_pos ⟨(isCircuit_iff _).mpr ⟨h1, by omega⟩, h2, h3, h4⟩)

theorem parseCircuitRead_bad {b : List Byte} (hl : b.length = 3)
    (h : wordAt b 0 < 1 ∨ 2304 < wordAt b 0 ∨ byteAt b 2 < 1 ∨ 96 < byteAt b 2 ∨ 2305 < wordAt b 0 + byteAt b 2) :
    parseCircuitRead b = .error .badValue := by
  refine sized_none hl (if_neg ?_)
  rintro ⟨hc, h2, h3, h4⟩
  have hc := (isCircuit_iff _).mp hc
  have h4 : wordAt b 0 + byteAt b 2 ≤ 2305 := h4
  omega

/-! ### The replies -/

theorem flatMap_length {α : Type} (f : α → List Byte) {k : Nat} (h : ∀ x, (f x).length = k) (l : List α) :
    (l.flatMap f).length = l.length * k := by
  simp [List.length_flatMap, h]

namespace State

/-- The fields in front of every LEVELS_READ reply (R114). -/
def levelsHeader (s : State) (source : Nat) : List Byte :=
  b1 source ++ b2 s.merge.grand ++ bBool s.merge.blackout ++ b1 s.merge.parks.length

theorem levelsHeader_length (s : State) (source : Nat) : (s.levelsHeader source).length = 5 := rfl

/-- The fields of a LEVELS_READ reply of the channel outputs (R114). -/
def outputFields (s : State) (source first count : Nat) : List Byte :=
  s.levelsHeader source ++ b2 first ++ b2 count ++ (List.range count).flatMap (fun i => b2 (s.output (first + i)))
    ++ packBits ((List.range count).map (fun i => (s.parkOf (first + i)).isSome))

theorem outputFields_length (s : State) (source first count : Nat) :
    (s.outputFields source first count).length = 9 + count * 2 + (count + 7) / 8 := by
  have hlevels := flatMap_length (fun i => b2 (s.output (first + i))) (k := 2) (fun _ => rfl) (List.range count)
  simp only [outputFields, List.length_append, levelsHeader_length, hlevels, (packBits_spec _).1, List.length_map,
    List.length_range]
  rfl

/-- The fields of a LEVELS_READ reply of the parks table (R114). -/
def tableFields (s : State) (source : Nat) : List Byte :=
  s.levelsHeader source ++ s.merge.parks.flatMap (fun x => b2 x.channel ++ b2 x.level ++ b1 (ownerCode x.owner))

theorem tableFields_length (s : State) (source : Nat) : (s.tableFields source).length = 5 + s.merge.parks.length * 5 := by
  have hparks := flatMap_length (fun x : Park => b2 x.channel ++ b2 x.level ++ b1 (ownerCode x.owner)) (k := 5)
    (fun _ => rfl) s.merge.parks
  simp only [tableFields, List.length_append, levelsHeader_length, hparks]

/-- The fields of a LEVELS_READ reply of a playback's look (R114). -/
def lookFields (s : State) (q : PbId) (first count : Nat) : List Byte :=
  s.levelsHeader (num q) ++ b2 (s.pb q).master ++ b2 first ++ b2 count
    ++ (List.range count).flatMap (fun i => b2 ((s.pb q).look.level (first + i)))

theorem levelsReadWork_outputs (s : State) (q : Requester) (first count : Nat) :
    s.levelsReadWork q (0, first, count) = s.answer q .ok (s.outputFields 0 first count) := by
  simp only [levelsReadWork, idx4_none (n := 0) (.inl Nat.one_pos), outputFields, levelsHeader, List.flatMap_map,
    List.map_map, Function.comp_def, if_true]

theorem levelsReadWork_look (s : State) (q : Requester) (p : PbId) (first count : Nat) :
    s.levelsReadWork q (num p, first, count) = s.answer q .ok (s.lookFields p first count) := by
  simp only [levelsReadWork, idx4_num, lookFields, levelsHeader, List.flatMap_map]

theorem levelsReadWork_table (s : State) (q : Requester) (first count : Nat) :
    s.levelsReadWork q (5, first, count) = s.answer q .ok (s.tableFields 5) := rfl

/-- The fields of a CIRCUIT_READ reply (R37). -/
def circuitFields (s : State) (first count : Nat) : List Byte :=
  b2 first ++ b1 count ++ (List.range count).flatMap (fun i => b2 (s.circuitLevel (first + i)) ++
    (s.circuitSource (first + i)).fields)

/-! ### The levels do not depend on the request queues -/

theorem outputFields_takeOff (s : State) (p : PortId) (rest : List Request) (source first count : Nat) :
    (s.takeOff p rest).outputFields source first count = s.outputFields source first count := by cases p <;> rfl

theorem tableFields_takeOff (s : State) (p : PortId) (rest : List Request) (source : Nat) :
    (s.takeOff p rest).tableFields source = s.tableFields source := by cases p <;> rfl

theorem lookFields_takeOff (s : State) (p : PortId) (rest : List Request) (q : PbId) (first count : Nat) :
    (s.takeOff p rest).lookFields q first count = s.lookFields q first count := by cases p <;> rfl

theorem circuitFields_takeOff (s : State) (p : PortId) (rest : List Request) (first count : Nat) :
    (s.takeOff p rest).circuitFields first count = s.circuitFields first count := by cases p <;> rfl

/-! ### The reads -/

section Reads

variable {s : State} {p : PortId} {r : Request} {rest : List Request}

theorem levelsRead_takes (hd : s.Head p 0x03 r rest) (hu : s.MayUse p .read) : s.Takes p 0x03 r rest :=
  takes_always hd hu rfl (mustWait_free s rfl rfl)

theorem circuitRead_takes (hd : s.Head p 0x04 r rest) (hu : s.MayUse p .read) : s.Takes p 0x04 r rest :=
  takes_always hd hu rfl (mustWait_free s rfl rfl)

theorem read_gate {code : Nat} (hu : s.MayUse p .read) (hk : kindInfo code = some (.read, true)) : s.gate p code = none :=
  gate_of s p code .read true hu hk (.inl rfl)

/-- LEVELS_READ of the channel outputs (R114). -/
theorem levelsRead_outputs (ht : s.Takes p 0x03 r rest) {first count : Nat}
    (hp : parseLevelsRead r.body = .ok (0, first, count)) :
    Does (.levelsRead p) s p r rest .ok (s.outputFields 0 first count) s :=
  does_at_once rfl (by decide) ht hp (by rw [levelsReadWork_outputs, outputFields_takeOff])

/-- LEVELS_READ of a playback's look (R114). -/
theorem levelsRead_look (ht : s.Takes p 0x03 r rest) {q : PbId} {first count : Nat}
    (hp : parseLevelsRead r.body = .ok (num q, first, count)) :
    Does (.levelsRead p) s p r rest .ok (s.lookFields q first count) s :=
  does_at_once rfl (by decide) ht hp (by rw [levelsReadWork_look, lookFields_takeOff])

/-- LEVELS_READ of the parks table (R114). -/
theorem levelsRead_table (ht : s.Takes p 0x03 r rest) {first count : Nat}
    (hp : parseLevelsRead r.body = .ok (5, first, count)) : Does (.levelsRead p) s p r rest .ok (s.tableFields 5) s :=
  does_at_once rfl (by decide) ht hp (by rw [levelsReadWork_table, tableFields_takeOff])

/-- CIRCUIT_READ (R37). -/
theorem circuitRead_run (ht : s.Takes p 0x04 r rest) {first count : Nat}
    (hp : parseCircuitRead r.body = .ok (first, count)) :
    Does (.circuitRead p) s p r rest .ok (s.circuitFields first count) s :=
  does_at_once rfl (by decide) ht hp
    (congrArg ((s.takeOff p rest).answer (requesterOf p r) .ok) (circuitFields_takeOff s p rest first count))

end Reads

end State

/-! ### The obligation -/

theorem CircuitSource.fields_eq (x : CircuitSource) : x.fields = match x with
    | .none => b1 0 ++ b2 0
    | .entry c => b1 1 ++ b2 c
    | .window c => b1 2 ++ b2 c
    | .house g => b1 3 ++ b2 (num g) := by cases x <;> rfl

/-- Settles O14: each read's body as its parser reads it, and the fields of its reply, by the source for LEVELS_READ. -/
theorem levelsAndCircuitsAreRead : Obligations.LevelsAndCircuitsAreRead := by
  refine ⟨fun s p r rest hd hu => ?_, fun s p r rest hd hu => ?_⟩
  · intro source first count header outputs table
    have ht := State.levelsRead_takes hd hu
    have bad {st : Status} (hp : parseLevelsRead r.body = .error st) : Refuses (.levelsRead p) s p r rest st :=
      State.refuses_body rfl (by decide) hd (State.read_gate hu rfl) hp
    have houtputs : outputs = s.outputFields source first count := rfl
    have htable : table = s.tableFields source := rfl
    refine ⟨fun hl => bad (sized_length hl), fun hl hs => bad (parseLevelsRead_bad hl (.inl hs)),
      fun hl hs h => bad (parseLevelsRead_bad hl (.inr ⟨hs, h⟩)), fun hl h1 h2 h3 h4 => ⟨fun hs => ?_, fun q hs => ?_, ?_⟩,
      fun hl hs => ?_, fun hparks => by rw [htable, State.tableFields_length, hparks], packBits_spec⟩
    · have hp : parseLevelsRead r.body = .ok (source, first, count) :=
        parseLevelsRead_channels hl (by omega) h1 h2 h3 h4
      rw [houtputs, hs]
      exact State.levelsRead_outputs ht (hp.trans (by rw [hs]))
    · have near : source ≤ 4 := by rw [hs]; simp only [num]; omega
      have hp : parseLevelsRead r.body = .ok (source, first, count) := parseLevelsRead_channels hl near h1 h2 h3 h4
      have fields := State.levelsRead_look ht (hp.trans (by rw [hs]))
      rwa [State.lookFields, ← hs] at fields
    · intro _ hcount
      rw [houtputs, State.outputFields_length, hcount]
    · have hp : parseLevelsRead r.body = .ok (source, first, count) := parseLevelsRead_parks hl hs
      rw [htable, hs]
      exact State.levelsRead_table ht (hp.trans (by rw [hs]))
  · intro first count
    have bad {st : Status} (hp : parseCircuitRead r.body = .error st) : Refuses (.circuitRead p) s p r rest st :=
      State.refuses_body rfl (by decide) hd (State.read_gate hu rfl) hp
    refine ⟨fun hl => bad (sized_length hl), fun hl h => bad (parseCircuitRead_bad hl h), fun hl h1 h2 h3 h4 => ?_⟩
    have read := State.circuitRead_run (State.circuitRead_takes hd hu) (parseCircuitRead_run hl h1 h2 h3 h4)
    simp only [State.circuitFields, CircuitSource.fields_eq] at read
    exact read

end Sys2Proof.Machine

/-! The ends of a standby fetch, the pending GO, and the notices (R30, R31, R55 to R59, R62, R67). -/

namespace Sys2Proof.Machine

namespace State

/-! ### Reports and faults -/

/-- A report reads the role, the report queue and the show time, and no more of the state. -/
theorem report_link_congr {s t : State} (hf : t.isFollower = s.isFollower) (hl : t.link = s.link)
    (ht : t.sup.showTime = s.sup.showTime) (k : Nat) (u : Bool) (b : List Byte) :
    (t.report k u b).link = (s.report k u b).link := by
  unfold report
  rw [hf, hl, ht]
  dsimp only
  split_ifs
  · exact hl
  all_goals rfl

@[simp] theorem isFollower_raise (s : State) (f : EngineFault) : (s.raise f).isFollower = s.isFollower := by
  rw [isFollower, raise_cas, isFollower]

@[simp] theorem showTime_raise (s : State) (f : EngineFault) : (s.raise f).sup.showTime = s.sup.showTime := by
  unfold raise; split_ifs <;> rfl

/-! ### The taking of an outcome -/

theorem standbyChanged_pb (s : State) (p q : PbId) : (s.standbyChanged p).pb q = s.pb q :=
  congrArg (fun e : Engine => e.pb.get q) (standbyChanged_eng s p)

theorem takeStandby_pb_same (s : State) (p : PbId) (now : Standby) :
    (s.takeStandby p now).pb p = { s.pb p with standby := now, fetch := none } :=
  (standbyChanged_pb _ p p).trans (pb_setPb_same s p _)

theorem takeStandby_pb_other (s : State) {p q : PbId} (now : Standby) (h : q ≠ p) :
    (s.takeStandby p now).pb q = s.pb q :=
  (standbyChanged_pb _ p q).trans (pb_setPb_other s p q _ h)

/-- STANDBY_CHANGED of an outcome, as a report of the state before it (R62). -/
theorem takeStandby_link (s : State) (p : PbId) (now : Standby) : (s.takeStandby p now).link
    = (s.report 0xE1 false (b1 (num p) ++ b1 now.code ++ b2 now.number ++ b1 now.source ++ now.cueFields)).link := by
  rw [takeStandby, standbyChanged, pb_setPb_same]
  refine report_link_congr ?_ ?_ ?_ _ _ _ <;> rfl

theorem handPending_none {s : State} {p : PbId} (h : (s.pb p).pendingGo = none) : s.handPending p = s := by
  rw [handPending, h]

section Handed

variable {s : State} {p : PbId} {g : PendingGo}

/-- The state in which a pending GO is handed the end of the fetch: it is pending no longer (R57). -/
def unpended (s : State) (p : PbId) : State := s.setPb p { s.pb p with pendingGo := none }

theorem handPending_fetching (hg : (s.pb p).pendingGo = some g) {n : Nat} {src : Source}
    (h : (s.pb p).standby = .fetching n src) : s.handPending p = s := by rw [handPending, hg, h]

theorem handPending_ready (hg : (s.pb p).pendingGo = some g) {b : Bank} {l : PbId} {src : Source} {c : Cue}
    (h : (s.pb p).standby = .ready b l src c) :
    s.handPending p = (s.unpended p).goTake p g.source g.override g.adjusted c := by rw [handPending, hg, h]; rfl

theorem handPending_bad (hg : (s.pb p).pendingGo = some g) {n : Nat} {src : Source}
    (h : (s.pb p).standby = .bad n src) : s.handPending p = (s.unpended p).endGo p g.source .checkFailed := by
  rw [handPending, hg, h]; rfl

theorem handPending_missing (hg : (s.pb p).pendingGo = some g) {n : Nat} {src : Source}
    (h : (s.pb p).standby = .missing n src) : s.handPending p = (s.unpended p).endGo p g.source .notFound := by
  rw [handPending, hg, h]; rfl

theorem handPending_end (hg : (s.pb p).pendingGo = some g) (h : (s.pb p).standby = .none) :
    s.handPending p = (s.unpended p).endGo p g.source .endOfList := by rw [handPending, hg, h]; rfl

end Handed

/-! ### What a GO that is not taken tells its source -/

theorem endGo_follow_missing (s : State) (p : PbId) {n : Nat} {src : Source} (h : (s.pb p).standby = .missing n src) :
    s.endGo p .follow .notFound = s.raise
      { kind := .followMissing, critical := false, value := n, playback := some p, cue := none, bank := none,
        stage := none, time := s.sup.showTime } := by
  simp [endGo, h, Standby.number, fault]

theorem endGo_follow_silent (s : State) (p : PbId) {st : Status} (h : st = .checkFailed ∨ st = .endOfList) :
    s.endGo p .follow st = s := by
  obtain rfl | rfl := h <;> rfl

/-! ### The end of a fetch -/

/-- The standby after a fetch whose record failed its check, and the fault it raises (R55). -/
def standbyCheck (s : State) (p : PbId) (f : Fetch) : EngineFault :=
  { kind := .standbyCheck, critical := true, value := f.number, playback := some p, cue := none, bank := some f.bank,
    stage := none, time := s.sup.showTime }

/-- A standby fetch has read its record: the standby is READY (R55). -/
def fetchedReady (s : State) (p : PbId) (f : Fetch) (c : Cue) : State :=
  s.freePort.takeStandby p (.ready f.bank f.list f.source c)

/-- A standby fetch has read no record that passes its check: the standby is BAD (R55). -/
def fetchedBad (s : State) (p : PbId) (f : Fetch) : State :=
  (s.freePort.raise (s.standbyCheck p f)).takeStandby p (.bad f.number f.source)

section Fetched

variable {s : State} {p : PbId} {f : Fetch} {wanted : Bool}

theorem fetchDone_busy (h : s.ctl.op = some (.fetch p f wanted)) : s.fetchDone .busy = s := by
  unfold fetchDone; rw [h]

/-- The answer to a fetch other than BUSY is taken with its record, or dropped where it is no longer wanted (R55, R56). -/
theorem fetchDone_answered (h : s.ctl.op = some (.fetch p f wanted)) {a : StoreAnswer} (ha : a ≠ .busy) :
    s.fetchDone a = (if wanted then s.freePort.takeOutcome p f
      (if a = .done true then s.storedCue f.bank f.list f.number else none) else s.freePort).settle := by
  unfold fetchDone
  rw [h]
  cases a with
  | busy => exact absurd rfl ha
  | done _ => rfl
  | notDone => rfl

theorem fetchDone_ready (h : s.ctl.op = some (.fetch p f true)) {c : Cue}
    (hc : s.storedCue f.bank f.list f.number = some c) :
    s.fetchDone (.done true) = ((s.fetchedReady p f c).handPending p).settle := by
  rw [fetchDone_answered h (by simp), if_pos rfl, if_pos rfl, hc]
  rfl

/-- A fetch failed: the record's check failed, or the record is not there, or the store has not answered (R8, R55). -/
theorem fetchDone_bad (h : s.ctl.op = some (.fetch p f true)) {a : StoreAnswer}
    (ha : a = .done false ∨ a = .notDone ∨ (a = .done true ∧ s.storedCue f.bank f.list f.number = none)) :
    s.fetchDone a = ((s.fetchedBad p f).handPending p).settle := by
  have busy : a ≠ .busy := by rintro rfl; simp at ha
  have record : (if a = .done true then s.storedCue f.bank f.list f.number else none) = none := by
    obtain rfl | rfl | ⟨rfl, hnone⟩ := ha
    · rfl
    · rfl
    · rw [if_pos rfl, hnone]
  rw [fetchDone_answered h busy, if_pos rfl, record]
  rfl

theorem fetchedReady_pb_same (c : Cue) :
    (s.fetchedReady p f c).pb p = { s.pb p with standby := .ready f.bank f.list f.source c, fetch := none } :=
  takeStandby_pb_same _ _ _

theorem fetchedReady_pb_other (c : Cue) {q : PbId} (h : q ≠ p) : (s.fetchedReady p f c).pb q = s.pb q :=
  takeStandby_pb_other _ _ h

/-- STANDBY_CHANGED of a READY standby (R62). -/
theorem fetchedReady_link (c : Cue) : (s.fetchedReady p f c).link
    = (s.report 0xE1 false (b1 (num p) ++ b1 1 ++ b2 c.number ++ b1 f.source.code ++ b1 c.label.length ++ c.label
        ++ b2 c.up ++ bOpt c.down ++ bOpt c.follow ++ bBool c.block ++ b2 c.levels.length)).link := by
  have fields : b1 (num p) ++ b1 (Standby.ready f.bank f.list f.source c).code
      ++ b2 (Standby.ready f.bank f.list f.source c).number ++ b1 (Standby.ready f.bank f.list f.source c).source
      ++ (Standby.ready f.bank f.list f.source c).cueFields
      = b1 (num p) ++ b1 1 ++ b2 c.number ++ b1 f.source.code ++ b1 c.label.length ++ c.label
        ++ b2 c.up ++ bOpt c.down ++ bOpt c.follow ++ bBool c.block ++ b2 c.levels.length := by
    simp only [Standby.code, Standby.number, Standby.source, Standby.cueFields, bText, List.append_assoc]
  rw [fetchedReady, takeStandby_link, fields]
  refine report_link_congr ?_ ?_ ?_ _ _ _ <;> rfl

theorem fetchedBad_pb_same :
    (s.fetchedBad p f).pb p = { s.pb p with standby := .bad f.number f.source, fetch := none } := by
  have raised (q : PbId) : (s.freePort.raise (s.standbyCheck p f)).pb q = s.pb q := by rw [pb, raise_eng]; rfl
  rw [fetchedBad, takeStandby_pb_same, raised]

theorem fetchedBad_pb_other {q : PbId} (h : q ≠ p) : (s.fetchedBad p f).pb q = s.pb q := by
  rw [fetchedBad, takeStandby_pb_other _ _ h, pb, raise_eng]; rfl

/-- STANDBY_CHANGED of a BAD standby (R62). -/
theorem fetchedBad_link : (s.fetchedBad p f).link
    = (s.report 0xE1 false (b1 (num p) ++ b1 2 ++ b2 f.number ++ b1 f.source.code)).link := by
  rw [fetchedBad, takeStandby_link]
  exact report_link_congr (s := s) (isFollower_raise s.freePort _) (raise_link s.freePort _) (showTime_raise s.freePort _) _ _ _

/-- On the engine a failed check raises STANDBY_CHECK (R55). -/
theorem fetchedBad_sup (hf : s.isFollower = false) :
    (s.fetchedBad p f).sup = { s.sup with raised := s.sup.raised ++ [s.standbyCheck p f] } := by
  rw [fetchedBad, takeStandby_sup, raise_engine (s := s.freePort) hf]; rfl

end Fetched

/-! ### The notices -/

section Notices

variable {s : State}

theorem takeListNotice_none (h : s.eng.notices = []) : s.takeListNotice = s := by
  unfold takeListNotice; rw [h]

/-- A list notice starts a fetch of its playback (R59). -/
theorem takeListNotice_some {p : PbId} {rest : List PbId} (h : s.eng.notices = p :: rest) : s.takeListNotice
    = ((({ s with eng := { s.eng with notices := rest } }).startFetchCore p).handPending p).settle := by
  unfold takeListNotice; rw [h]; rfl

theorem takePatchNotice_none (h : s.patch.notices = []) : s.takePatchNotice = s := by
  unfold takePatchNotice; rw [h]

/-- The entries of a patch notice are written into the patches of their bank (R30, R31). -/
theorem takePatchNotice_entries {b : Bank} {pairs : List (Nat × Option PatchEntry)} {rest : List PatchNotice}
    (h : s.patch.notices = .entries b pairs :: rest) : s.takePatchNotice = { s with patch := { s.patch with
      notices := rest
      active := if s.bank.active = some b then writePairs pairs s.patch.active else s.patch.active
      pending := if s.isTarget b then writePairs pairs s.patch.pending else s.patch.pending } } := by
  unfold takePatchNotice
  rw [h]
  simp only [applyPatchNotice, decide_eq_true_eq]
  rfl

/-- The windows of a patch notice take the place of those of its bank (R30, R31). -/
theorem takePatchNotice_windows {b : Bank} {w : Windows} {rest : List PatchNotice}
    (h : s.patch.notices = .windows b w :: rest) : s.takePatchNotice = { s with patch := { s.patch with
      notices := rest
      windows := if s.bank.active = some b then w else s.patch.windows
      pendingWindows := if s.isTarget b then w else s.patch.pendingWindows } } := by
  unfold takePatchNotice
  rw [h]
  simp only [applyPatchNotice, decide_eq_true_eq]
  rfl

end Notices

end State

/-! ### The obligation -/

/-- Settles O28: the end of a fetch by its answer and by whether a GO is pending on it, then the notices. -/
theorem fetchOutcomesAndNotices : Obligations.FetchOutcomesAndNotices := by
  intro s readyReport badReport
  refine ⟨fun p f wanted hop => ⟨?_, ?_, ?_, ?_, ?_, ?_⟩, fun p => State.handPending_none, fun p g hg => ?_, fun p st => ?_,
    ?_, ?_, ?_, ?_, ?_⟩
  · exact congrArg Host.Outcome.next (State.fetchDone_busy hop)
  · rintro a rfl ha
    exact congrArg Host.Outcome.next (State.fetchDone_answered hop ha)
  · rintro c rfl hc hgo
    have handed : (s.fetchedReady p f c).handPending p = s.fetchedReady p f c :=
      State.handPending_none (by rw [State.fetchedReady_pb_same]; exact hgo)
    refine ⟨s.fetchedReady p f c, congrArg Host.Outcome.next ((State.fetchDone_ready hop hc).trans (by rw [handed])),
      State.fetchedReady_pb_same c, fun q hq => State.fetchedReady_pb_other c hq, ?_, ?_, ?_, ?_, ?_,
      State.fetchedReady_link c⟩ <;> simp [State.fetchedReady, State.freePort]
  · rintro c g rfl hc hgo
    have hpb := State.fetchedReady_pb_same (s := s) (p := p) (f := f) c
    have handed := State.handPending_ready (s := s.fetchedReady p f c) (p := p) (g := g) (by rw [hpb]; exact hgo) (by rw [hpb])
    refine ⟨(s.fetchedReady p f c).unpended p, ?_, fun q hq => ?_, ?_, ?_, ?_, ?_, ?_, ?_, State.fetchedReady_link c,
      congrArg Host.Outcome.next ((State.fetchDone_ready hop hc).trans (by rw [handed]))⟩
    · rw [State.unpended, State.pb_setPb_same, hpb]
    · rw [State.unpended, State.pb_setPb_other _ _ _ _ hq, State.fetchedReady_pb_other c hq]
    all_goals simp [State.unpended, State.fetchedReady, State.freePort]
  · rintro a rfl ha hgo
    have handed : (s.fetchedBad p f).handPending p = s.fetchedBad p f :=
      State.handPending_none (by rw [State.fetchedBad_pb_same]; exact hgo)
    refine ⟨s.fetchedBad p f, congrArg Host.Outcome.next ((State.fetchDone_bad hop ha).trans (by rw [handed])),
      State.fetchedBad_pb_same, fun q hq => State.fetchedBad_pb_other hq, ?_, ?_, ?_, ?_, State.fetchedBad_link,
      State.fetchedBad_sup⟩ <;> simp [State.fetchedBad, State.freePort]
  · rintro a g rfl ha hgo
    have hpb := State.fetchedBad_pb_same (s := s) (p := p) (f := f)
    have handed := State.handPending_bad (s := s.fetchedBad p f) (p := p) (g := g) (by rw [hpb]; exact hgo) (by rw [hpb])
    refine ⟨(s.fetchedBad p f).unpended p, ?_, fun q hq => ?_, ?_, ?_, ?_, ?_, State.fetchedBad_link,
      State.fetchedBad_sup, congrArg Host.Outcome.next ((State.fetchDone_bad hop ha).trans (by rw [handed]))⟩
    · rw [State.unpended, State.pb_setPb_same, hpb]
    · rw [State.unpended, State.pb_setPb_other _ _ _ _ hq, State.fetchedBad_pb_other hq]
    all_goals simp [State.unpended, State.fetchedBad, State.freePort]
  · exact ⟨fun n src => State.handPending_fetching hg, fun b l src c => State.handPending_ready hg,
      fun n src => State.handPending_bad hg, fun n src => State.handPending_missing hg, State.handPending_end hg⟩
  · exact ⟨fun q => rfl, fun i => rfl, fun n src => s.endGo_follow_missing p, s.endGo_follow_silent p⟩
  · exact fun h => congrArg Host.Outcome.next (State.takeListNotice_none h)
  · exact fun p rest h => congrArg Host.Outcome.next (State.takeListNotice_some h)
  · exact fun h => congrArg Host.Outcome.next (State.takePatchNotice_none h)
  · intro b pairs rest h
    exact congrArg Host.Outcome.next (State.takePatchNotice_entries h)
  · intro b w rest h
    exact congrArg Host.Outcome.next (State.takePatchNotice_windows h)

end Sys2Proof.Machine

/-! The commit of a changeover as one state (R32, R86, R101, R113, R122, R123). -/

namespace Sys2Proof.Machine

/-- A playback's context emptied at a commit: its standby, the fetch in hand and its master stay (R86). -/
def Playback.emptied (y : Playback) : Playback :=
  { y with state := .empty, look := [], lastRun := none, explicit := none, follow := none, back := [], pendingGo := none }

theorem Four.foldl_set {α : Type} (g : α → α) (f : Four α) : four.foldl (fun v p => v.set p (g (v.get p))) f = f.map g := rfl

theorem withoutSlotsOf_four (slots : List Slot) : four.foldl (fun l p => withoutSlotsOf p l) slots = [] := by
  simp only [four, List.foldl_cons, List.foldl_nil, withoutSlotsOf, List.filter_filter, List.filter_eq_nil_iff]
  intro a _
  generalize a.playback = p
  fin_cases p <;> decide

namespace State

/-! ### What is told, and what is changed

A commit tells its ports, its inputs and its reports, and it changes the patch, the playbacks, the slots and the parks.
The two are apart: the telling reads nothing of what is changed. -/

/-- What a state tells, over the banks, patches, store port, playbacks, slots and parks of another. -/
def atop (t x : State) : State :=
  { t with bank := x.bank, patch := x.patch, ctl := x.ctl, eng := x.eng, slots := x.slots, merge := x.merge }

theorem setPb_same (s : State) (p : PbId) : s.setPb p (s.pb p) = s := by
  rw [setPb, pb, Four.set_get]

theorem setPb_setPb (s : State) (p : PbId) (x y : Playback) : (s.setPb p x).setPb p y = s.setPb p y := by
  simp only [setPb, Four.set_set]

theorem atop_pb (t x : State) (p : PbId) : (t.atop x).pb p = x.pb p := rfl

theorem atop_report (t x : State) (k : Nat) (u : Bool) (b : List Byte) :
    (t.atop x).report k u b = (t.report k u b).atop x := by
  have role : (t.atop x).isFollower = t.isFollower := rfl
  have reports : (t.atop x).link = t.link := rfl
  unfold report
  rw [role, reports]
  dsimp only
  split_ifs <;> rfl

theorem atop_answer (t x : State) (q : Requester) (st : Status) (b : List Byte) :
    (t.atop x).answer q st b = (t.answer q st b).atop x := by
  unfold answer; cases q.port <;> rfl

theorem atop_answerOwed (t x : State) (owed : Option Byte) (st : Status) (b : List Byte) :
    (t.atop x).answerOwed owed st b = (t.answerOwed owed st b).atop x := by
  unfold answerOwed
  cases owed with
  | none => rfl
  | some tag => exact atop_answer t x _ st b

/-! ### A playback at a commit -/

/-- A playback's context and slots emptied at a commit (R86). -/
def emptied (x : State) (p : PbId) : State := (x.dropSlots p).setPb p (x.pb p).emptied

theorem emptied_pb_other (x : State) {p q : PbId} (h : q ≠ p) : (x.emptied p).pb q = x.pb q := pb_setPb_other _ p q _ h

/-- The end of a GO CANCELLED is told to its source (R67, R82). -/
theorem endGo_cancelled (s : State) (p : PbId) (g : PendingGo) :
    s.endGo p g.source .cancelled = s.tellPending p (some g) .cancelled := by
  unfold endGo tellPending
  rw [Option.map_some]
  cases g.source with
  | port q => rfl
  | input i => rfl
  | follow => rfl

theorem atop_tellPending (t x : State) (p : PbId) (g : Option PendingGo) (st : Status) :
    (t.atop x).tellPending p g st = (t.tellPending p g st).atop x := by
  unfold tellPending
  cases g.map PendingGo.source with
  | none => rfl
  | some src =>
    cases src with
    | port q => exact atop_answer t x q st []
    | input i =>
      exact atop_report { t with inputs := t.inputs.set i { t.inputs.get i with last := some (.go, .refused st) } } x _ _ _
    | follow => rfl

/-- A pending GO is ended: its source is told, and it is pending no longer (R67). -/
theorem atop_endPending (t x : State) (p : PbId) : (t.atop x).endPending p .cancelled
    = (t.tellPending p (x.pb p).pendingGo .cancelled).atop (x.unpended p) := by
  unfold endPending
  rw [atop_pb]
  cases hg : (x.pb p).pendingGo with
  | none =>
    have same : x.unpended p = x := by rw [unpended, ← hg]; exact setPb_same x p
    rw [same]
    rfl
  | some g =>
    have set : (t.atop x).setPb p { x.pb p with pendingGo := none } = t.atop (x.unpended p) := rfl
    dsimp only
    rw [set, endGo_cancelled, atop_tellPending]

theorem atop_commitPlayback (t x : State) (p : PbId) : (t.atop x).commitPlayback p
    = (t.tellPending p (x.pb p).pendingGo .cancelled).atop (x.emptied p) := by
  unfold commitPlayback
  rw [atop_endPending]
  have ended : (x.unpended p).pb p = { x.pb p with pendingGo := none } := pb_setPb_same x p _
  have emptied : ((x.unpended p).dropSlots p).setPb p { (x.unpended p).pb p with
      follow := none, look := [], back := [], lastRun := none, explicit := none, state := .empty } = x.emptied p := by
    rw [ended]
    exact setPb_setPb (x.dropSlots p) p { x.pb p with pendingGo := none } _
  exact congrArg (t.tellPending p (x.pb p).pendingGo .cancelled).atop emptied

/-- The four playbacks at a commit, in turn (R86; log 47). -/
theorem atop_commitPlaybacks (t x : State) : four.foldl commitPlayback (t.atop x)
    = (four.foldl (fun (v : State) p => v.tellPending p (x.pb p).pendingGo .cancelled) t).atop (four.foldl emptied x) := by
  simp only [four, List.foldl_cons, List.foldl_nil, atop_commitPlayback]
  rw [emptied_pb_other _ (q := 3) (by decide), emptied_pb_other _ (q := 3) (by decide), emptied_pb_other _ (q := 3) (by decide),
    emptied_pb_other _ (q := 2) (by decide), emptied_pb_other _ (q := 2) (by decide), emptied_pb_other _ (q := 1) (by decide)]

theorem foldl_emptied (l : List PbId) (x : State) : l.foldl emptied x = { x with
    slots := l.foldl (fun v p => withoutSlotsOf p v) x.slots
    eng := { x.eng with pb := l.foldl (fun v p => v.set p (v.get p).emptied) x.eng.pb } } := by
  induction l generalizing x with
  | nil => rfl
  | cons p rest ih => rw [List.foldl_cons, ih]; rfl

/-- All four playbacks are emptied, and every slot is gone (R86, R101). -/
theorem emptied_four (x : State) : four.foldl emptied x
    = { x with slots := [], eng := { x.eng with pb := x.eng.pb.map Playback.emptied } } := by
  rw [foldl_emptied, withoutSlotsOf_four, Four.foldl_set Playback.emptied]

/-! ### The parks, and what is reported -/

theorem atop_releaseParks (t x : State) : (t.atop x).releaseParks
    = (if x.merge.parks = [] then t else t.report 0xEE false
        (b1 x.merge.parks.length ++ x.merge.parks.flatMap (fun p => b2 p.channel ++ b2 p.level ++ b1 (ownerCode p.owner)))).atop
      { x with merge := { x.merge with parks := [] } } := by
  have parks : (t.atop x).merge = x.merge := rfl
  unfold releaseParks
  rw [parks]
  cases hp : x.merge.parks with
  | nil =>
    have same : { x.merge with parks := [] } = x.merge := by rw [← hp]
    rw [same]; rfl
  | cons p rest =>
    rw [if_neg (by simp), if_neg (by simp), atop_report]
    rfl

theorem atop_showActive (t x : State) (previous : Option Bank) (c : Change) : (t.atop x).showActive previous c
    = (t.report 0xF0 false (b1 c.target.val ++ b1 (bankCode previous)
        ++ b1 (if c.owed.isNone then 0 else if c.dark then 2 else 1) ++ b1 (x.ram c.target).title.length
        ++ (x.ram c.target).title ++ (x.proj c.target).dir.toList.flatMap (fun l => b2 l.length))).atop x := by
  have ram : (t.atop x).ram c.target = x.ram c.target := rfl
  have proj : (t.atop x).proj c.target = x.proj c.target := rfl
  rw [showActive, atop_report, ram, proj, bText, Change.kindCode]
  simp only [List.append_assoc]

/-! ### The fetches after a commit -/

theorem setPb_pendingGo (s : State) (p q : PbId) {x : Playback} (h : x.pendingGo = (s.pb p).pendingGo) :
    ((s.setPb p x).pb q).pendingGo = (s.pb q).pendingGo := by
  by_cases hq : q = p
  · rw [hq, pb_setPb_same, h]
  · rw [pb_setPb_other _ _ _ _ hq]

theorem takeStandby_pendingGo (s : State) (p q : PbId) (now : Standby) :
    ((s.takeStandby p now).pb q).pendingGo = (s.pb q).pendingGo := by
  rw [takeStandby, standbyChanged_pb]
  exact setPb_pendingGo s p q rfl

theorem endAtOnce_pendingGo (s : State) (p q : PbId) (before now : Standby) :
    ((s.endAtOnce p before now).pb q).pendingGo = (s.pb q).pendingGo := by
  unfold endAtOnce
  dsimp only
  split_ifs
  · exact setPb_pendingGo s p q rfl
  · rw [standbyChanged_pb]
    exact setPb_pendingGo s p q rfl

theorem dropFetch_pendingGo (s : State) (p q : PbId) : ((s.dropFetch p).pb q).pendingGo = (s.pb q).pendingGo :=
  setPb_pendingGo _ _ _ rfl

/-- The start of a fetch leaves every pending GO pending (R54, R57). -/
theorem startFetchCore_pendingGo (s : State) (p q : PbId) :
    ((s.startFetchCore p).pb q).pendingGo = (s.pb q).pendingGo := by
  rw [← dropFetch_pendingGo s p q]
  unfold startFetchCore
  dsimp only
  split
  · split_ifs
    · exact endAtOnce_pendingGo _ _ _ _ _
    · split
      · exact takeStandby_pendingGo _ _ _ _
      · exact takeStandby_pendingGo _ _ _ _
      · exact setPb_pendingGo _ _ _ rfl
  · exact endAtOnce_pendingGo _ _ _ _ _

/-- With no GO pending, the fetches of the playbacks hand none over (R57). -/
theorem foldl_startFetch_quiet (l : List PbId) {s : State} (h : ∀ q, (s.pb q).pendingGo = none) :
    l.foldl startFetch s = l.foldl startFetchCore s := by
  induction l generalizing s with
  | nil => rfl
  | cons p rest ih =>
    have quiet (q : PbId) : ((s.startFetchCore p).pb q).pendingGo = none := by rw [startFetchCore_pendingGo, h]
    rw [List.foldl_cons, List.foldl_cons, startFetch, handPending_none (quiet p)]
    exact ih quiet

/-! ### The commit -/

/-- A state as a commit finds it, its target active and its patch and fetches as the commit leaves them (R32, R60, R122). -/
def committing (s : State) (c : Change) : State :=
  withdrawFetches { s with patch := s.patch.install, bank := { s.bank with active := some c.target, change := none } }

/-- A commit before its fetches: what it tells, over what it changes (R122). -/
def committed (s : State) (c : Change) (t : State) : State :=
  t.atop { four.foldl emptied (s.committing c) with merge := { s.merge with parks := [] } }

end State

/-- Settles O43: what a commit tells is told over what it changes, and the fetches after it find no GO pending. -/
theorem commitBringsTheTargetLive : Obligations.CommitBringsTheTargetLive := by
  intro s c told freed shown answered
  have start : s.committing c = s.atop (s.committing c) := rfl
  have merge : (four.foldl State.emptied (s.committing c)).merge = s.merge := rfl
  have playbacks : four.foldl State.commitPlayback (s.committing c)
      = told.atop (four.foldl State.emptied (s.committing c)) := by
    rw [start, State.atop_commitPlaybacks]; rfl
  have parks : (told.atop (four.foldl State.emptied (s.committing c))).releaseParks = s.committed c freed := by
    rw [State.atop_releaseParks, merge]; rfl
  have active : (s.committed c freed).showActive s.bank.active c = s.committed c shown := by
    rw [State.committed, State.atop_showActive]; rfl
  have owed : (s.committed c shown).answerOwed c.owed .ok (b1 c.target.val ++ bBool c.dark ++ b1 (bankCode s.bank.active)
      ++ b1 s.merge.parks.length ++ b4 (if c.dark then c.darkSteps else 0)) = s.committed c answered := by
    rw [State.committed, State.atop_answerOwed]
    rfl
  have all : s.commit c = four.foldl State.startFetch (s.committed c answered) := by
    rw [← owed, ← active, ← parks, ← playbacks]; rfl
  have quiet (q : PbId) : ((s.committed c answered).pb q).pendingGo = none := by
    rw [State.committed, State.atop_pb, State.emptied_four]
    exact congrArg Playback.pendingGo (Four.get_map _ _ _)
  rw [all, State.foldl_startFetch_quiet four quiet, State.committed, State.emptied_four]
  rfl

end Sys2Proof.Machine

/-! The moves of a cue, its back entry, the takeover and the slot table (R47, R48, R68, R69, R89, R90). -/

namespace Sys2Proof.Machine

/-! ### The moves of a cue -/

/-- In the canonical form each entry of a table is found under its number. -/
theorem Assoc.find_of_mem {α : Type} {m : Assoc α} (hwf : Assoc.wf m = true) {e : Nat × α} (he : e ∈ m) :
    Assoc.find m e.1 = some e.2 := by
  rw [Assoc.wf_iff] at hwf
  induction m with
  | nil => simp at he
  | cons a rest ih =>
    rw [List.map_cons, List.pairwise_cons] at hwf
    obtain ⟨first, rises⟩ := hwf
    rw [Assoc.find_cons]
    rcases List.mem_cons.mp he with rfl | hrest
    · exact if_pos rfl
    · rw [if_neg (first e.1 (List.mem_map_of_mem hrest)).ne]
      exact ih rises hrest

theorem Assoc.find_of_notMem {α : Type} {m : Assoc α} {k : Nat} (h : ∀ e ∈ m, e.1 ≠ k) : Assoc.find m k = none := by
  simpa [Assoc.find] using h

/-- A cue moves the channels it names, and a block cue also those above 0 or held by a move (R68). -/
theorem mem_cueChannels (p : PbId) (look : Look) (slots : List Slot) (c : Cue) (ch : Nat) :
    ch ∈ cueChannels p look slots c ↔
      (∃ e ∈ c.levels, e.1 = ch) ∨ (c.block = true ∧ ch ∈ litOrHeld p look slots) := by
  unfold cueChannels
  split_ifs with hb
  · rw [← List.foldl_map (f := fun e : Nat × Nat => e.1) (g := fun l n => insertNat n l), mem_insertNats]
    simp [hb]
  · simp [hb]

theorem cueChannels_rise {p : PbId} {look : Look} (slots : List Slot) {c : Cue} (hc : Assoc.wf c.levels = true)
    (hl : Assoc.wf look = true) : (cueChannels p look slots c).Pairwise (· < ·) := by
  rw [Assoc.wf_iff] at hc hl
  unfold cueChannels
  split_ifs
  · rw [← List.foldl_map (f := fun e : Nat × Nat => e.1) (g := fun l n => insertNat n l)]
    exact pairwise_insertNats _ _ (pairwise_insertNats _ _ hl)
  · exact hc

theorem mem_cueMoves (p : PbId) (look : Look) (slots : List Slot) (c : Cue) (m : Move) :
    m ∈ cueMoves p look slots c ↔ m.channel ∈ cueChannels p look slots c ∧ m.start = look.level m.channel
      ∧ m.target = (Assoc.find c.levels m.channel).getD 0 := by
  unfold cueMoves
  rw [List.mem_map]
  constructor
  · rintro ⟨ch, hch, rfl⟩
    exact ⟨hch, rfl, rfl⟩
  · rintro ⟨hch, hstart, htarget⟩
    exact ⟨m.channel, hch, by rw [← hstart, ← htarget]⟩

theorem map_channel_cueMoves (p : PbId) (look : Look) (slots : List Slot) (c : Cue) :
    (cueMoves p look slots c).map (fun m => m.channel) = cueChannels p look slots c := by
  rw [cueMoves, List.map_map]
  exact List.map_id _

/-- A cue that is no block cue moves exactly what it names (R68). -/
theorem cueMoves_plain (p : PbId) (look : Look) (slots : List Slot) {c : Cue} (hwf : Assoc.wf c.levels = true)
    (hb : c.block = false) : cueMoves p look slots c
      = c.levels.map (fun e => { channel := e.1, start := look.level e.1, target := e.2 }) := by
  rw [cueMoves, cueChannels, if_neg (by simp [hb]), List.map_map]
  refine List.map_congr_left fun e he => ?_
  simp only [Function.comp, Assoc.find_of_mem hwf he, Option.getD_some]

/-- The target of a move is the cue's level, or 0 on a channel that a block cue takes without naming it (R68). -/
theorem mem_cueMoves_iff {p : PbId} {look : Look} {slots : List Slot} {c : Cue} (hwf : Assoc.wf c.levels = true)
    (m : Move) :
    m ∈ cueMoves p look slots c ↔
      m.start = look.level m.channel
      ∧ ((∃ e ∈ c.levels, e.1 = m.channel ∧ e.2 = m.target)
          ∨ (c.block = true ∧ (∀ e ∈ c.levels, e.1 ≠ m.channel) ∧ m.target = 0
              ∧ ((∃ e ∈ look, e.1 = m.channel) ∨ ∃ x ∈ slots, x.playback = p ∧ ∃ y ∈ x.moves, y.channel = m.channel))) := by
  rw [mem_cueMoves, mem_cueChannels, mem_litOrHeld]
  by_cases named : ∃ e ∈ c.levels, e.1 = m.channel
  · obtain ⟨e, he, hch⟩ := named
    have found : Assoc.find c.levels m.channel = some e.2 := hch ▸ Assoc.find_of_mem hwf he
    rw [found, Option.getD_some]
    constructor
    · rintro ⟨-, hstart, htarget⟩
      exact ⟨hstart, .inl ⟨e, he, hch, htarget.symm⟩⟩
    · rintro ⟨hstart, ⟨e', he', hch', htarget⟩ | ⟨-, unnamed, -⟩⟩
      · have same : some e'.2 = some e.2 := by rw [← Assoc.find_of_mem hwf he', hch', found]
        exact ⟨.inl ⟨e, he, hch⟩, hstart, htarget.symm.trans (Option.some.inj same)⟩
      · exact absurd hch (unnamed e he)
  · have unnamed : ∀ e ∈ c.levels, e.1 ≠ m.channel := fun e he hch => named ⟨e, he, hch⟩
    rw [Assoc.find_of_notMem unnamed, Option.getD_none]
    constructor
    · rintro ⟨hch | ⟨hblock, held⟩, hstart, htarget⟩
      · exact absurd hch named
      · exact ⟨hstart, .inr ⟨hblock, unnamed, htarget, held⟩⟩
    · rintro ⟨hstart, ⟨e, he, hch, -⟩ | ⟨hblock, -, htarget, held⟩⟩
      · exact absurd hch (unnamed e he)
      · exact ⟨.inr ⟨hblock, held⟩, hstart, htarget⟩

/-! ### The push onto a back stack -/

/-- Of a stack given oldest first the newest entries are kept, no fewer than the room needs: either the room suffices or all
are dropped, and with one entry more it would not suffice (R69). -/
theorem makeRoom_reverse (need room : Nat) (stack : List BackEntry) : ∃ n ≤ stack.length,
    (makeRoom need room stack.reverse).2 = (stack.take n).reverse
      ∧ (n = 0 ∨ need ≤ (makeRoom need room stack.reverse).1)
      ∧ (n < stack.length → room + stackUse stack < need + stackUse (stack.take (n + 1))) := by
  induction stack using List.reverseRecOn generalizing room with
  | nil => exact ⟨0, Nat.le_refl _, rfl, .inl rfl, fun h => absurd h (Nat.lt_irrefl _)⟩
  | append_singleton stack e ih =>
    rw [List.reverse_append, List.reverse_singleton, List.singleton_append, makeRoom]
    split_ifs with hroom
    · refine ⟨(stack ++ [e]).length, Nat.le_refl _, ?_, .inr hroom, fun h => absurd h (Nat.lt_irrefl _)⟩
      rw [List.take_length, List.reverse_append, List.reverse_singleton, List.singleton_append]
    · obtain ⟨n, hn, kept, enough, more⟩ := ih (room + e.levels.length)
      refine ⟨n, by simp; omega, by rw [kept, List.take_append_of_le_length hn], enough, fun _ => ?_⟩
      have last : stackUse (stack ++ [e]) = stackUse stack + e.levels.length := by simp [stackUse]
      rcases Nat.lt_or_eq_of_le hn with hlt | rfl
      · rw [List.take_append_of_le_length (i := n + 1) hlt]
        have := more hlt
        omega
      · rw [List.take_of_length_le (by simp)]
        omega

/-- A push keeps the newest three entries at most, and of those as many as the back pool has room for; where the new
entry alone does not fit, the stack is left empty (R69). -/
theorem pushBack_spec (stack : List BackEntry) (others : Nat) (e : BackEntry) (hs : stack.length ≤ 4)
    (hu : others + stackUse stack ≤ 8192) :
    (8192 < others + e.levels.length → pushBack stack others e = ([], false))
    ∧ (others + e.levels.length ≤ 8192 → ∃ n : Nat, pushBack stack others e = (e :: stack.take n, true)
        ∧ n ≤ 3 ∧ others + e.levels.length + stackUse (stack.take n) ≤ 8192
        ∧ (n < stack.length → n = 3 ∨ 8192 < others + e.levels.length + stackUse (stack.take (n + 1)))) := by
  have newest : (if Config.backStack ≤ stack.length then stack.dropLast else stack) = stack.take 3 := by
    rw [show Config.backStack = 4 from rfl]
    split_ifs with hfull
    · rw [List.dropLast_eq_take, Nat.le_antisymm hs hfull]
    · rw [List.take_of_length_le (by omega)]
  have use : stackUse (stack.take 3) ≤ stackUse stack :=
    ((List.take_sublist 3 stack).map _).sum_le_sum (fun _ _ => Nat.zero_le _)
  obtain ⟨n, hn, kept, enough, more⟩ :=
    makeRoom_reverse e.levels.length (8192 - (others + stackUse (stack.take 3))) (stack.take 3)
  obtain ⟨trade, -⟩ := makeRoom_spec e.levels.length (8192 - (others + stackUse (stack.take 3))) (stack.take 3).reverse
  have hlen : n ≤ 3 ∧ n ≤ stack.length := by rw [List.length_take] at hn; omega
  have taken : (stack.take 3).take n = stack.take n := by rw [List.take_take, Nat.min_eq_left hlen.1]
  rw [kept, stackUse_reverse, stackUse_reverse, taken] at trade
  unfold pushBack
  dsimp only
  rw [newest, show Config.backPool = 8192 from rfl, kept, taken, List.reverse_reverse]
  refine ⟨fun far => if_neg (by omega), fun fits => ⟨n, if_pos ?_, hlen.1, ?_, fun hlt => ?_⟩⟩
  · rcases enough with rfl | h
    · rw [List.take_zero, show stackUse [] = 0 from rfl] at trade; omega
    · exact h
  · rcases enough with rfl | h
    · rw [List.take_zero, show stackUse [] = 0 from rfl]; omega
    · omega
  · rcases Nat.lt_or_eq_of_le hlen.1 with h3 | h3
    · have := more (by rw [List.length_take]; omega)
      rw [List.take_take, Nat.min_eq_left (a := n + 1) h3] at this
      exact .inr (by omega)
    · exact .inl h3

/-! ### The takeover and the capacity tests -/

/-- The moves of an older slot on channels that new moves do not take (R90). -/
def Slot.movesLeft (y : Slot) (moves : List Move) : List Move :=
  y.moves.filter (fun m => decide (∀ m' ∈ moves, m'.channel ≠ m.channel))

theorem loses_eq (y : Slot) (p : PbId) (moves : List Move) :
    y.loses p moves = if y.playback = p then { y with moves := y.movesLeft moves } else y := by
  have untaken (m : Move) : (!movesChannel moves m.channel) = decide (∀ m' ∈ moves, m'.channel ≠ m.channel) := by
    rw [Bool.eq_iff_iff]
    simp [movesChannel]
  simp only [Slot.loses, Slot.movesLeft, untaken]

/-- A takeover frees the slots of its playback that lose their last move to it (R90; log 22). -/
theorem freedBy_iff (y : Slot) (p : PbId) (moves : List Move) :
    y.freedBy p moves = true ↔ y.playback = p ∧ y.moves ≠ [] ∧ y.movesLeft moves = [] := by
  rw [Slot.freedBy, loses_eq]
  by_cases hp : y.playback = p <;> simp [hp]

theorem mem_takeover (p : PbId) (moves : List Move) (slots : List Slot) (x : Slot) :
    x ∈ takeover p moves slots ↔ ∃ y ∈ slots, ¬ (y.playback = p ∧ y.moves ≠ [] ∧ y.movesLeft moves = [])
      ∧ x = if y.playback = p then { y with moves := y.movesLeft moves } else y := by
  simp only [takeover, List.mem_map, List.mem_filter, Bool.not_eq_true', ← Bool.not_eq_true, freedBy_iff, loses_eq,
    and_assoc, eq_comm (a := x)]

/-- No older slot of the playback keeps a move on a channel that the new moves take (R48, R90). -/
theorem takeover_untaken {p : PbId} {moves : List Move} {slots : List Slot} {x : Slot} (hx : x ∈ takeover p moves slots)
    (hp : x.playback = p) : ∀ m ∈ x.moves, ∀ m' ∈ moves, m'.channel ≠ m.channel := by
  obtain ⟨y, -, -, rfl⟩ := (mem_takeover p moves slots x).mp hx
  split_ifs at hp ⊢ with hy
  · intro m hm
    simpa using (List.mem_filter.mp hm).2
  · exact absurd hp hy

/-- The capacity tests of a CUE or BACK slot: NO_SLOT only where the table is full and the takeover frees no slot, then
POOL_FULL over the moves it leaves (R68). -/
theorem slotRefusal_spec (p : PbId) (moves : List Move) (slots : List Slot) :
    let freed := fun (y : Slot) => y.playback = p ∧ y.moves ≠ [] ∧ y.movesLeft moves = []
    (48 ≤ slots.length → (∀ y ∈ slots, ¬ freed y) → slotRefusal p moves slots = some .noSlot)
    ∧ ((slots.length < 48 ∨ ∃ y ∈ slots, freed y) →
        (16384 < poolUse (takeover p moves slots) + moves.length → slotRefusal p moves slots = some .poolFull)
        ∧ (poolUse (takeover p moves slots) + moves.length ≤ 16384 → slotRefusal p moves slots = none)) := by
  intro freed
  obtain ⟨refused, above, fits⟩ :=
    capacityRefusal_spec slots (takeover p moves slots) (fun sl => sl.freedBy p moves) moves
  have full : (∀ y ∈ slots, y.freedBy p moves = false) ↔ ∀ y ∈ slots, ¬ freed y := by
    simp only [← Bool.not_eq_true, freedBy_iff, freed]
  rw [full] at refused above fits
  refine ⟨fun hl hf => refused ⟨hl, hf⟩, fun room => ?_⟩
  have notFull : ¬ (48 ≤ slots.length ∧ ∀ y ∈ slots, ¬ freed y) := by
    rintro ⟨hl, hf⟩
    rcases room with hlt | ⟨y, hy, hfreed⟩
    · omega
    · exact hf y hy hfreed
  exact ⟨above notFull, fits notFull⟩

/-! ### Numbers and places -/

/-- The free number below which all numbers are taken is the one a new slot gets (R89). -/
theorem freeSlot_eq {slots : List Slot} {n : Nat} (h1 : 1 ≤ n) (h48 : n ≤ 48) (free : ∀ x ∈ slots, x.number ≠ n)
    (taken : ∀ m, 1 ≤ m → m < n → ∃ x ∈ slots, x.number = m) : freeSlot slots = n := by
  have first : (List.range Config.slots).find? ((fun n => slots.all (fun sl => sl.number ≠ n)) ∘ (· + 1))
      = some (n - 1) := by
    rw [List.find?_range_eq_some]
    refine ⟨?_, List.mem_range.mpr (show n - 1 < 48 by omega), fun j hj => ?_⟩
    · simpa [Nat.sub_add_cancel h1] using free
    · simpa using taken (j + 1) (by omega) (by omega)
  rw [freeSlot, List.find?_map, first]
  exact Nat.sub_add_cancel h1

/-- A slot with a number of its own joins the table in ascending number (R89). -/
theorem insertSlot_rises {x : Slot} {slots : List Slot} (hs : (slots.map (fun y => y.number)).Pairwise (· < ·))
    (hx : ∀ y ∈ slots, y.number ≠ x.number) : ((insertSlot x slots).map (fun y => y.number)).Pairwise (· < ·) := by
  induction slots with
  | nil => simp [insertSlot]
  | cons z rest ih =>
    rw [List.map_cons, List.pairwise_cons, List.forall_mem_map] at hs
    obtain ⟨above, rises⟩ := hs
    obtain ⟨hz, hrest⟩ := List.forall_mem_cons.mp hx
    unfold insertSlot
    split_ifs with hlt
    · rw [List.map_cons, List.map_cons, List.pairwise_cons, List.pairwise_cons, List.forall_mem_cons, List.forall_mem_map]
      exact ⟨⟨hlt, fun y hy => hlt.trans (above y hy)⟩, List.forall_mem_map.mpr above, rises⟩
    · rw [List.map_cons, List.pairwise_cons, List.forall_mem_map]
      refine ⟨fun y hy => ?_, ih rises hrest⟩
      rcases (mem_insertSlot x y rest).mp hy with rfl | hy
      · omega
      · exact above y hy

/-! ### The obligation -/

/-- Settles O30: the moves by the channels of the cue, the push by what the room is traded for, the takeover slot by slot,
then the capacity tests, the numbers and the places. -/
theorem movesAndBackEntriesOfACue : Obligations.MovesAndBackEntriesOfACue := by
  refine ⟨fun p look slots c hc hl => ⟨cueMoves_plain p look slots hc, mem_cueMoves_iff hc, ?_⟩,
    fun stack others e hs hu => ?_, fun p moves slots => ?_, fun slots n => freeSlot_eq,
    fun x slots => ⟨insertSlot_perm x slots, insertSlot_rises⟩⟩
  · rw [map_channel_cueMoves, risesStrictly_iff]
    exact cueChannels_rise slots hc hl
  · obtain ⟨far, fits⟩ := pushBack_spec stack others e hs hu
    exact ⟨far, fits, (pushBack_fits stack others e hs hu).1⟩
  · exact ⟨mem_takeover p moves slots, takeover_numbers p moves slots, fun x => takeover_untaken,
      slotRefusal_spec p moves slots⟩

end Sys2Proof.Machine

/-! JUMP and BACK: the standby they set and the fetch they start, over the taking of the request (R54, R61, R73). -/

namespace Sys2Proof.Machine

namespace State

/-! ### What the start of a fetch changes -/

/-- A state over the ports and the slots of another. -/
def onDesk (s d : State) : State := { s with con := d.con, aux := d.aux, slots := d.slots }

theorem onDesk_report (s d : State) (k : Nat) (u : Bool) (b : List Byte) :
    (s.onDesk d).report k u b = (s.report k u b).onDesk d := by
  have role : (s.onDesk d).isFollower = s.isFollower := rfl
  have reports : (s.onDesk d).link = s.link := rfl
  unfold report
  rw [role, reports]
  dsimp only
  split_ifs <;> rfl

theorem onDesk_endAtOnce (s d : State) (p : PbId) (before now : Standby) :
    (s.onDesk d).endAtOnce p before now = (s.endAtOnce p before now).onDesk d := by
  unfold endAtOnce
  dsimp only
  split_ifs
  · rfl
  · exact onDesk_report (s.setPb p { s.pb p with standby := now }) d _ _ _

theorem onDesk_takeStandby (s d : State) (p : PbId) (now : Standby) :
    (s.onDesk d).takeStandby p now = (s.takeStandby p now).onDesk d :=
  onDesk_report (s.setPb p { s.pb p with standby := now, fetch := none }) d _ _ _

/-- The start of a fetch reads and changes neither the ports nor the slots (R54). -/
theorem onDesk_startFetchCore (s d : State) (p : PbId) : (s.onDesk d).startFetchCore p = (s.startFetchCore p).onDesk d := by
  have dropped : (s.onDesk d).dropFetch p = (s.dropFetch p).onDesk d := rfl
  have bank : ((s.dropFetch p).onDesk d).bank = (s.dropFetch p).bank := rfl
  have next : ((s.dropFetch p).onDesk d).successor p = (s.dropFetch p).successor p := rfl
  have list : ((s.dropFetch p).onDesk d).playList p = (s.dropFetch p).playList p := rfl
  have answer (b : Bank) (n : Nat) : ((s.dropFetch p).onDesk d).cueAnswer b p n = (s.dropFetch p).cueAnswer b p n := rfl
  have before : (s.onDesk d).pb p = s.pb p := rfl
  unfold startFetchCore
  dsimp only
  rw [dropped, bank, next, before]
  split
  · rw [list, answer]
    split_ifs
    · exact onDesk_endAtOnce _ d p _ _
    · split
      · exact onDesk_takeStandby _ d p _
      · exact onDesk_takeStandby _ d p _
      · rfl
  · exact onDesk_endAtOnce _ d p _ _

/-- Two states that differ at most in the standby and the fetch in hand of a playback, the Store Controller, and the report
queue with its flag. -/
def FetchesOnly (p : PbId) (s t : State) : Prop := ∃ standby fetch ctl reports lost,
  t = { s.setPb p { s.pb p with standby := standby, fetch := fetch } with
    ctl := ctl, link := { s.link with reports := reports, lost := lost } }

theorem FetchesOnly.trans {p : PbId} {s t u : State} (hst : FetchesOnly p s t) (htu : FetchesOnly p t u) :
    FetchesOnly p s u := by
  obtain ⟨y, f, ctl, reports, lost, rfl⟩ := hst
  obtain ⟨y', f', ctl', reports', lost', rfl⟩ := htu
  refine ⟨y', f', ctl', reports', lost', ?_⟩
  simp [setPb, pb, Four.set_set]

theorem fetchesOnly_setPb (s : State) (p : PbId) (y : Standby) (f : Option Fetch) :
    FetchesOnly p s (s.setPb p { s.pb p with standby := y, fetch := f }) := ⟨y, f, s.ctl, s.link.reports, s.link.lost, rfl⟩

theorem fetchesOnly_report (s : State) (p : PbId) (k : Nat) (u : Bool) (b : List Byte) :
    FetchesOnly p s (s.report k u b) := by
  have same : s.setPb p { s.pb p with standby := (s.pb p).standby, fetch := (s.pb p).fetch } = s := setPb_same s p
  refine ⟨(s.pb p).standby, (s.pb p).fetch, s.ctl, (s.report k u b).link.reports, (s.report k u b).link.lost, ?_⟩
  rw [same]
  unfold report
  dsimp only
  split_ifs <;> rfl

theorem fetchesOnly_endAtOnce (s : State) (p : PbId) (before now : Standby) :
    FetchesOnly p s (s.endAtOnce p before now) := by
  have ended := fetchesOnly_setPb s p now (s.pb p).fetch
  unfold endAtOnce
  dsimp only
  split_ifs
  · exact ended
  · exact ended.trans (fetchesOnly_report _ p _ _ _)

theorem fetchesOnly_takeStandby (s : State) (p : PbId) (now : Standby) : FetchesOnly p s (s.takeStandby p now) :=
  (fetchesOnly_setPb s p now none).trans (fetchesOnly_report _ p _ _ _)

theorem fetchesOnly_dropFetch (s : State) (p : PbId) : FetchesOnly p s (s.dropFetch p) :=
  ⟨(s.pb p).standby, none, (s.dropFetch p).ctl, s.link.reports, s.link.lost, rfl⟩

/-- Everything that the start of a fetch can change (R54). -/
theorem fetchesOnly_startFetchCore (s : State) (p : PbId) : FetchesOnly p s (s.startFetchCore p) := by
  refine (fetchesOnly_dropFetch s p).trans ?_
  unfold startFetchCore
  dsimp only
  split
  · split_ifs
    · exact fetchesOnly_endAtOnce _ _ _ _
    · split
      · exact fetchesOnly_takeStandby _ _ _
      · exact fetchesOnly_takeStandby _ _ _
      · exact ⟨_, _, _, (s.dropFetch p).link.reports, (s.dropFetch p).link.lost, rfl⟩
  · exact fetchesOnly_endAtOnce _ _ _ _

theorem FetchesOnly.pb_same {p : PbId} {s t : State} (h : FetchesOnly p s t) :
    t.pb p = { s.pb p with standby := (t.pb p).standby, fetch := (t.pb p).fetch } := by
  obtain ⟨y, f, ctl, reports, lost, rfl⟩ := h
  have set := pb_setPb_same s p { s.pb p with standby := y, fetch := f }
  simp only [pb] at set ⊢
  rw [set]

theorem FetchesOnly.pb_other {p q : PbId} {s t : State} (h : FetchesOnly p s t) (hq : q ≠ p) : t.pb q = s.pb q := by
  obtain ⟨y, f, ctl, reports, lost, rfl⟩ := h
  exact pb_setPb_other s p q _ hq

theorem FetchesOnly.shell {p : PbId} {s t : State} (h : FetchesOnly p s t) : t.shell = s.shell := by
  obtain ⟨y, f, ctl, reports, lost, rfl⟩ := h
  rfl

/-- With no GO pending the end of the fetch is handed to none (R57). -/
theorem startFetch_quiet {s : State} {p : PbId} (h : (s.pb p).pendingGo = none) : s.startFetch p = s.startFetchCore p :=
  handPending_none (by rw [startFetchCore_pendingGo, h])

/-! ### A request that sets a playback and starts its fetch -/

section Fetching

variable {β : Type} {c : Instr} {s : State} {p : PortId} {code : Nat} {r : Request} {rest : List Request}
  {parse : List Byte → Except Status β} {work : State → Requester → β → State} {v : β}

/-- A request that sets the context of a playback and the slots, starts the fetch and answers: the fetch is that of the
context set, and everything else a playback command could touch stays (R54). -/
theorem settles_fetch (hx : exec c s = .next (s.takeStoreRequest p code parse work)) (hc : code < 256)
    (ht : s.Takes p code r rest) (hp : parse r.body = .ok v) {q : PbId} {x : Playback} {slots : List Slot}
    {fields : List Byte} (hw : work (s.takeOff p rest) (requesterOf p r) v =
      (({ (s.takeOff p rest).setPb q x with slots := slots }).startFetchCore q).answer (requesterOf p r) .ok fields) :
    let u := (s.setPb q x).startFetchCore q
    Settles c s (fun t => s.Answered t p rest [replyTo r .ok fields] ∧ t.slots = slots
      ∧ t.pb q = { x with standby := (t.pb q).standby, fetch := (t.pb q).fetch }
      ∧ (t.pb q = u.pb q ∧ t.ctl = u.ctl ∧ t.link = u.link)
      ∧ (∀ q', q' ≠ q → t.pb q' = s.pb q') ∧ t.shell = s.shell ∧ t.inputs = s.inputs ∧ t.sup = s.sup) := by
  intro u
  have fetched : FetchesOnly q (s.setPb q x) u := fetchesOnly_startFetchCore _ _
  have desk : { (s.takeOff p rest).setPb q x with slots := slots }
      = (s.setPb q x).onDesk { s.takeOff p rest with slots := slots } := by cases p <;> rfl
  rw [desk, onDesk_startFetchCore] at hw
  obtain ⟨t, done⟩ : ∃ t, t = (u.onDesk { s.takeOff p rest with slots := slots }).answer (requesterOf p r) .ok fields :=
    ⟨_, rfl⟩
  have answered : s.Answered t p rest [replyTo r .ok fields] := by
    have h := answered_answer s p r rest .ok fields
    unfold Answered at h ⊢
    rw [done]
    cases p <;> exact h
  have shell : t.shell = u.shell := by
    unfold State.shell
    rw [done, inside_answer]
    cases p <;> rfl
  have pbs (q' : PbId) : t.pb q' = u.pb q' := by rw [done]; exact pb_setPort _ _ _ _
  refine ⟨t, by rw [hx, takeStoreRequest_takes hc ht hp, hw, done], answered, ?_, ?_, ⟨pbs q, ?_, ?_⟩, fun q' hq => ?_,
    shell.trans fetched.shell, ?_, ?_⟩
  · rw [done]; exact answer_slots _ _ _ _
  · rw [pbs]; exact fetched.pb_same.trans (by rw [pb_setPb_same])
  · rw [done]; exact answer_ctl _ _ _ _
  · rw [done]; exact answer_link _ _ _ _
  · exact (pbs q').trans ((fetched.pb_other hq).trans (pb_setPb_other s q q' x hq))
  · rw [done]; exact (answer_inputs _ _ _ _).trans (startFetchCore_inputs (s.setPb q x) q)
  · rw [done]; exact (answer_sup _ _ _ _).trans (startFetchCore_sup (s.setPb q x) q)

end Fetching

/-! ### The work of JUMP -/

section Jumping

variable {s : State} {a : Requester} {q : PbId} {n : Nat} {b : Bank}

/-- With an active bank a playback plays the list of its projection (R46). -/
theorem playList_active (hb : s.bank.active = some b) (q : PbId) : s.playList q = (s.proj b).dir.get q := by
  rw [playList, hb]

theorem jumpWork_noShow (hb : s.bank.active = none) : s.jumpWork a (q, n) = s.answer a .noShow [] :=
  if_pos (by rw [hb]; rfl)

theorem jumpWork_pending (hb : s.bank.active = some b) (hg : (s.pb q).pendingGo ≠ none) :
    s.jumpWork a (q, n) = s.answer a .goPending [] := by
  unfold jumpWork
  dsimp only
  rw [hb, if_neg (by simp), if_pos (Option.isSome_iff_ne_none.mpr hg)]

theorem jumpWork_notFound (hb : s.bank.active = some b) (hg : (s.pb q).pendingGo = none)
    (hf : Assoc.find ((s.proj b).dir.get q) n = none) : s.jumpWork a (q, n) = s.answer a .notFound [] := by
  unfold jumpWork
  dsimp only
  rw [playList_active hb, hb, hg, hf]
  rfl

theorem jumpWork_found (hb : s.bank.active = some b) (hg : (s.pb q).pendingGo = none)
    (hf : Assoc.find ((s.proj b).dir.get q) n ≠ none) : s.jumpWork a (q, n)
      = ((s.setPb q { s.pb q with explicit := some n }).startFetchCore q).answer a .ok (b1 (num q) ++ b2 n) := by
  unfold jumpWork
  dsimp only
  rw [playList_active hb, hb, if_neg (by simp), if_neg (by simp [hg]), if_neg (by simpa using hf),
    startFetch_quiet (by rw [pb_setPb_same]; exact hg)]

end Jumping

/-! ### The work of BACK -/

/-- The moves of a BACK to an entry (R73). -/
def movesBack (s : State) (q : PbId) (top : BackEntry) : List Move := backMoves (s.pb q).look top.levels

/-- The slot of a BACK to an entry (R73, R89). -/
def slotBack (s : State) (q : PbId) (top : BackEntry) : Slot :=
  madeSlot (s.unpausedSlots q) q .back (some top.cue) s.eng.backTime s.eng.backTime 0 0 (s.movesBack q top)

/-- The context of a playback that a BACK has taken to an entry, before its fetch (R73). -/
def wentBack (s : State) (q : PbId) (top : BackEntry) (more : List BackEntry) : Playback :=
  { s.pb q with
    state := .running, look := (s.slotBack q top).writeLook 0 (s.pb q).look, explicit := some top.cue, follow := none,
    back := more }

/-- A state in which a BACK has taken a playback to an entry, before its fetch (R73). -/
def goneBack (s : State) (q : PbId) (top : BackEntry) (more : List BackEntry) : State :=
  { s.setPb q (s.wentBack q top more) with
    slots := insertSlot (s.slotBack q top) (takeover q (s.movesBack q top) (s.unpausedSlots q)) }

/-- With its follow idle a playback leaves HELD by its slots alone (R65). -/
theorem unhold_idle {s : State} {q : PbId} (h : (s.pb q).follow = none) : s.unhold q = s.setPaused q false := by
  have idle : { s.pb q with follow := (s.pb q).follow.map (fun f => { f with paused := false }) } = s.pb q := by
    rw [h, Option.map_none, ← h]
  exact (congrArg ((s.setPaused q false).setPb q) idle).trans (setPb_same (s.setPaused q false) q)

section Backing

variable {s : State} {q : PbId} {top : BackEntry} {more : List BackEntry}

theorem backCommand_empty (hb : (s.pb q).back = []) : s.backCommand q = .error .noBack := by
  unfold backCommand
  dsimp only
  rw [hb]

theorem backCommand_pending (hb : (s.pb q).back = top :: more) (hg : (s.pb q).pendingGo ≠ none) :
    s.backCommand q = .error .goPending := by
  unfold backCommand
  dsimp only
  rw [hb]
  exact if_pos (Option.isSome_iff_ne_none.mpr hg)

theorem backCommand_refused {st : Status} (hb : (s.pb q).back = top :: more) (hg : (s.pb q).pendingGo = none)
    (hr : slotRefusal q (s.movesBack q top) s.slots = some st) : s.backCommand q = .error st := by
  unfold movesBack at hr
  unfold backCommand
  dsimp only
  rw [hb]
  dsimp only
  rw [if_neg (by simp [hg]), hr]

/-- A playback whose follow is made idle and its stack popped, past HELD where it stood in it: only its slots tell (R65). -/
theorem popped_unheld (s : State) (q : PbId) (more : List BackEntry) :
    (if (s.pb q).state = .held then (s.setPb q { s.pb q with back := more, follow := none }).unhold q
      else s.setPb q { s.pb q with back := more, follow := none })
      = { s.setPb q { s.pb q with back := more, follow := none } with slots := s.unpausedSlots q } := by
  unfold unpausedSlots
  split_ifs
  · exact unhold_idle (by rw [pb_setPb_same])
  · rfl

/-- A BACK that is taken: the entry popped, its slot made, its cue the explicit standby, and the fetch started (R73). -/
theorem backCommand_taken (hb : (s.pb q).back = top :: more) (hg : (s.pb q).pendingGo = none)
    (hr : slotRefusal q (s.movesBack q top) s.slots = none) :
    s.backCommand q = .ok ((s.goneBack q top more).startFetchCore q,
      { cue := top.cue, slot := (s.slotBack q top).number, depth := more.length }) := by
  have quiet : ((s.goneBack q top more).pb q).pendingGo = none :=
    (congrArg Playback.pendingGo (pb_setPb_same s q (s.wentBack q top more))).trans hg
  rw [← startFetch_quiet quiet]
  unfold movesBack at hr
  unfold backCommand
  dsimp only
  rw [hb]
  dsimp only
  rw [if_neg (by simp [hg]), hr]
  dsimp only
  rw [popped_unheld]
  simp [goneBack, wentBack, slotBack, movesBack, createSlot, newSlot, madeSlot, setPb, pb, Four.set_set]

theorem backWork_error {a : Requester} {st : Status} (h : s.backCommand q = .error st) :
    s.backWork a q = s.answer a st [] := by rw [backWork, h]

theorem backWork_taken {a : Requester} (hb : (s.pb q).back = top :: more) (hg : (s.pb q).pendingGo = none)
    (hr : slotRefusal q (s.movesBack q top) s.slots = none) : s.backWork a q
      = ((s.goneBack q top more).startFetchCore q).answer a .ok
          (b1 (num q) ++ b2 top.cue ++ b2 (s.slotBack q top).number ++ b2 more.length) := by
  rw [backWork, backCommand_taken hb hg hr]

end Backing

end State

/-! ### The bodies of JUMP and BACK -/

theorem parsePlayback_eq (q : PbId) : parsePlayback (b1 (num q)) = .ok q := sized_some rfl (idx4_byteAt q [])

theorem parseJump_eq (q : PbId) {n : Nat} (h1 : 1 ≤ n) (h2 : n ≤ 9999) : parseJump (b1 (num q) ++ b2 n) = .ok (q, n) := by
  have number : wordAt (b1 (num q) ++ b2 n) 1 = n := wordAt_byte (by omega) []
  have playback : idx4 (byteAt (b1 (num q) ++ b2 n) 0) = some q := idx4_byteAt q _
  exact sized_some rfl (by rw [playback, number, Option.bind_some, if_pos ((isCueNumber_iff n).mpr ⟨h1, h2⟩)])

/-! ### The obligations -/

/-- Settles O33: the refusals are the tests of the work in turn, and past them the fetch is that of the context with the cue
as its explicit standby (`State.settles_fetch`). -/
theorem jumpSetsTheStandby : Obligations.JumpSetsTheStandby := by
  intro s p r rest q n hd hu hh hb h1 h2
  have ht : s.Takes p 0x34 r rest := State.takes_of .playback false hd hu rfl (.inr hh) (State.mustWait_free s rfl rfl)
  have hp : parseJump r.body = .ok (q, n) := hb ▸ parseJump_eq q h1 h2
  have bank : (s.takeOff p rest).bank.active = s.bank.active := by rw [State.takeOff_bank]
  have context : (s.takeOff p rest).pb q = s.pb q := State.pb_setPort _ _ _ _
  have list (b : Bank) : ((s.takeOff p rest).proj b).dir.get q = (s.proj b).dir.get q := by rw [State.proj_takeOff]
  refine ⟨fun ha => ?_, fun b ha => ⟨fun hg => ?_, fun hg hf => ?_, fun hg hf => ?_⟩⟩
  · exact State.answers_of rfl (by decide) ht hp (State.jumpWork_noShow (bank.trans ha))
  · exact State.answers_of rfl (by decide) ht hp (State.jumpWork_pending (bank.trans ha) (by rwa [context]))
  · exact State.answers_of rfl (by decide) ht hp
      (State.jumpWork_notFound (bank.trans ha) (by rwa [context]) (by rwa [list]))
  · have found := State.jumpWork_found (a := requesterOf p r) (bank.trans ha) (by rwa [context]) (by rwa [list])
    rw [context] at found
    obtain ⟨t, hx, answered, slots, here, fetch, others, kept⟩ := State.settles_fetch (c := .jump p) (slots := s.slots)
      rfl (by decide) ht hp (found.trans (by cases p <;> rfl))
    exact ⟨t, hx, answered, here, fetch, others, slots, kept⟩

/-- Settles O31: the refusals are the tests of the work in turn, and past them the fetch is that of the context that went
back (`State.settles_fetch`). -/
theorem backReturnsToThePriorLevels : Obligations.BackReturnsToThePriorLevels := by
  intro s p r rest q hd hu hh hb
  have ht : s.Takes p 0x31 r rest := State.takes_of .playback false hd hu rfl (.inr hh) (State.mustWait_free s rfl rfl)
  have hp : parsePlayback r.body = .ok q := hb ▸ parsePlayback_eq q
  have context : (s.takeOff p rest).pb q = s.pb q := State.pb_setPort _ _ _ _
  refine ⟨fun hback => ?_, fun top more hback => ?_⟩
  · exact State.answers_of rfl (by decide) ht hp (State.backWork_error (State.backCommand_empty (by rwa [context])))
  have stack : ((s.takeOff p rest).pb q).back = top :: more := by rwa [context]
  have moves : (s.takeOff p rest).movesBack q top = s.movesBack q top := by rw [State.movesBack, context]; rfl
  have refusal : slotRefusal q ((s.takeOff p rest).movesBack q top) (s.takeOff p rest).slots
      = slotRefusal q (s.movesBack q top) s.slots := by rw [moves, State.takeOff_slots]
  refine ⟨fun hg => ?_, fun st hg hr => ?_, fun hg hr => ?_⟩
  · exact State.answers_of rfl (by decide) ht hp (State.backWork_error (State.backCommand_pending stack (by rwa [context])))
  · exact State.answers_of rfl (by decide) ht hp 
      (State.backWork_error (State.backCommand_refused stack (by rwa [context]) (refusal.trans hr)))
  · have taken := State.backWork_taken (a := requesterOf p r) stack (by rwa [context]) (refusal.trans hr)
    have slot : (s.takeOff p rest).slotBack q top = s.slotBack q top := by cases p <;> rfl
    have went : (s.takeOff p rest).wentBack q top more = s.wentBack q top more := by cases p <;> rfl
    have unpaused : (s.takeOff p rest).unpausedSlots q = s.unpausedSlots q := by cases p <;> rfl
    rw [State.goneBack, slot, went, moves, unpaused] at taken
    obtain ⟨t, hx, answered, slots, here, fetch, kept⟩ := State.settles_fetch (c := .back p) rfl (by decide) ht hp taken
    exact ⟨t, hx, answered, slots, congrArg Playback.state here, congrArg Playback.look here,
      (congrArg Playback.lastRun here).trans rfl, congrArg Playback.explicit here, congrArg Playback.follow here,
      congrArg Playback.back here, (congrArg Playback.master here).trans rfl, (congrArg Playback.pendingGo here).trans hg,
      fetch, kept⟩

end Sys2Proof.Machine

/-! The reads of the playbacks and of the fade slots: PLAYBACK_READ, SLOT_READ (R83, R103). -/

namespace Sys2Proof.Machine

/-! ### The bodies of the two reads -/

theorem parsePlayback_bad {b : List Byte} (hl : b.length = 1) (h : byteAt b 0 < 1 ∨ 4 < byteAt b 0) :
    parsePlayback b = .error .badValue := sized_none hl (idx4_none h)

theorem parseSlotRead_slot {b : List Byte} (hl : b.length = 3) (h1 : 1 ≤ byteAt b 0) (h2 : byteAt b 0 ≤ 48)
    (h3 : wordAt b 1 ≤ 1535) : parseSlotRead b = .ok (byteAt b 0, wordAt b 1) := sized_some hl (if_pos ⟨h1, h2, h3⟩)

theorem parseSlotRead_bad {b : List Byte} (hl : b.length = 3)
    (h : byteAt b 0 < 1 ∨ 48 < byteAt b 0 ∨ 1535 < wordAt b 1) : parseSlotRead b = .error .badValue := by
  refine sized_none hl (if_neg ?_)
  rintro ⟨h1, h2, h3⟩
  have h2 : byteAt b 0 ≤ 48 := h2
  omega

/-! ### The replies -/

theorem pendingGoFields_eq (g : Option PendingGo) : pendingGoFields g = match g with
    | none => b1 0 ++ b1 0
    | some g => b1 g.source.code ++ b1 g.source.inputNo := by cases g <;> rfl

theorem Slot.moveFields_eq (x : Slot) : x.moveFields = fun m =>
    b2 m.channel ++ b2 m.start ++ b2 m.target ++ b2 (x.level m x.elapsed) := rfl

namespace State

/-- The fields of a PLAYBACK_READ reply (R83). -/
def playbackFields (s : State) (q : PbId) : List Byte :=
  b1 (num q) ++ b1 (s.pb q).state.code ++ b2 (s.pb q).master
    ++ b2 (((s.pb q).lastRun.map (fun l => l.number)).getD 0) ++ bOpt ((s.pb q).lastRun.bind (fun l => l.link))
    ++ b2 ((s.pb q).explicit.getD 0)
    ++ b1 (s.pb q).standby.code ++ b2 (s.pb q).standby.number ++ b1 (s.pb q).standby.source
    ++ pendingGoFields (s.pb q).pendingGo
    ++ bOpt ((s.pb q).follow.map (fun f => f.steps)) ++ bBool (((s.pb q).follow.map (fun f => f.paused)).getD false)
    ++ b1 (s.pb q).back.length ++ (s.pb q).back.flatMap (fun e => b2 e.cue ++ b2 e.levels.length)
    ++ b1 (s.slotsOf q).length ++ (s.slotsOf q).flatMap (fun x => b1 x.number)
    ++ b2 (s.pb q).look.length ++ b2 s.backUse

theorem playbackReadWork_eq (s : State) (a : Requester) (q : PbId) :
    s.playbackReadWork a q = s.answer a .ok (s.playbackFields q) := rfl

theorem playbackFields_takeOff (s : State) (p : PortId) (rest : List Request) (q : PbId) :
    (s.takeOff p rest).playbackFields q = s.playbackFields q := by cases p <;> rfl

/-- The fields of a SLOT_READ reply: a slot and its moves from a place on (R103). -/
def slotFields (s : State) (x : Slot) (first : Nat) : List Byte :=
  b1 x.number ++ b1 (num x.playback) ++ b1 x.kind.code ++ b2 (x.cue.getD 0) ++ b2 x.up ++ b2 x.down ++ b2 x.upDelay
    ++ b2 x.downDelay ++ b4 x.elapsed ++ b4 x.finish ++ bBool x.paused ++ b2 x.moves.length
    ++ b1 s.slots.length ++ b2 (poolUse s.slots) ++ b2 first ++ b2 ((x.moves.drop first).take 100).length
    ++ ((x.moves.drop first).take 100).flatMap x.moveFields

theorem slotFields_takeOff (s : State) (p : PortId) (rest : List Request) (x : Slot) (first : Nat) :
    (s.takeOff p rest).slotFields x first = s.slotFields x first := by cases p <;> rfl

theorem slotReadWork_free {s : State} {n : Nat} (h : s.slots.find? (fun x => x.number = n) = none) (a : Requester)
    (first : Nat) : s.slotReadWork a (n, first) = s.answer a .notFound [] := by
  unfold slotReadWork
  dsimp only
  rw [h]

theorem slotReadWork_used {s : State} {n : Nat} {x : Slot} (h : s.slots.find? (fun x => x.number = n) = some x)
    (a : Requester) (first : Nat) : s.slotReadWork a (n, first) = s.answer a .ok (s.slotFields x first) := by
  unfold slotReadWork
  dsimp only
  rw [h]
  rfl

end State

/-! ### The obligation -/

/-- Settles O15: each read's body as its parser reads it, and the fields of its reply, which do not depend on the request
queues. -/
theorem playbacksAndSlotsAreRead : Obligations.PlaybacksAndSlotsAreRead := by
  refine ⟨fun s p r rest hd hu => ?_, fun s p r rest hd hu => ?_⟩
  · have ht : s.Takes p 0x05 r rest := State.takes_always hd hu rfl (State.mustWait_free s rfl rfl)
    have bad {st : Status} (hp : parsePlayback r.body = .error st) : Refuses (.playbackRead p) s p r rest st :=
      State.refuses_body rfl (by decide) hd (State.read_gate hu rfl) hp
    refine ⟨fun hl => bad (sized_length hl), fun hl h => bad (parsePlayback_bad hl h), fun q hq => ?_⟩
    have read : Does (.playbackRead p) s p r rest .ok (s.playbackFields q) s :=
      State.does_at_once rfl (by decide) ht (hq ▸ parsePlayback_eq q)
        (by rw [State.playbackReadWork_eq, State.playbackFields_takeOff])
    rwa [State.playbackFields, pendingGoFields_eq] at read
  · intro n first
    have ht : s.Takes p 0x0F r rest := State.takes_always hd hu rfl (State.mustWait_free s rfl rfl)
    have bad {st : Status} (hp : parseSlotRead r.body = .error st) : Refuses (.slotRead p) s p r rest st :=
      State.refuses_body rfl (by decide) hd (State.read_gate hu rfl) hp
    refine ⟨fun hl => bad (sized_length hl), fun hl h => bad (parseSlotRead_bad hl h), fun hl h1 h2 h3 => ?_⟩
    have hp : parseSlotRead r.body = .ok (n, first) := parseSlotRead_slot hl h1 h2 h3
    have slots : (s.takeOff p rest).slots = s.slots := State.takeOff_slots s p rest
    refine ⟨fun hfree => ?_, fun x hx => ?_⟩
    · exact State.does_at_once rfl (by decide) ht hp (State.slotReadWork_free (by rwa [slots]) _ _)
    · have number : x.number = n := by simpa using List.find?_some hx
      have read : Does (.slotRead p) s p r rest .ok (s.slotFields x first) s :=
        State.does_at_once rfl (by decide) ht hp
          (by rw [State.slotReadWork_used (by rwa [slots]), State.slotFields_takeOff])
      rwa [State.slotFields, Slot.moveFields_eq, number] at read

end Sys2Proof.Machine

/-! HOLD and RESUME (R65, R74, R75). -/

namespace Sys2Proof.Machine

namespace State

/-! ### The pause of a playback's slots -/

/-- A pause does not bear on how many slots a playback has. -/
theorem length_slotsOf_setPaused (s : State) (p q : PbId) (b : Bool) :
    ((s.setPaused q b).slotsOf p).length = (s.slotsOf p).length := by
  have owner : (fun x : Slot => decide (x.playback = p)) ∘ (fun x => if x.playback = q then { x with paused := b } else x)
      = fun x => decide (x.playback = p) := funext fun x => by simp only [Function.comp]; split_ifs <;> rfl
  rw [slotsOf, setPaused_slots, pausedSlots, List.filter_map, List.length_map, owner, slotsOf]

theorem enterHeld_takeOff (s : State) (p : PortId) (rest : List Request) (q : PbId) :
    (s.takeOff p rest).enterHeld q = (s.enterHeld q).takeOff p rest := by cases p <;> rfl

theorem enterHeld_pb_same (s : State) (q : PbId) : (s.enterHeld q).pb q = { s.pb q with
    state := .held, follow := (s.pb q).follow.map (fun f => { f with paused := true, due := false }) } :=
  pb_setPb_same _ _ _

theorem length_slotsOf_enterHeld (s : State) (p q : PbId) :
    ((s.enterHeld q).slotsOf p).length = (s.slotsOf p).length := length_slotsOf_setPaused s p q true

/-- A playback that has left HELD by a RESUME: its slots and its follow timer go on (R65, R75). -/
def resumed (s : State) (q : PbId) : State :=
  (s.setPaused q false).setPb q { s.pb q with
    state := if (s.slotsOf q).length = 0 then .settled else .running,
    follow := (s.pb q).follow.map (fun f => { f with paused := false }) }

theorem resumed_takeOff (s : State) (p : PortId) (rest : List Request) (q : PbId) :
    (s.takeOff p rest).resumed q = (s.resumed q).takeOff p rest := by cases p <;> rfl

/-! ### The commands -/

section Holding

variable {s : State} {q : PbId}

theorem holdCommand_playing (h : (s.pb q).state = .running ∨ ((s.pb q).state = .settled ∧ (s.pb q).follow ≠ none)) :
    s.holdCommand q = .ok (s.enterHeld q) := by
  unfold holdCommand
  obtain hr | ⟨hs, hf⟩ := h
  · rw [hr]
  · rw [hs]
    exact if_pos (Option.isSome_iff_ne_none.mpr hf)

theorem holdCommand_held (h : (s.pb q).state = .held) : s.holdCommand q = .ok s := by
  rw [holdCommand, h]

theorem holdCommand_idle (h : (s.pb q).state = .empty ∨ ((s.pb q).state = .settled ∧ (s.pb q).follow = none)) :
    s.holdCommand q = .error .idlePlayback := by
  unfold holdCommand
  obtain he | ⟨hs, hf⟩ := h
  · rw [he]
  · rw [hs]
    exact if_neg (by rw [hf]; decide)

theorem resumeCommand_held (h : (s.pb q).state = .held) : s.resumeCommand q = .ok (s.resumed q) := by
  have left : (s.unhold q).pb q = { s.pb q with follow := (s.pb q).follow.map (fun f => { f with paused := false }) } :=
    pb_setPb_same _ _ _
  have slots : ((s.unhold q).slotsOf q).isEmpty = true ↔ (s.slotsOf q).length = 0 := by
    rw [List.isEmpty_iff_length_eq_zero, ← length_slotsOf_setPaused s q q false]
    rfl
  unfold resumeCommand
  rw [if_pos h]
  dsimp only
  rw [left, unhold, setPb_setPb, resumed]
  simp only [← slots]
  rfl

theorem resumeCommand_other (h : (s.pb q).state ≠ .held) : s.resumeCommand q = .error .idlePlayback := if_neg h

end Holding

/-! ### The replies -/

section Replying

variable {s t : State} {q : PbId} {a : Requester}

theorem holdWork_ok (h : s.holdCommand q = .ok t) : s.holdWork a q = t.answer a .ok (b1 (num q)
    ++ b2 (t.pb q).state.code ++ b2 (t.slotsOf q).length ++ bOpt ((t.pb q).follow.map (·.steps))) := by
  rw [holdWork, h]

theorem holdWork_error {st : Status} (h : s.holdCommand q = .error st) : s.holdWork a q = s.answer a st [] := by
  rw [holdWork, h]

theorem resumeWork_ok (h : s.resumeCommand q = .ok t) :
    s.resumeWork a q = t.answer a .ok (b1 (num q) ++ b2 (t.pb q).state.code) := by
  rw [resumeWork, h]

theorem resumeWork_error {st : Status} (h : s.resumeCommand q = .error st) : s.resumeWork a q = s.answer a st [] := by
  rw [resumeWork, h]

end Replying

end State

/-! ### The obligation -/

/-- Settles O32, by the state of the playback: what each command makes of it, and the reply that tells its new state. -/
theorem holdPausesAndResumeGoesOn : Obligations.HoldPausesAndResumeGoesOn := by
  intro s p r rest q hu hh hb count
  have hp : parsePlayback r.body = .ok q := hb ▸ parsePlayback_eq q
  have context : (s.takeOff p rest).pb q = s.pb q := State.pb_setPort _ _ _ _
  have slots : (s.takeOff p rest).slotsOf q = s.slotsOf q := by rw [State.slotsOf, State.takeOff_slots]; rfl
  refine ⟨fun hd => ?_, fun hd => ?_⟩
  · have ht : s.Takes p 0x32 r rest := State.takes_of .playback false hd hu rfl (.inr hh) (State.mustWait_free s rfl rfl)
    refine ⟨fun h => ?_, fun h => ?_, fun h => ?_⟩
    · refine State.does_change (u := s.enterHeld q) rfl (by decide) ht hp ?_ (fun x => by cases x <;> rfl) rfl rfl
      rw [State.holdWork_ok (State.holdCommand_playing (by rwa [context])), State.enterHeld_pb_same,
        State.length_slotsOf_enterHeld, slots, context, State.enterHeld_takeOff, Option.map_map]
      rfl
    · refine State.does_at_once rfl (by decide) ht hp ?_
      rw [State.holdWork_ok (State.holdCommand_held (by rwa [context])), slots, context, h]
      rfl
    · refine State.does_at_once rfl (by decide) ht hp ?_
      rw [State.holdWork_error (State.holdCommand_idle (by rwa [context]))]
  · have ht : s.Takes p 0x33 r rest := State.takes_of .playback false hd hu rfl (.inr hh) (State.mustWait_free s rfl rfl)
    refine ⟨fun h => ?_, fun h => ?_⟩
    · refine State.does_change (u := s.resumed q) rfl (by decide) ht hp ?_ (fun x => by cases x <;> rfl) rfl rfl
      have state : (((s.resumed q).takeOff p rest).pb q).state = if count = 0 then .settled else .running := by
        have there : ((s.resumed q).takeOff p rest).pb q = (s.resumed q).pb q := State.pb_setPort _ _ _ _
        rw [there, State.resumed, State.pb_setPb_same]
        rfl
      have code : (if count = 0 then PbState.settled else .running).code = if count = 0 then 3 else 1 := by
        split_ifs <;> rfl
      rw [State.resumeWork_ok (State.resumeCommand_held (by rwa [context])), State.resumed_takeOff, state, code]
    · refine State.does_at_once rfl (by decide) ht hp ?_
      rw [State.resumeWork_error (State.resumeCommand_other (by rwa [context]))]

end Sys2Proof.Machine

/-! The follow timers and GO as a follow, a port or an input makes it (R66, R71, R72). -/

namespace Sys2Proof.Machine

namespace State

/-! ### GO, by the standby it meets -/

section Going

variable {s : State} {q : PbId} {src : GoSource} {o : Option Nat} {adj : Bool}

theorem goCommand_noShow (hb : s.bank.active = none) : s.goCommand q src o adj = s.endGo q src .noShow :=
  if_pos (by rw [hb]; rfl)

theorem goCommand_none (hb : s.bank.active ≠ none) (h : (s.pb q).standby = .none) :
    s.goCommand q src o adj = s.endGo q src .endOfList := by
  unfold goCommand
  rw [if_neg (by simpa using hb), h]

theorem goCommand_missing (hb : s.bank.active ≠ none) {n : Nat} {from_ : Source} (h : (s.pb q).standby = .missing n from_) :
    s.goCommand q src o adj = s.endGo q src .notFound := by
  unfold goCommand
  rw [if_neg (by simpa using hb), h]

theorem goCommand_bad (hb : s.bank.active ≠ none) {n : Nat} {from_ : Source} (h : (s.pb q).standby = .bad n from_) :
    s.goCommand q src o adj = s.endGo q src .checkFailed := by
  unfold goCommand
  rw [if_neg (by simpa using hb), h]

theorem goCommand_second (hb : s.bank.active ≠ none) {n : Nat} {from_ : Source}
    (h : (s.pb q).standby = .fetching n from_) (hg : (s.pb q).pendingGo ≠ none) :
    s.goCommand q src o adj = s.endGo q src .goPending := by
  unfold goCommand
  rw [if_neg (by simpa using hb), h]
  exact if_pos (Option.isSome_iff_ne_none.mpr hg)

theorem goCommand_fetching (hb : s.bank.active ≠ none) {n : Nat} {from_ : Source}
    (h : (s.pb q).standby = .fetching n from_) (hg : (s.pb q).pendingGo = none) :
    s.goCommand q src o adj = s.makePending q src o adj := by
  unfold goCommand
  rw [if_neg (by simpa using hb), h]
  exact if_neg (by rw [hg]; decide)

theorem goCommand_ready (hb : s.bank.active ≠ none) {b : Bank} {l : PbId} {from_ : Source} {c : Cue}
    (h : (s.pb q).standby = .ready b l from_ c) (hg : (s.pb q).pendingGo = none) :
    s.goCommand q src o adj = s.goTake q src o adj c := by
  unfold goCommand
  rw [if_neg (by simpa using hb), h]
  exact if_neg (by rw [hg]; decide)

/-- A GO on a READY standby that the capacity tests refuse (R68). -/
theorem goTake_refused {c : Cue} {st : Status}
    (hr : slotRefusal q (cueMoves q (s.pb q).look s.slots c) s.slots = some st) :
    s.goTake q src o adj c = s.endGo q src st := by
  unfold goTake
  dsimp only
  rw [hr]

end Going

/-- The capacity tests of a CUE or BACK slot refuse with no other status than NO_SLOT and POOL_FULL (R68). -/
theorem slotRefusal_status {p : PbId} {moves : List Move} {slots : List Slot} {st : Status}
    (h : slotRefusal p moves slots = some st) : st = .noSlot ∨ st = .poolFull := by
  unfold slotRefusal capacityRefusal at h
  split_ifs at h <;> cases h
  · exact .inl rfl
  · exact .inr rfl

/-- A follow whose GO is refused by the capacity tests raises FOLLOW_REFUSED (R72). -/
theorem endGo_follow_refused (s : State) (p : PbId) {st : Status} (h : st = .noSlot ∨ st = .poolFull) :
    s.endGo p .follow st = s.raise
      { kind := .followRefused, critical := false, value := st.code, playback := some p, cue := none, bank := none,
        stage := none, time := s.sup.showTime } := if_pos h

/-! ### The count of the follow timers -/

theorem countFollows_halted {s : State} (h : s.sup.halted = true) : s.countFollows = s := if_pos h

/-- The playbacks with each follow timer counted once (R71). -/
theorem countFollows_normal {s : State} (h : s.sup.halted = false) : s.countFollows
    = { s with eng := { s.eng with pb := s.eng.pb.map (fun x => { x with follow := x.follow.map FollowTimer.count }) } } :=
  if_neg (by rw [h]; decide)

/-! ### The expiry of a follow timer -/

section Expiring

variable {s : State} {p : PbId}

theorem exec_followExpiry (s : State) (p : PbId) : exec (.followExpiry (num p)) s = .next (s.expireFollow p) := by
  have number := idx4_num p
  change execFollowExpiry (num p) s = _
  rw [execFollowExpiry, number]

theorem exec_followExpiry_none (s : State) {n : Nat} (h : n = 0 ∨ 4 < n) : exec (.followExpiry n) s = .next s := by
  have number : idx4 n = none := idx4_none (by omega)
  change execFollowExpiry n s = _
  rw [execFollowExpiry, number]

theorem expireFollow_quiet (h : (s.pb p).follow = none ∨ s.sup.halted = true ∨ ∃ f, (s.pb p).follow = some f ∧ f.due = false) :
    s.expireFollow p = s := by
  unfold expireFollow
  cases hf : (s.pb p).follow with
  | none => rfl
  | some f =>
    refine if_neg ?_
    rintro ⟨hdue, hn⟩
    obtain h | h | ⟨g, hg, hlate⟩ := h
    · rw [hf] at h; cases h
    · rw [hn] at h; cases h
    · cases hf.symm.trans hg
      rw [hdue] at hlate; cases hlate

/-- A follow timer that is due is idle from its expiry on, which acts as a GO (R72). -/
theorem expireFollow_due {f : FollowTimer} (hf : (s.pb p).follow = some f) (hd : f.due = true)
    (hh : s.sup.halted = false) : s.expireFollow p
      = ((s.setPb p { s.pb p with follow := none }).goCommand p .follow none false).settle := by
  unfold expireFollow
  rw [hf]
  exact if_pos ⟨hd, hh⟩

end Expiring

end State

/-! ### The obligation -/

/-- Settles O35: the count timer by timer, and the expiry as the GO that each standby makes of it. -/
theorem followsCountAndExpire : Obligations.FollowsCountAndExpire := by
  intro s
  refine ⟨fun hh => congrArg Host.Outcome.next (State.countFollows_halted hh), fun hh => ⟨_, rfl, ?_, fun p => ?_⟩,
    fun p h => ?_, fun n => State.exec_followExpiry_none s, fun p f hf hd hh hrole hb => ?_⟩
  · rw [State.countFollows_normal hh]
  · rw [State.countFollows_normal hh, State.pb, Four.get_map]
    rfl
  · rw [State.exec_followExpiry, State.expireFollow_quiet h]
  intro idle fault
  have context : idle.pb p = { s.pb p with follow := none } := State.pb_setPb_same _ _ _
  have bank : idle.bank.active ≠ none := hb
  have expires : exec (.followExpiry (num p)) s = .next (idle.goCommand p .follow none false).settle := by
    rw [State.exec_followExpiry, State.expireFollow_due hf hd hh]
  have raised {kind : EngineFaultKind} {value : Nat} : idle.raise
      { kind := kind, critical := false, value := value, playback := some p, cue := none, bank := none, stage := none,
        time := idle.sup.showTime } = fault kind value := State.raise_engine (s := idle) hrole _
  refine ⟨fun b l src c hs hg => ?_, fun n src hs => ?_, fun h => ?_, fun n src hs hg => ?_⟩
  · have ready := State.goCommand_ready (src := .follow) (o := none) (adj := false) bank
      (show (idle.pb p).standby = .ready b l src c by rw [context]; exact hs) (by rw [context]; exact hg)
    have tests : slotRefusal p (cueMoves p (idle.pb p).look idle.slots c) idle.slots
        = slotRefusal p (cueMoves p (s.pb p).look s.slots c) s.slots := by rw [context]; rfl
    refine ⟨fun _ => by rw [expires, ready], fun st hr => ?_⟩
    rw [expires, ready, State.goTake_refused (tests.trans hr),
      State.endGo_follow_refused _ _ (State.slotRefusal_status hr), raised]
  · have missing : (idle.pb p).standby = .missing n src := by rw [context]; exact hs
    rw [expires, State.goCommand_missing bank missing, State.endGo_follow_missing _ _ missing, raised]
  · have spent : idle.goCommand p .follow none false = idle := by
      obtain hs | ⟨n, src, hs⟩ | ⟨n, src, hs, hg⟩ := h
      · rw [State.goCommand_none bank (by rw [context]; exact hs)]; rfl
      · rw [State.goCommand_bad bank (n := n) (from_ := src) (by rw [context]; exact hs)]; rfl
      · rw [State.goCommand_second bank (n := n) (from_ := src) (by rw [context]; exact hs) (by rw [context]; exact hg)]
        rfl
    rw [expires, spent]
  · rw [expires, State.goCommand_fetching bank (n := n) (from_ := src) (by rw [context]; exact hs)
      (by rw [context]; exact hg)]
    rfl

end Sys2Proof.Machine

/-! The cue inputs: their debounce, the actions of a debounced change, and the results of the actions (R80 to R82). -/

namespace Sys2Proof.Machine

/-! ### The action that a debounced change makes -/

/-- A closing contact makes its setting's action, and an opening one a RESUME where the setting is HOLD (R81). -/
theorem InputSetting.action_some {a : InputSetting} {closed : Bool} (h : closed = true ∨ a = .hold) :
    a.action closed = some (if a = .hold then (if closed then .hold else .resume) else if a = .back then .back else .go) := by
  obtain rfl | rfl := h
  · cases a <;> rfl
  · cases closed <;> rfl

theorem InputSetting.action_opens {a : InputSetting} (h : a ≠ .hold) : a.action false = none := by
  cases a with
  | go => rfl
  | back => rfl
  | hold => exact absurd rfl h

namespace State

/-! ### The contact and its timer -/

theorem exec_contactChange (s : State) (i : Fin 4) (c : Bool) :
    exec (.contactChange (num i) c) s = .next (s.changeContact i c) := by
  have number := idx4_num i
  change execContactChange (num i) c s = _
  rw [execContactChange, number]

theorem exec_debounceExpiry (s : State) (i : Fin 4) : exec (.debounceExpiry (num i)) s = .next (s.debounce i) := by
  have number := idx4_num i
  change execDebounceExpiry (num i) s = _
  rw [execDebounceExpiry, number]

theorem exec_contactChange_none (s : State) {n : Nat} (h : n = 0 ∨ 4 < n) (c : Bool) :
    exec (.contactChange n c) s = .next s := by
  have number : idx4 n = none := idx4_none (by omega)
  change execContactChange n c s = _
  rw [execContactChange, number]

theorem exec_debounceExpiry_none (s : State) {n : Nat} (h : n = 0 ∨ 4 < n) : exec (.debounceExpiry n) s = .next s := by
  have number : idx4 n = none := idx4_none (by omega)
  change execDebounceExpiry n s = _
  rw [execDebounceExpiry, number]

/-- A state in which the stability timer of an input has expired, and its raw contact is its debounced state (R80). -/
def debounced (s : State) (i : Fin 4) : State :=
  { s with inputs := s.inputs.set i { s.inputs.get i with timer := false, closed := (s.inputs.get i).raw } }

theorem debounced_input (s : State) (i : Fin 4) : (s.debounced i).inputs.get i
    = { s.inputs.get i with timer := false, closed := (s.inputs.get i).raw } := Four.get_set_same _ _ _

section Debounce

variable {s : State} {i : Fin 4}

theorem debounce_stopped (h : (s.inputs.get i).timer = false) : s.debounce i = s := if_pos h

theorem debounce_same (ht : (s.inputs.get i).timer = true) (h : (s.inputs.get i).raw = (s.inputs.get i).closed) :
    s.debounce i = s.debounced i :=
  (if_neg (by rw [ht]; decide)).trans (if_pos h)

theorem debounce_changed (ht : (s.inputs.get i).timer = true) (h : (s.inputs.get i).raw ≠ (s.inputs.get i).closed) :
    s.debounce i = ((s.debounced i).actOnInput i).settle :=
  (if_neg (by rw [ht]; decide)).trans (if_neg h)

/-! ### The action -/

/-- A disabled input, or an input of a follower, makes no action (R81, R162). -/
theorem actOnInput_idle (h : (s.inputs.get i).settings.enabled = false ∨ s.isFollower = true) : s.actOnInput i = s := by
  refine if_neg ?_
  rintro ⟨hon, hrole⟩
  obtain h | h := h
  · rw [hon] at h; cases h
  · rw [hrole] at h; cases h

theorem actOnInput_none (h : (s.inputs.get i).settings.action.action (s.inputs.get i).closed = none) :
    s.actOnInput i = s := by
  unfold actOnInput
  dsimp only
  rw [h]
  exact ite_self s

theorem actOnInput_some {a : InputCommand} (hon : (s.inputs.get i).settings.enabled = true) (hrole : s.isFollower = false)
    (ha : (s.inputs.get i).settings.action.action (s.inputs.get i).closed = some a) :
    s.actOnInput i = if s.ignoresInputs then s.inputResult i (s.inputs.get i).settings.playback a .ignored 0
      else s.inputCommand i (s.inputs.get i).settings.playback a := by
  unfold actOnInput
  dsimp only
  rw [ha]
  exact if_pos ⟨hon, hrole⟩

/-- A debounced change of an input that makes no action (R81, R162). -/
theorem debounce_idle (ht : (s.inputs.get i).timer = true) (hx : (s.inputs.get i).raw ≠ (s.inputs.get i).closed)
    (h : (s.inputs.get i).settings.enabled = false ∨ s.isFollower = true
      ∨ ((s.inputs.get i).raw = false ∧ (s.inputs.get i).settings.action ≠ .hold)) :
    s.debounce i = (s.debounced i).settle := by
  have idle : (s.debounced i).actOnInput i = s.debounced i := by
    obtain hoff | hrole | ⟨hr, ha⟩ := h
    · exact actOnInput_idle (.inl (by rw [debounced_input]; exact hoff))
    · exact actOnInput_idle (.inr hrole)
    · refine actOnInput_none ?_
      rw [debounced_input]
      dsimp only
      rw [hr, InputSetting.action_opens ha]
  rw [debounce_changed ht hx, idle]

/-- A debounced change of an input that makes an action, ignored or not (R81). -/
theorem debounce_acts {a : InputCommand} (ht : (s.inputs.get i).timer = true)
    (hx : (s.inputs.get i).raw ≠ (s.inputs.get i).closed) (hon : (s.inputs.get i).settings.enabled = true)
    (hrole : s.isFollower = false) (ha : (s.inputs.get i).settings.action.action (s.inputs.get i).raw = some a) :
    s.debounce i = (if s.ignoresInputs then
        (s.debounced i).inputResult i (s.inputs.get i).settings.playback a .ignored 0
      else (s.debounced i).inputCommand i (s.inputs.get i).settings.playback a).settle := by
  have input := s.debounced_input i
  have acts := actOnInput_some (s := s.debounced i) (i := i) (a := a) (by rw [input]; exact hon) hrole
    (by rw [input]; exact ha)
  rw [input] at acts
  rw [debounce_changed ht hx, acts]
  rfl

end Debounce

theorem ignoresInputs_iff (s : State) : s.ignoresInputs = true ↔
    s.sup.halted = true ∨ (s.link.silent = true ∧ (s.sup.loss = some .freeze ∨ s.sup.loss = some .safe)) := by
  simp [ignoresInputs]

/-! ### The result of an action -/

/-- A report touches the report queue and its flag alone. -/
theorem report_link_only (s : State) (k : Nat) (u : Bool) (b : List Byte) :
    s.report k u b = { s with link := (s.report k u b).link } := by
  unfold report
  dsimp only
  split_ifs <;> rfl

/-- A report joins the end of a report queue that has room (R173). -/
theorem report_room {s : State} (hrole : s.isFollower = false) (h : s.link.reports.length < 16) (k : Nat) (u : Bool)
    (b : List Byte) : (s.report k u b).link.reports
      = s.link.reports ++ [{ kind := byte k, urgent := u, time := s.sup.showTime, fields := b }] := by
  have room : s.link.reports.length < Config.reportQueue := h
  unfold report
  dsimp only
  rw [if_neg (by rw [hrole]; decide), if_pos room]

/-- A state in which an action of an input has its result, reported (R82). -/
def resultTold (s : State) (i : Fin 4) (q : PbId) (a : InputCommand) (res : InputResult) (cue : Nat) : State :=
  ({ s with inputs := s.inputs.set i { s.inputs.get i with last := some (a, res) } } : State).report 0xED false
    (b1 (num i) ++ b1 a.code ++ b1 (num q) ++ b1 res.code ++ b1 res.status ++ b2 cue)

section Result

variable {s : State} {i : Fin 4} {q : PbId} {a : InputCommand} {res : InputResult} {cue : Nat}

theorem resultTold_eq : s.resultTold i q a res cue = { s with
    inputs := s.inputs.set i { s.inputs.get i with last := some (a, res) }
    link := (s.resultTold i q a res cue).link } := report_link_only _ _ _ _

theorem resultTold_reports (hrole : s.isFollower = false) (h : s.link.reports.length < 16) :
    (s.resultTold i q a res cue).link.reports = s.link.reports ++
      [{ kind := 0xED, urgent := false, time := s.sup.showTime,
         fields := b1 (num i) ++ b1 a.code ++ b1 (num q) ++ b1 res.code ++ b1 res.status ++ b2 cue }] :=
  report_room (s := { s with inputs := s.inputs.set i { s.inputs.get i with last := some (a, res) } }) hrole h _ _ _

/-- A result that is no refusal, or one of CANCELLED or HALTED, raises no fault (R82). -/
theorem inputResult_quiet (h : ∀ st, res = .refused st → st = .cancelled ∨ st = .halted) :
    s.inputResult i q a res cue = s.resultTold i q a res cue := by
  unfold inputResult
  cases res with
  | refused st => exact if_pos (h st rfl)
  | taken => rfl
  | ignored => rfl
  | pending => rfl

/-- Any other refusal raises INPUT_REFUSED (R82). -/
theorem inputResult_refused {st : Status} (hrole : s.isFollower = false) (hc : st ≠ .cancelled) (hh : st ≠ .halted) :
    s.inputResult i q a (.refused st) cue = { s.resultTold i q a (.refused st) cue with sup := { s.sup with
      raised := s.sup.raised ++ [{ kind := .inputRefused, critical := false, value := st.code, playback := some q,
                                   cue := none, bank := none, stage := none, time := s.sup.showTime }] } } := by
  have sup : (s.resultTold i q a (.refused st) cue).sup = s.sup := report_sup _ _ _ _
  have role : (s.resultTold i q a (.refused st) cue).isFollower = false := by rw [resultTold_eq]; exact hrole
  have other : ¬ (st = .cancelled ∨ st = .halted) := fun h => h.elim hc hh
  have raises : s.inputResult i q a (.refused st) cue = (s.resultTold i q a (.refused st) cue).raise
      { (s.resultTold i q a (.refused st) cue).fault .inputRefused false st.code with playback := some q } := if_neg other
  rw [raises, raise_engine role, fault, sup]

end Result

end State

/-! ### The obligation -/

/-- Settles O49: the debounce by its timer and contact, the action by its setting, and the result by whether it raises a
fault. -/
theorem contactsAreDebouncedAndAct : Obligations.ContactsAreDebouncedAndAct := by
  intro s
  refine ⟨fun n c h => ⟨State.exec_contactChange_none s h c, State.exec_debounceExpiry_none s h⟩, fun i => ?_⟩
  intro x p u acts ignores act
  have commands {a : InputCommand} (h : acts) (hi : ¬ ignores) (ha : x.settings.action.action x.raw = some a) :
      exec (.debounceExpiry (num i)) s = .next (u.inputCommand i p a).settle := by
    obtain ⟨ht, hx, hon, hrole⟩ := h
    rw [State.exec_debounceExpiry, State.debounce_acts ht hx hon hrole ha, if_neg (mt s.ignoresInputs_iff.mp hi)]
    rfl
  refine ⟨fun c hc => ?_, fun c hc => ?_, fun ht => ?_, fun ht hx => ?_, fun ht hx h => ?_, fun h ha hi => ?_,
    fun h hi => ⟨fun hr ha => ?_, fun hr ha => ?_, fun hr ha => ?_, fun hr ha => ?_⟩, fun q a res cue hrole => ?_⟩
  · rw [State.exec_contactChange]; exact congrArg Host.Outcome.next (if_pos hc)
  · rw [State.exec_contactChange]; exact congrArg Host.Outcome.next (if_neg hc)
  · rw [State.exec_debounceExpiry, State.debounce_stopped ht]
  · rw [State.exec_debounceExpiry, State.debounce_same ht hx]; rfl
  · rw [State.exec_debounceExpiry, State.debounce_idle ht hx h]; rfl
  · obtain ⟨ht, hx, hon, hrole⟩ := h
    rw [State.exec_debounceExpiry, State.debounce_acts ht hx hon hrole (InputSetting.action_some ha),
      if_pos (s.ignoresInputs_iff.mpr hi)]
    rfl
  · rw [commands (a := .go) h hi (by rw [hr, ha]; rfl), State.inputCommand]
  · have back := commands (a := .back) h hi (by rw [hr, ha]; rfl)
    refine ⟨fun st he => ?_, fun v k he => ?_⟩
    · rw [back, State.inputCommand, he]
    · rw [back, State.inputCommand, he]
  · have hold := commands (a := .hold) h hi (by rw [hr, ha]; rfl)
    refine ⟨fun st he => ?_, fun v he => ?_⟩
    · rw [hold, State.inputCommand, he]
    · rw [hold, State.inputCommand, he]
  · have resume := commands (a := .resume) h hi (by rw [hr, ha]; rfl)
    refine ⟨fun st he => ?_, fun v he => ?_⟩
    · rw [resume, State.inputCommand, he]
    · rw [resume, State.inputCommand, he]
  · intro t
    by_cases quiet : ∀ st, res = .refused st → st = .cancelled ∨ st = .halted
    · have told : t = s.resultTold i q a res cue := State.inputResult_quiet quiet
      have parts := State.resultTold_eq (s := s) (i := i) (q := q) (a := a) (res := res) (cue := cue)
      rw [told]
      refine ⟨by rw [parts], by rw [parts], State.resultTold_reports hrole, fun st hr hc hh => ?_, fun _ => by rw [parts]⟩
      exact absurd (quiet st hr) (fun h => h.elim hc hh)
    · push Not at quiet
      obtain ⟨st, rfl, hc, hh⟩ := quiet
      have told : t = _ := State.inputResult_refused hrole hc hh
      have parts := State.resultTold_eq (s := s) (i := i) (q := q) (a := a) (res := .refused st) (cue := cue)
      rw [told]
      refine ⟨by rw [parts], by rw [parts], State.resultTold_reports hrole, fun st' hr _ _ => ?_, fun hq => ?_⟩
      · cases hr; rfl
      · exact absurd (hq st rfl) (fun h => h.elim hc hh)

end Sys2Proof.Machine

/-! The faults that the Supervisor takes, and the entry to HALTED (R67, R84, R186). -/

namespace Sys2Proof.Machine

namespace State

/-! ### What is told, over everything else

A reply, a report or an input's result reads the role and the show time of the part, and no more of it. -/

/-- The ports, the reports and the input results of a state, over everything else of another. -/
def upon (t d : State) : State := { d with con := t.con, aux := t.aux, link := t.link, inputs := t.inputs }

/-- Two states agree on the role and the show time. -/
def Agrees (d t : State) : Prop := d.isFollower = t.isFollower ∧ d.sup.showTime = t.sup.showTime

theorem upon_answer (t d : State) (q : Requester) (st : Status) (b : List Byte) :
    (t.upon d).answer q st b = (t.answer q st b).upon d := by
  unfold answer; cases q.port <;> rfl

theorem upon_report {t d : State} (h : d.Agrees t) (k : Nat) (u : Bool) (b : List Byte) :
    (t.upon d).report k u b = (t.report k u b).upon d := by
  have role : (t.upon d).isFollower = t.isFollower := h.1
  have time : (t.upon d).sup.showTime = t.sup.showTime := h.2
  have reports : (t.upon d).link = t.link := rfl
  unfold report
  rw [role, time, reports]
  dsimp only
  split_ifs <;> rfl

theorem upon_tellPending {t d : State} (h : d.Agrees t) (p : PbId) (g : Option PendingGo) (st : Status) :
    (t.upon d).tellPending p g st = (t.tellPending p g st).upon d := by
  unfold tellPending
  cases g.map PendingGo.source with
  | none => rfl
  | some src =>
    cases src with
    | port q => exact upon_answer t d q st []
    | input i =>
      exact upon_report (t := { t with inputs := t.inputs.set i { t.inputs.get i with last := some (.go, .refused st) } }) h
        _ _ _
    | follow => rfl

/-! ### What is told leaves everything else -/

theorem answer_upon (s : State) (q : Requester) (st : Status) (b : List Byte) :
    s.answer q st b = (s.answer q st b).upon s := by
  unfold answer; cases q.port <;> rfl

theorem report_upon (s : State) (k : Nat) (u : Bool) (b : List Byte) : s.report k u b = (s.report k u b).upon s :=
  upon_report (t := s) ⟨rfl, rfl⟩ k u b

theorem tellPending_upon (s : State) (p : PbId) (g : Option PendingGo) (st : Status) :
    s.tellPending p g st = (s.tellPending p g st).upon s := upon_tellPending (t := s) ⟨rfl, rfl⟩ p g st

/-- A state that differs from another in what it tells alone. -/
theorem kept_of_upon {t s : State} (h : t = t.upon s) : t.slots = s.slots ∧ t.merge = s.merge ∧ t.patch = s.patch
    ∧ t.bank = s.bank ∧ t.ctl = s.ctl ∧ t.outp = s.outp ∧ t.cas = s.cas ∧ t.store = s.store := by
  rw [h]; exact ⟨rfl, rfl, rfl, rfl, rfl, rfl, rfl, rfl⟩

theorem upon_told (t s : State) (p : PbId) (g : Option PendingGo) (st : Status) :
    t.upon (s.tellPending p g st) = t.upon s := by rw [tellPending_upon s]; rfl

theorem upon_reported (t s : State) (k : Nat) (u : Bool) (b : List Byte) : t.upon (s.report k u b) = t.upon s := by
  rw [report_upon s]; rfl

theorem agrees_tellPending {d t : State} (h : d.Agrees t) (p : PbId) (g : Option PendingGo) (st : Status) :
    d.Agrees (t.tellPending p g st) := by rw [tellPending_upon]; exact h

/-- The end of a GO CANCELLED or HALTED is told to its source (R67, R82). -/
theorem endGo_told (s : State) (p : PbId) (g : PendingGo) {st : Status} (h : st = .cancelled ∨ st = .halted) :
    s.endGo p g.source st = s.tellPending p (some g) st := by
  unfold endGo tellPending
  rw [Option.map_some]
  cases g.source with
  | port q => rfl
  | input i => exact if_pos h
  | follow => obtain rfl | rfl := h <;> rfl

/-- A pending GO is ended: its source is told, and it is pending no longer (R67). -/
theorem upon_endPending {t d : State} (h : d.Agrees t) (p : PbId) {st : Status} (hst : st = .cancelled ∨ st = .halted) :
    (t.upon d).endPending p st = (t.tellPending p (d.pb p).pendingGo st).upon (d.unpended p) := by
  have there : (t.upon d).pb p = d.pb p := rfl
  unfold endPending
  rw [there]
  cases hg : (d.pb p).pendingGo with
  | none =>
    have same : d.unpended p = d := by rw [unpended, ← hg]; exact setPb_same d p
    rw [same]; rfl
  | some g =>
    have unpending : (t.upon d).setPb p { d.pb p with pendingGo := none } = t.upon (d.unpended p) := rfl
    dsimp only
    rw [unpending, endGo_told _ _ _ hst]
    exact upon_tellPending (d := d.unpended p) h p (some g) st

theorem endPending_told (s : State) (p : PbId) {st : Status} (hst : st = .cancelled ∨ st = .halted) :
    s.endPending p st = (s.tellPending p (s.pb p).pendingGo st).unpended p := by
  have told := upon_endPending (t := s) (d := s) ⟨rfl, rfl⟩ p hst
  rw [tellPending_upon s p (s.pb p).pendingGo st]
  exact told

/-! ### The entry to HALTED -/

/-- A part with no GO pending, but for that as it is (R84). -/
def allUnpended (d : State) : State :=
  { d with eng := { d.eng with pb := d.eng.pb.map (fun x : Playback => { x with pendingGo := none }) } }

/-- The sources of the pending GOs are told that these end HALTED, in the order of the playbacks (R67; log 48). -/
def tellHalted (t d : State) : State :=
  four.foldl (fun (v : State) p => v.tellPending p (d.pb p).pendingGo .halted) t

theorem tellHalted_upon (t d : State) : t.tellHalted d = (t.tellHalted d).upon t := by
  have told (l : List PbId) (v : State) : l.foldl (fun (v : State) p => v.tellPending p (d.pb p).pendingGo .halted) v
      = (l.foldl (fun (v : State) p => v.tellPending p (d.pb p).pendingGo .halted) v).upon v := by
    induction l generalizing v with
    | nil => rfl
    | cons p rest ih =>
      exact (ih (v.tellPending p (d.pb p).pendingGo .halted)).trans (upon_told _ v _ _ _)
  exact told four t

/-- The pending GOs of the four playbacks end HALTED (R84). -/
theorem upon_endAll {t d : State} (h : d.Agrees t) :
    four.foldl (fun (v : State) p => v.endPending p .halted) (t.upon d) = (t.tellHalted d).upon d.allUnpended := by
  have turn {t d : State} (h : d.Agrees t) (p : PbId) :=
    And.intro (upon_endPending h p (.inr rfl)) (agrees_tellPending h p (d.pb p).pendingGo .halted)
  have other (d : State) {p q : PbId} (hq : q ≠ p) : (d.unpended p).pb q = d.pb q := pb_setPb_other _ _ _ _ hq
  obtain ⟨e0, h0⟩ := turn h 0
  obtain ⟨e1, h1⟩ := turn (d := d.unpended 0) h0 1
  obtain ⟨e2, h2⟩ := turn (d := (d.unpended 0).unpended 1) h1 2
  obtain ⟨e3, -⟩ := turn (d := ((d.unpended 0).unpended 1).unpended 2) h2 3
  simp only [other _ (show (3 : PbId) ≠ 2 by decide), other _ (show (3 : PbId) ≠ 1 by decide),
    other _ (show (3 : PbId) ≠ 0 by decide), other _ (show (2 : PbId) ≠ 1 by decide),
    other _ (show (2 : PbId) ≠ 0 by decide), other _ (show (1 : PbId) ≠ 0 by decide)] at e1 e2 e3
  simp only [four, List.foldl_cons, List.foldl_nil, e0, e1, e2, e3]
  rfl

/-! ### The taking of a fault -/

/-- ENGINE_FAULT of a fault (R186). -/
def faultTold (s : State) (f : EngineFault) : State := s.report 0xE2 true (f.fields ++ bBool s.sup.record.isNone)

/-- The Supervisor with the raised fault at a place taken into its record (R186). -/
def recorded (s : State) (place : Nat) (f : EngineFault) : Supervisor :=
  { s.sup with raised := s.sup.raised.eraseIdx place, record := some (s.sup.record.getD f) }

/-- Whether a fault halts the engine: a critical one, while NORMAL, after a critical one in the record (R186). -/
def Halts (s : State) (f : EngineFault) : Prop :=
  f.critical = true ∧ s.sup.halted = false ∧ ∃ g, s.sup.record = some g ∧ g.critical = true

/-- A fault told, and the end of the pending GOs, leave everything else as it is (R84). -/
theorem tellHalted_faultTold (s : State) (f : EngineFault) :
    (s.faultTold f).tellHalted s = ((s.faultTold f).tellHalted s).upon s :=
  (tellHalted_upon (s.faultTold f) s).trans (upon_reported _ s _ _ _)

section Taking

variable {s : State} {place : Nat} {f : EngineFault}

theorem takeRaised_none (h : s.isLeader = false ∨ s.sup.raised.length ≤ place) : s.takeRaised place = s := by
  unfold takeRaised
  obtain h | h := h
  · exact if_neg (by rw [h]; decide)
  · rw [List.getElem?_eq_none h]
    exact ite_self s

/-- A fault taken is reported and recorded, and halts the engine or not (R186). -/
theorem takeRaised_some (hl : s.isLeader = true) (hf : s.sup.raised[place]? = some f) [Decidable (s.Halts f)] :
    s.takeRaised place = (if s.Halts f then
      ((s.faultTold f).upon { s with sup := s.recorded place f }).enterHalted.report 0xE3 true (b1 f.kind.code ++ b2 f.value
        ++ b1 ((s.sup.record.map (·.kind.code)).getD 0) ++ b4 ((s.sup.record.map (·.time)).getD 0))
      else (s.faultTold f).upon { s with sup := s.recorded place f }).pump := by
  have told : ({ s with sup := { s.sup with raised := s.sup.raised.eraseIdx place } } : State).report 0xE2 true
      (f.fields ++ bBool s.sup.record.isNone)
      = (s.faultTold f).upon { s with sup := { s.sup with raised := s.sup.raised.eraseIdx place } } :=
    upon_report (t := s) (d := { s with sup := { s.sup with raised := s.sup.raised.eraseIdx place } }) ⟨rfl, rfl⟩ _ _ _
  have first : s.sup.record.or (some f) = some (s.sup.record.getD f) := by cases s.sup.record <;> rfl
  have halts : (f.critical && (s.sup.record.map (·.critical)).getD false && !s.sup.halted) = true ↔ s.Halts f := by
    unfold Halts
    cases s.sup.record <;> simp [and_assoc, and_comm]
  unfold takeRaised takeFault
  rw [if_pos hl, hf]
  dsimp only
  rw [told, first]
  simp only [halts]
  rfl

theorem takeRaised_quiet (hl : s.isLeader = true) (hf : s.sup.raised[place]? = some f) (h : ¬ s.Halts f) :
    s.takeRaised place = ({ s.faultTold f with sup := s.recorded place f } : State).pump := by
  classical
  rw [takeRaised_some hl hf, if_neg h]
  conv_rhs => rw [faultTold, report_upon]
  rfl

/-- A fault that halts the engine: the pending GOs end HALTED, then the HALTED report is produced (R84, R186). -/
theorem takeRaised_halts (hl : s.isLeader = true) (hf : s.sup.raised[place]? = some f) (h : s.Halts f) {g : EngineFault}
    (hg : s.sup.record = some g) : s.takeRaised place
      = ({ ((s.faultTold f).tellHalted s).report 0xE3 true (b1 f.kind.code ++ b2 f.value ++ b1 g.kind.code ++ b4 g.time) with
          sup := { s.recorded place f with halted := true }
          eng := { s.eng with pb := s.eng.pb.map (fun x : Playback => { x with pendingGo := none }) } } : State).pump := by
  classical
  have d : ∃ d : State, d = { s with sup := { s.recorded place f with halted := true } } := ⟨_, rfl⟩
  obtain ⟨d, hd⟩ := d
  have told : (s.faultTold f).tellHalted s = ((s.faultTold f).tellHalted s).upon s :=
    tellHalted_faultTold s f
  have agrees : d.Agrees (s.faultTold f) := by
    rw [hd, faultTold, report_upon]; exact ⟨rfl, rfl⟩
  have heard : d.allUnpended.Agrees ((s.faultTold f).tellHalted s) := by rw [told, hd]; exact ⟨rfl, rfl⟩
  have entered : ((s.faultTold f).upon { s with sup := s.recorded place f }).enterHalted
      = ((s.faultTold f).tellHalted s).upon d.allUnpended := by
    have all := upon_endAll agrees
    have same : (s.faultTold f).tellHalted d = (s.faultTold f).tellHalted s := by rw [hd]; rfl
    rw [← same, ← all, hd]
    rfl
  have fields : ((s.faultTold f).tellHalted s).report 0xE3 true (b1 f.kind.code ++ b2 f.value ++ b1 g.kind.code ++ b4 g.time)
      = (((s.faultTold f).tellHalted s).report 0xE3 true
          (b1 f.kind.code ++ b2 f.value ++ b1 g.kind.code ++ b4 g.time)).upon s :=
    (report_upon _ _ _ _).trans ((congrArg (State.upon _) told).trans rfl)
  rw [takeRaised_some hl hf, if_pos h, entered, upon_report heard, hg, fields, hd]
  rfl

end Taking

end State

/-! ### The obligation -/

/-- Settles O54: a fault that is not there, one that is recorded, and one that halts the engine; what is told leaves
everything else as it stands (`State.tellHalted_upon`). -/
theorem engineFaultsAreTaken : Obligations.EngineFaultsAreTaken := by
  intro s place
  refine ⟨fun h => congrArg Host.Outcome.next (State.takeRaised_none h), fun f hl hf => ?_⟩
  intro halts sup told ended
  have quiet (h : ¬ halts) : exec (.engineFault place) s = .next ({ told with sup := sup } : State).pump :=
    congrArg Host.Outcome.next (State.takeRaised_quiet hl hf h)
  have halted (g : EngineFault) (h : halts) (hg : s.sup.record = some g) :
      exec (.engineFault place) s = .next ({ ended.report 0xE3 true (b1 f.kind.code ++ b2 f.value ++ b1 g.kind.code
        ++ b4 g.time) with
          sup := { sup with halted := true }
          eng := { s.eng with pb := s.eng.pb.map (fun x : Playback => { x with pendingGo := none }) } } : State).pump :=
    congrArg Host.Outcome.next (State.takeRaised_halts hl hf h hg)
  refine ⟨quiet, halted, fun h => ⟨_, quiet h, ?_, State.keepsReports_pump _ _ rfl rfl, fun p => ?_⟩, fun h => ?_⟩
  · have inside : told.inside = s.inside := State.inside_report _ _ _ _
    exact (State.inside_pump _).trans (congrArg (fun u : State => { u with sup := sup }) inside)
  · have ports : ({ told with sup := sup } : State).port p = s.port p :=
      (by cases p <;> rfl : _ = told.port p).trans (State.port_report _ _ _ _ _)
    rw [State.pump_outgoing, ports]
  · obtain ⟨g, hg, -⟩ := h.2.2
    refine ⟨_, halted g h hg, State.pump_sup _, fun p => ?_, ?_⟩
    · rw [State.pb, State.pump_eng]
      exact Four.get_map _ _ _
    · have parts : ended = ended.upon s := State.tellHalted_faultTold s f
      have port (p : PortId) : ((ended.report 0xE3 true (b1 f.kind.code ++ b2 f.value ++ b1 g.kind.code ++ b4 g.time)).port p)
          = ended.port p := State.port_report _ _ _ _ _
      simp only [State.pump_slots, State.pump_merge, State.pump_patch, State.pump_bank, State.pump_ctl, State.pump_outp,
        State.pump_cas, State.pump_store, State.pump_outgoing, State.report_slots, State.report_merge, State.report_patch,
        State.report_bank, State.report_ctl, State.report_outp, State.report_cas, State.report_store]
      obtain ⟨slots, merge, patch, bank, ctl, outp, cas, store⟩ := State.kept_of_upon parts
      refine ⟨slots, merge, patch, bank, ctl, outp, cas, store, fun p => ?_⟩
      rw [← port p]; cases p <;> rfl

end Sys2Proof.Machine

/-! GO: the cue that it takes, and what its source, the reports and the next standby see of it (R66 to R70, R82). -/

namespace Sys2Proof.Machine

/-! ### The body of GO -/

/-- An override above 6000 is legalized, 65535 is none (R66). -/
theorem parseGo_eq (q : PbId) {time : Nat} (h : time ≤ 65535) : parseGo (b1 (num q) ++ b2 time)
    = .ok (q, if time = 65535 then none else some (min time 6000), decide (6000 < time ∧ time ≠ 65535)) := by
  have playback : idx4 (byteAt (b1 (num q) ++ b2 time) 0) = some q := idx4_byteAt q _
  have word : wordAt (b1 (num q) ++ b2 time) 1 = time := wordAt_byte (by omega) []
  refine sized_some rfl ?_
  rw [playback, word, Option.map_some, show Config.absent = 65535 from rfl]
  split_ifs with habsent hfar
  · simp [habsent]
  · simp [habsent, hfar, Nat.le_of_lt hfar]
  · simp [habsent, hfar, Nat.le_of_not_lt hfar]

namespace State

/-! ### What a playback command leaves alone -/

theorem shell_of_inside {s t : State} (h : t.inside = s.inside) : t.shell = s.shell :=
  congrArg (fun u : State => ({ u with
    ctl := .reset, eng := { u.eng with pb := Engine.reset.pb }, slots := [],
    inputs := u.inputs.map (fun x => { x with last := none }), sup := { u.sup with raised := [] } } : State)) h

theorem answered_congr {s t u : State} {p : PortId} {rest : List Request} {xs : List Reply}
    (h : ∀ q, u.port q = t.port q) (ht : s.Answered t p rest xs) : s.Answered u p rest xs := by
  unfold Answered at ht ⊢
  rw [h, h]
  exact ht

theorem FetchesOnly.port {p : PbId} {s t : State} (h : FetchesOnly p s t) (q : PortId) : t.port q = s.port q := by
  obtain ⟨y, f, ctl, reports, lost, rfl⟩ := h
  cases q <;> rfl

/-! ### The reports of a fetch follow those that wait -/

/-- A routine report drops none that waits (R173). -/
theorem reports_prefix_report (s : State) (k : Nat) (b : List Byte) :
    s.link.reports <+: (s.report k false b).link.reports := by
  unfold report
  dsimp only
  split_ifs with h1 h2 h3
  · exact List.prefix_rfl
  · exact List.prefix_append _ _
  · exact absurd h3.1 (by decide)
  · exact List.prefix_rfl

theorem reports_prefix_endAtOnce (s : State) (p : PbId) (before now : Standby) :
    s.link.reports <+: (s.endAtOnce p before now).link.reports := by
  unfold endAtOnce
  dsimp only
  split_ifs
  · exact List.prefix_rfl
  · exact reports_prefix_report (s.setPb p { s.pb p with standby := now }) _ _

theorem reports_prefix_takeStandby (s : State) (p : PbId) (now : Standby) :
    s.link.reports <+: (s.takeStandby p now).link.reports :=
  reports_prefix_report (s.setPb p { s.pb p with standby := now, fetch := none }) _ _

theorem reports_prefix_startFetchCore (s : State) (p : PbId) :
    s.link.reports <+: (s.startFetchCore p).link.reports := by
  have dropped : (s.dropFetch p).link = s.link := dropFetch_link s p
  rw [← dropped]
  unfold startFetchCore
  dsimp only
  split
  · split_ifs
    · exact reports_prefix_endAtOnce _ _ _ _
    · split
      · exact reports_prefix_takeStandby _ _ _
      · exact reports_prefix_takeStandby _ _ _
      · exact List.prefix_rfl
  · exact reports_prefix_endAtOnce _ _ _ _

/-! ### The cue that a GO takes -/

/-- The slot of a GO with its override (R68, R89). -/
def slotOn (s : State) (q : PbId) (o : Option Nat) (c : Cue) : Slot :=
  madeSlot (s.unpausedSlots q) q .cue (some c.number) (o.getD c.up) (o.getD (c.down.getD c.up)) c.upDelay c.downDelay
    (cueMoves q (s.pb q).look s.slots c)

/-- The back stack after a GO, with "back kept" (R69). -/
def pushedOn (s : State) (q : PbId) (c : Cue) : List BackEntry × Bool :=
  pushBack (s.pb q).back (s.backUse - stackUse (s.pb q).back)
    { cue := c.number, levels := (cueMoves q (s.pb q).look s.slots c).map (fun m => (m.channel, m.start)) }

/-- The context of a playback that a GO has taken to a cue, before its fetch (R70). -/
def wentOn (s : State) (q : PbId) (o : Option Nat) (c : Cue) : Playback :=
  { s.pb q with
    state := .running, look := (s.slotOn q o c).writeLook 0 (s.pb q).look,
    lastRun := some { number := c.number, link := c.link }, explicit := none,
    follow := c.follow.map (fun n => { steps := n * 10, paused := false, due := false }), back := (s.pushedOn q c).1 }

/-- A state in which a GO has taken a playback to a cue, before anything is told (R70). -/
def goneOn (s : State) (q : PbId) (o : Option Nat) (c : Cue) : State :=
  ({ s with slots := insertSlot (s.slotOn q o c) (takeover q (cueMoves q (s.pb q).look s.slots c) (s.unpausedSlots q)) }).setPb
    q (s.wentOn q o c)

/-- The fields of CUE_TAKEN (R70). -/
def takenFields (s : State) (q : PbId) (src : GoSource) (o : Option Nat) (c : Cue) : List Byte :=
  b2 (num q) ++ b2 c.number ++ b1 src.code ++ b1 src.inputNo ++ b1 (s.slotOn q o c).number ++ bBool (s.pushedOn q c).2
    ++ b2 (o.getD c.up) ++ b2 (o.getD (c.down.getD c.up))

/-- A GO that is taken: the back entry, the slot, the cue and its follow, then the reply, CUE_TAKEN, an input's result, and
the fetch (R70). -/
theorem goTake_taken {s : State} {q : PbId} {src : GoSource} {o : Option Nat} {adj : Bool} {c : Cue}
    (hr : slotRefusal q (cueMoves q (s.pb q).look s.slots c) s.slots = none) : s.goTake q src o adj c
      = (((((s.goneOn q o c).goReply q src o adj c.number (s.slotOn q o c).number (s.pushedOn q c).2).report 0xEF false
          (s.takenFields q src o c)).goAction q src c.number).startFetchCore q) := by
  unfold goTake
  dsimp only
  rw [hr]
  dsimp only
  rw [popped_unheld]
  simp [goneOn, wentOn, slotOn, pushedOn, takenFields, cueTimes, createSlot, newSlot, madeSlot, setPb, pb, Four.set_set]

/-! ### GO on a port -/

section Asked

variable {s : State} {p : PortId} {r : Request} {rest : List Request} {q : PbId} {o : Option Nat} {adj : Bool}

theorem goneOn_takeOff (s : State) (p : PortId) (rest : List Request) (q : PbId) (o : Option Nat) (c : Cue) :
    (s.takeOff p rest).goneOn q o c = (s.goneOn q o c).takeOff p rest := by cases p <;> rfl

theorem slotOn_takeOff (s : State) (p : PortId) (rest : List Request) (q : PbId) (o : Option Nat) (c : Cue) :
    (s.takeOff p rest).slotOn q o c = s.slotOn q o c := by cases p <;> rfl

theorem pushedOn_takeOff (s : State) (p : PortId) (rest : List Request) (q : PbId) (c : Cue) :
    (s.takeOff p rest).pushedOn q c = s.pushedOn q c := by cases p <;> rfl

theorem takenFields_takeOff (s : State) (p : PortId) (rest : List Request) (q : PbId) (src : GoSource) (o : Option Nat)
    (c : Cue) : (s.takeOff p rest).takenFields q src o c = s.takenFields q src o c := by cases p <;> rfl

/-- A GO taken on a port, before its fetch: its reply and CUE_TAKEN (R70). -/
def goTold (s : State) (p : PortId) (r : Request) (rest : List Request) (q : PbId) (o : Option Nat) (adj : Bool) (c : Cue) :
    State :=
  (((s.goneOn q o c).takeOff p rest).answer (requesterOf p r) (okOr adj)
    (b2 (num q) ++ b2 c.number ++ b1 (s.slotOn q o c).number ++ bBool (s.pushedOn q c).2 ++ bOpt o)).report 0xEF false
      (s.takenFields q (.port (requesterOf p r)) o c)

theorem goTake_port {c : Cue} (hr : slotRefusal q (cueMoves q (s.pb q).look s.slots c) s.slots = none) :
    (s.takeOff p rest).goTake q (.port (requesterOf p r)) o adj c = (s.goTold p r rest q o adj c).startFetchCore q := by
  have context : (s.takeOff p rest).pb q = s.pb q := pb_setPort _ _ _ _
  have refusal : slotRefusal q (cueMoves q ((s.takeOff p rest).pb q).look (s.takeOff p rest).slots c)
      (s.takeOff p rest).slots = none := by rw [context, takeOff_slots]; exact hr
  rw [goTake_taken refusal, goneOn_takeOff, slotOn_takeOff, pushedOn_takeOff, takenFields_takeOff]
  rfl

section Told

variable (s : State) (p : PortId) (r : Request) (rest : List Request) (q : PbId) (o : Option Nat) (adj : Bool) (c : Cue)

theorem goTold_answered : s.Answered (s.goTold p r rest q o adj c) p rest [replyTo r (okOr adj)
    (b2 (num q) ++ b2 c.number ++ b1 (s.slotOn q o c).number ++ bBool (s.pushedOn q c).2 ++ bOpt o)] := by
  refine answered_congr (fun x => ?_) (answered_answer s p r rest _ _)
  rw [goTold, port_report]
  cases p <;> cases x <;> rfl

theorem goTold_pb (q' : PbId) : (s.goTold p r rest q o adj c).pb q' = (s.goneOn q o c).pb q' := by
  rw [goTold, pb, report_eng, answer_eng, takeOff_eng]; rfl

theorem goTold_slots : (s.goTold p r rest q o adj c).slots = (s.goneOn q o c).slots := by
  rw [goTold, report_slots, answer_slots, takeOff_slots]

theorem goTold_inside : (s.goTold p r rest q o adj c).inside = (s.goneOn q o c).inside := by
  rw [goTold, inside_report, inside_answer, inside_takeOff]

theorem goTold_inputs : (s.goTold p r rest q o adj c).inputs = s.inputs := by
  rw [goTold, report_inputs, answer_inputs, takeOff_inputs]; rfl

theorem goTold_sup : (s.goTold p r rest q o adj c).sup = s.sup := by
  rw [goTold, report_sup, answer_sup, takeOff_sup]; rfl

theorem goTold_link : (s.goTold p r rest q o adj c).link
    = (s.report 0xEF false (s.takenFields q (.port (requesterOf p r)) o c)).link := by
  refine report_link_congr ?_ ?_ ?_ _ _ _
  · rw [isFollower, answer_cas, takeOff_cas]; rfl
  · rw [answer_link, takeOff_link]; rfl
  · rw [answer_sup, takeOff_sup]; rfl

end Told

/-- A GO taken on a port: its reply, CUE_TAKEN, and the fetch of the successor (R70). -/
theorem go_taken (ht : s.Takes p 0x30 r rest) (hp : parseGo r.body = .ok (q, o, adj)) (hb : s.bank.active ≠ none)
    {b : Bank} {l : PbId} {from_ : Source} {c : Cue} (hs : (s.pb q).standby = .ready b l from_ c)
    (hg : (s.pb q).pendingGo = none) (hr : slotRefusal q (cueMoves q (s.pb q).look s.slots c) s.slots = none)
    (hrole : s.isFollower = false) :
    Settles (.go p) s (fun t =>
      s.Answered t p rest [replyTo r (okOr adj)
        (b2 (num q) ++ b2 c.number ++ b1 (s.slotOn q o c).number ++ bBool (s.pushedOn q c).2 ++ bOpt o)]
      ∧ t.slots = (s.goneOn q o c).slots
      ∧ (∃ u : State, t = u.startFetchCore q ∧ u.ctl = s.ctl ∧ u.bank = s.bank
        ∧ u.link = (s.report 0xEF false (s.takenFields q (.port (requesterOf p r)) o c)).link
        ∧ u.pb q = s.wentOn q o c)
      ∧ (∀ q', q' ≠ q → t.pb q' = s.pb q') ∧ t.shell = s.shell ∧ t.inputs = s.inputs ∧ t.sup = s.sup
      ∧ (s.link.reports.length < 16 → s.link.reports ++
          [{ kind := 0xEF, urgent := false, time := s.sup.showTime,
             fields := s.takenFields q (.port (requesterOf p r)) o c }] <+: t.link.reports)) := by
  have active : (s.takeOff p rest).bank.active ≠ none := by rwa [takeOff_bank]
  have context : (s.takeOff p rest).pb q = s.pb q := pb_setPort _ _ _ _
  have work : (s.takeOff p rest).goWork (requesterOf p r) (q, o, adj) = (s.goTold p r rest q o adj c).startFetchCore q := by
    rw [← goTake_port hr]
    exact goCommand_ready active (by rw [context]; exact hs) (by rw [context]; exact hg)
  have fetched := fetchesOnly_startFetchCore (s.goTold p r rest q o adj c) q
  have ran : exec (.go p) s = .next ((s.goTold p r rest q o adj c).startFetchCore q).settle := by
    change Host.Outcome.next (s.takeStoreRequest p 0x30 parseGo goWork) = _
    rw [takeStoreRequest_takes (by decide) ht hp, work]
  refine ⟨_, ran, answered_congr fetched.port (goTold_answered s p r rest q o adj c), ?_,
    ⟨_, rfl, ?_, ?_, goTold_link s p r rest q o adj c, ?_⟩, fun q' hq => ?_, ?_, ?_, ?_, fun hroom => ?_⟩
  · rw [startFetchCore_slots, goTold_slots]
  · rw [goTold, report_ctl, answer_ctl, takeOff_ctl]; rfl
  · rw [goTold, report_bank, answer_bank, takeOff_bank]; rfl
  · rw [goTold_pb]; exact pb_setPb_same _ _ _
  · rw [fetched.pb_other hq, goTold_pb]; exact pb_setPb_other _ _ _ _ hq
  · exact fetched.shell.trans ((shell_of_inside (goTold_inside s p r rest q o adj c)).trans rfl)
  · rw [startFetchCore_inputs, goTold_inputs]
  · rw [startFetchCore_sup, goTold_sup]
  · have told := report_room hrole hroom 0xEF false (s.takenFields q (.port (requesterOf p r)) o c)
    rw [← goTold_link s p r rest q o adj c] at told
    exact told ▸ reports_prefix_startFetchCore _ q

end Asked

section Pending

variable {s : State} {p : PortId} {r : Request} {rest : List Request} {q : PbId} {o : Option Nat} {adj : Bool}

/-- A GO on a port that meets a FETCHING standby becomes the pending GO, its reply owed (R67). -/
theorem go_pending (ht : s.Takes p 0x30 r rest) (hp : parseGo r.body = .ok (q, o, adj)) (hb : s.bank.active ≠ none)
    {n : Nat} {from_ : Source} (hs : (s.pb q).standby = .fetching n from_) (hg : (s.pb q).pendingGo = none) :
    Owes (.go p) s p rest (s.setPb q { s.pb q with
      pendingGo := some { source := .port (requesterOf p r), override := o, adjusted := adj } }) := by
  have context : (s.takeOff p rest).pb q = s.pb q := pb_setPort _ _ _ _
  have work : (s.takeOff p rest).goWork (requesterOf p r) (q, o, adj)
      = (s.takeOff p rest).makePending q (.port (requesterOf p r)) o adj :=
    goCommand_fetching (by rw [takeOff_bank]; exact hb) (n := n) (from_ := from_) (by rw [context]; exact hs)
      (by rw [context]; exact hg)
  have ran : exec (.go p) s = .next ((s.takeOff p rest).makePending q (.port (requesterOf p r)) o adj).settle := by
    change Host.Outcome.next (s.takeStoreRequest p 0x30 parseGo goWork) = _
    rw [takeStoreRequest_takes (by decide) ht hp, work]
  refine ⟨_, ran, answered_owed (port_setPb _ _ _ _) ?_, ?_, ?_⟩
  · exact (port_setPb _ _ _ _).trans (takeOff_port s p rest).2
  · exact takeOff_link s p rest
  · cases p <;> rfl

end Pending

/-- GO on a port past its general checks (R66). -/
theorem go_takes {s : State} {p : PortId} {r : Request} {rest : List Request} (hd : s.Head p 0x30 r rest)
    (hu : s.MayUse p .playback) (hh : s.sup.halted = false) : s.Takes p 0x30 r rest :=
  takes_of .playback false hd hu rfl (.inr hh) (mustWait_free s rfl rfl)

end State

/-! ### The obligation -/

/-- Settles O29: on a port and from any source, the state checks of R66 in turn, then the capacity tests, then the taking
(`State.goTake_taken`). -/
theorem goTakesTheStandby : Obligations.GoTakesTheStandby := by
  refine ⟨fun s p r rest q time hd hu hh hb htime => ?_, fun s q src o adj => ?_⟩
  · intro override adjusted
    have ht := State.go_takes hd hu hh
    have hp : parseGo r.body = .ok (q, override, adjusted) := hb ▸ parseGo_eq q htime
    have active (h : s.bank.active ≠ none) : (s.takeOff p rest).bank.active ≠ none := by rwa [State.takeOff_bank]
    have context : (s.takeOff p rest).pb q = s.pb q := State.pb_setPort _ _ _ _
    have ends {st : Status} (h : (s.takeOff p rest).goCommand q (.port (requesterOf p r)) override adjusted
        = (s.takeOff p rest).endGo q (.port (requesterOf p r)) st) : Answers (.go p) s p r rest st [] s :=
      State.answers_of rfl (by decide) ht hp h
    refine ⟨fun hn => ends (State.goCommand_noShow (by rw [State.takeOff_bank]; exact hn)),
      fun hn hs => ends (State.goCommand_none (active hn) (by rw [context]; exact hs)),
      fun n from_ hn hs => ends (State.goCommand_missing (active hn) (n := n) (from_ := from_) (by rw [context]; exact hs)),
      fun n from_ hn hs => ends (State.goCommand_bad (active hn) (n := n) (from_ := from_) (by rw [context]; exact hs)),
      fun n from_ hn hs => ⟨fun hg => ?_, fun hg => ?_⟩, fun b l from_ c hn hs hg => ?_⟩
    · exact ends (State.goCommand_second (active hn) (n := n) (from_ := from_) (by rw [context]; exact hs)
        (by rw [context]; exact hg))
    · exact State.go_pending ht hp hn hs hg
    · intro moves
      refine ⟨fun st hr => ends ?_, fun hr => ?_⟩
      · rw [State.goCommand_ready (active hn) (by rw [context]; exact hs) (by rw [context]; exact hg)]
        exact State.goTake_refused (by rw [context, State.takeOff_slots]; exact hr)
      · exact State.go_taken ht hp hn hs hg hr hu.2
  · intro go
    refine ⟨State.goCommand_noShow, State.goCommand_none, fun n from_ hn hs => State.goCommand_missing hn hs,
      fun n from_ hn hs => State.goCommand_bad hn hs, fun n from_ hn hs => ⟨State.goCommand_second hn hs, fun hg => ?_⟩,
      fun b l from_ c hn hs hg => ⟨fun st hr => ?_, fun hr => ?_⟩⟩
    · refine (State.goCommand_fetching hn hs hg).trans ?_
      cases src <;> rfl
    · exact (State.goCommand_ready hn hs hg).trans (State.goTake_refused hr)
    · refine ((State.goCommand_ready hn hs hg).trans (State.goTake_taken hr)).trans ?_
      cases src <;> rfl

end Sys2Proof.Machine

/-! RELEASE: the sequence cleared, the playback faded out, and the GO that waits on it ended (R67, R76). -/

namespace Sys2Proof.Machine

/-! ### The levels a slot writes at its creation -/

theorem Look.mem_write {l : Look} {c v : Nat} {e : Nat × Nat} (h : e ∈ l.write c v) : (∃ d ∈ l, d.1 = e.1) ∨ c = e.1 := by
  unfold Look.write at h
  split_ifs at h
  · exact .inl ⟨e, List.mem_of_mem_filter h, rfl⟩
  · rcases Assoc.mem_keys_insert l c e.1 v (List.mem_map_of_mem h) with he | he
    · exact .inr he.symm
    · exact .inl (List.mem_map.mp he)

/-- A run of levels written lists no channel but those of the look and those that it names. -/
theorem Look.mem_writes {ms : List Move} {f : Move → Nat} {l : Look} {e : Nat × Nat}
    (h : e ∈ ms.foldl (fun (l : Look) m => l.write m.channel (f m)) l) :
    (∃ d ∈ l, d.1 = e.1) ∨ ∃ m ∈ ms, m.channel = e.1 := by
  induction ms generalizing l with
  | nil => exact .inl ⟨e, h, rfl⟩
  | cons m rest ih =>
    rcases ih h with ⟨d, hd, he⟩ | ⟨m', hm, he⟩
    · rcases Look.mem_write hd with ⟨d', hd', he'⟩ | hc
      · exact .inl ⟨d', hd', he'.trans he⟩
      · exact .inr ⟨m, List.mem_cons_self, hc.trans he⟩
    · exact .inr ⟨m', List.mem_cons_of_mem _ hm, he⟩

theorem mem_releaseMoves {p : PbId} {look : Look} {slots : List Slot} {m : Move} :
    m ∈ releaseMoves p look slots ↔
      m.channel ∈ litOrHeld p look slots ∧ m.start = look.level m.channel ∧ m.target = 0 := by
  unfold releaseMoves
  rw [List.mem_map]
  constructor
  · rintro ⟨c, hc, rfl⟩
    exact ⟨hc, rfl, rfl⟩
  · rintro ⟨hc, hstart, htarget⟩
    exact ⟨m.channel, hc, by rw [← hstart, ← htarget]⟩

theorem releaseMoves_channel {p : PbId} {look : Look} {slots : List Slot} (c : Nat) :
    (∃ m ∈ releaseMoves p look slots, m.channel = c) ↔ c ∈ litOrHeld p look slots := by
  constructor
  · rintro ⟨m, hm, rfl⟩
    exact (mem_releaseMoves.mp hm).1
  · exact fun hc => ⟨{ channel := c, start := look.level c, target := 0 }, mem_releaseMoves.mpr ⟨hc, rfl, rfl⟩, rfl⟩

/-- A slot over the slots of other playbacks is the only one of its playback. -/
theorem filter_insertSlot_only {x : Slot} {l : List Slot} (h : ∀ y ∈ l, y.playback ≠ x.playback) :
    (insertSlot x l).filter (fun y => y.playback = x.playback) = [x] := by
  induction l with
  | nil => simp [insertSlot]
  | cons z rest ih =>
    obtain ⟨hz, hrest⟩ := List.forall_mem_cons.mp h
    unfold insertSlot
    split_ifs
    · rw [List.filter_cons_of_pos (by simp), List.filter_eq_nil_iff.mpr (by simpa using ⟨hz, hrest⟩)]
    · rw [List.filter_cons_of_neg (by simpa using hz), ih hrest]

/-! ### The body of RELEASE -/

theorem parseRelease_eq (q : PbId) {sent : Nat} (h : sent ≤ 65535) :
    parseRelease (b1 (num q) ++ b2 sent) = .ok (q, min sent 6000, decide (6000 < sent)) := by
  have playback : idx4 (byteAt (b1 (num q) ++ b2 sent) 0) = some q := idx4_byteAt q _
  have word : wordAt (b1 (num q) ++ b2 sent) 1 = sent := wordAt_byte (by omega) []
  exact sized_some rfl (by rw [playback, word, Option.map_some, capped_eq])

namespace State

/-! ### The playback that a RELEASE fades out -/

/-- The RELEASE slot of a playback (R76). -/
def slotOut (s : State) (q : PbId) (time : Nat) : Slot :=
  { number := freeSlot (withoutSlotsOf q s.slots), playback := q, kind := .release, cue := none, up := time * 10,
    down := time * 10, upDelay := 0, downDelay := 0, elapsed := 0, paused := false,
    moves := releaseMoves q (s.pb q).look s.slots }

/-- The context of a playback that a RELEASE fades out, before its fetch (R76). -/
def wentOut (s : State) (q : PbId) (time : Nat) : Playback :=
  { s.pb q with
    state := .running, look := (s.slotOut q time).writeLook 0 (s.pb q).look, follow := none, back := [], lastRun := none,
    explicit := none, pendingGo := none }

/-- The context of an EMPTY playback that a RELEASE clears, before its fetch (R76). -/
def cleared (s : State) (q : PbId) : Playback := { s.pb q with lastRun := none, explicit := none, pendingGo := none }

/-- A playback past HELD where it stood in it, its follow idle and its slots dropped: only the dropped slots tell (R76). -/
theorem dropped_unheld (s : State) (q : PbId) (x : Playback) (h : x.follow = none) (b : Prop) [Decidable b] :
    (if b then (s.setPb q x).unhold q else s.setPb q x).dropSlots q = (s.setPb q x).dropSlots q := by
  split_ifs
  · rw [unhold_idle (by rw [pb_setPb_same]; exact h)]
    unfold dropSlots
    rw [setPaused_slots, withoutSlotsOf_pausedSlots]
    rfl
  · rfl

section Releasing

variable {s : State} {a : Requester} {q : PbId} {time : Nat} {adj : Bool}

theorem endPending_pb (st : Status) (hst : st = .cancelled ∨ st = .halted) :
    (s.endPending q st).pb q = { s.pb q with pendingGo := none } := by
  rw [endPending_told s q hst, unpended, pb_setPb_same, tellPending_upon]
  rfl

/-- RELEASE of a playback past the capacity tests: the GO that waits ended, then the slot, the reply and the fetch (R76). -/
theorem releaseSlot_eq : s.releaseSlot a q time adj (releaseMoves q (s.pb q).look s.slots)
    = ((({ s.tellPending q (s.pb q).pendingGo .cancelled with
        slots := insertSlot (s.slotOut q time) (withoutSlotsOf q s.slots) } : State).setPb q (s.wentOut q time)).answer a
          (okOr adj) (b1 (num q) ++ b2 (s.slotOut q time).number ++ b2 time)).startFetchCore q := by
  have told : (s.tellPending q (s.pb q).pendingGo .cancelled).slots = s.slots := by rw [tellPending_upon]; rfl
  unfold releaseSlot
  dsimp only
  rw [endPending_pb .cancelled (.inl rfl), dropped_unheld _ _ _ rfl, endPending_told s q (.inl rfl)]
  generalize s.tellPending q (s.pb q).pendingGo .cancelled = v at told
  rw [unpended, setPb_setPb, releaseReply, startFetch_quiet (by simp [createSlot, newSlot, pb, setPb])]
  simp [wentOut, slotOut, createSlot, newSlot, dropSlots, told, takeover_withoutSlotsOf, setPb, pb, Four.set_set]

/-- RELEASE of an EMPTY playback: the GO that waits ended, the sequence cleared, and the fetch (R76). -/
theorem releaseCommand_empty (h : (s.pb q).state = .empty) : s.releaseCommand a q time adj
    = (((s.tellPending q (s.pb q).pendingGo .cancelled).setPb q (s.cleared q)).answer a (okOr adj)
        (b1 (num q) ++ b2 0 ++ b2 time)).startFetchCore q := by
  have clear : (s.endPending q .cancelled).setPb q
      { (s.endPending q .cancelled).pb q with lastRun := none, explicit := none }
      = (s.tellPending q (s.pb q).pendingGo .cancelled).setPb q (s.cleared q) := by
    rw [endPending_pb .cancelled (.inl rfl), endPending_told s q (.inl rfl), unpended, setPb_setPb]
    rfl
  unfold releaseCommand releaseReply
  dsimp only
  rw [if_pos h, clear, startFetch_quiet (by simp [pb, setPb, cleared])]

theorem releaseCommand_refused {st : Status} (h : (s.pb q).state ≠ .empty)
    (hr : releaseRefusal q (releaseMoves q (s.pb q).look s.slots) s.slots = some st) :
    s.releaseCommand a q time adj = s.answer a st [] := by
  unfold releaseCommand
  dsimp only
  rw [if_neg h, hr]

theorem releaseCommand_taken (h : (s.pb q).state ≠ .empty)
    (hr : releaseRefusal q (releaseMoves q (s.pb q).look s.slots) s.slots = none) :
    s.releaseCommand a q time adj
      = s.releaseSlot a q time adj (releaseMoves q (s.pb q).look s.slots) := by
  unfold releaseCommand
  dsimp only
  rw [if_neg h, hr]

end Releasing

/-! ### What a RELEASE leaves -/

/-- A look that a RELEASE slot has written covers no channel that the slot does not move (R76). -/
theorem slotOut_covers (s : State) (q : PbId) (time : Nat) :
    ∀ e ∈ (s.slotOut q time).writeLook 0 (s.pb q).look, ∃ m ∈ (s.slotOut q time).moves, m.channel = e.1 := by
  intro e he
  rcases Look.mem_writes he with hlit | hmoved
  · exact (releaseMoves_channel e.1).mpr ((mem_litOrHeld _ _ _ _).mpr (.inl hlit))
  · exact hmoved

/-- A playback with a RELEASE slot over the slots of the others fades out (R64, R76). -/
theorem fadingOut_slotOut {s t : State} {q : PbId} {time : Nat}
    (hs : t.slots = insertSlot (s.slotOut q time) (withoutSlotsOf q s.slots))
    (hl : (t.pb q).look = (s.slotOut q time).writeLook 0 (s.pb q).look) (hb : (t.pb q).back = [])
    (hf : (t.pb q).follow = none) : t.FadingOut q (s.slotOut q time) := by
  refine ⟨?_, rfl, fun m hm => (mem_releaseMoves.mp hm).2.2, ?_, hb, hf⟩
  · rw [hs]
    exact filter_insertSlot_only (x := s.slotOut q time) (by simp [withoutSlotsOf, slotOut])
  · rw [hl]
    exact slotOut_covers s q time

section Asked

variable {s : State} {p : PortId} {r : Request} {rest : List Request} {q : PbId}

theorem release_takes (hd : s.Head p 0x35 r rest) (hu : s.MayUse p .playback) (hh : s.sup.halted = false) :
    s.Takes p 0x35 r rest := takes_of .playback false hd hu rfl (.inr hh) (mustWait_free s rfl rfl)

/-- A RELEASE with no GO pending: its reply, the context and the slots it sets, and the fetch that follows (R76). -/
theorem release_settles {x : Playback} {slots : List Slot} {st : Status} {fields : List Byte}
    (hx : exec (.release p) s = .next
      ((((({ s.takeOff p rest with slots := slots } : State).setPb q x).answer (requesterOf p r) st fields).startFetchCore
        q).settle)) :
    Settles (.release p) s (fun t => s.Answered t p rest [replyTo r st fields] ∧ t.slots = slots
      ∧ t.pb q = { x with standby := (t.pb q).standby, fetch := (t.pb q).fetch }
      ∧ (∀ q', q' ≠ q → t.pb q' = s.pb q') ∧ t.shell = s.shell ∧ t.inputs = s.inputs ∧ t.sup = s.sup) := by
  obtain ⟨u, hu⟩ : ∃ u, u = (({ s.takeOff p rest with slots := slots } : State).setPb q x).answer (requesterOf p r) st fields :=
    ⟨_, rfl⟩
  have fetched := fetchesOnly_startFetchCore u q
  have pbs (q' : PbId) : u.pb q' = (s.setPb q x).pb q' := by
    rw [hu, pb, answer_eng]
    cases p <;> rfl
  have inside : u.inside = (({ s with slots := slots } : State).setPb q x).inside := by
    rw [hu, inside_answer]
    cases p <;> rfl
  refine ⟨_, hx, ?_⟩
  rw [← hu]
  refine ⟨answered_congr (fun y => ?_) (answered_answer s p r rest st fields), ?_, ?_, fun q' hq => ?_, ?_, ?_, ?_⟩
  · rw [fetched.port, hu]
    cases p <;> cases y <;> rfl
  · rw [startFetchCore_slots, hu, answer_slots]; rfl
  · rw [fetched.pb_same, pbs, pb_setPb_same]
  · rw [fetched.pb_other hq, pbs, pb_setPb_other _ _ _ _ hq]
  · exact fetched.shell.trans ((shell_of_inside inside).trans rfl)
  · rw [startFetchCore_inputs, hu, answer_inputs]; exact takeOff_inputs s p rest
  · rw [startFetchCore_sup, hu, answer_sup]; exact takeOff_sup s p rest

end Asked

end State

/-! ### The obligation -/

/-- Settles O34: an EMPTY playback, the capacity tests, and the fade-out, whose slot covers the look
(`State.fadingOut_slotOut`). -/
theorem releaseFadesOut : Obligations.ReleaseFadesOut := by
  intro s p r rest q sent hd hu hh hb hsent time st moves others full x told
  have ht := State.release_takes hd hu hh
  have hp : parseRelease r.body = .ok (q, time, decide (6000 < sent)) := hb ▸ parseRelease_eq q hsent
  have status : okOr (decide (6000 < sent)) = st := okOr_decide _
  have context : (s.takeOff p rest).pb q = s.pb q := State.pb_setPort _ _ _ _
  have table : (s.takeOff p rest).slots = s.slots := State.takeOff_slots s p rest
  have refusal : releaseRefusal q (releaseMoves q ((s.takeOff p rest).pb q).look (s.takeOff p rest).slots)
      (s.takeOff p rest).slots = releaseRefusal q moves s.slots := by rw [context, table]
  have slot : (s.takeOff p rest).slotOut q time = x := by cases p <;> rfl
  have went : (s.takeOff p rest).wentOut q time = s.wentOut q time := by cases p <;> rfl
  have runs : exec (.release p) s
      = .next ((s.takeOff p rest).releaseCommand (requesterOf p r) q time (decide (6000 < sent))).settle := by
    change Host.Outcome.next (s.takeStoreRequest p 0x35 parseRelease State.releaseWork) = _
    rw [State.takeStoreRequest_takes (by decide) ht hp]
    rfl
  obtain ⟨noSlot, poolFull, passes⟩ := releaseRefusal_spec q moves s.slots
  have empty (h : (s.pb q).state = .empty) : exec (.release p) s = .next
      (((told.setPb q (s.cleared q)).answer (requesterOf p r) st (b1 (num q) ++ b2 0 ++ b2 time)).startFetchCore q).settle := by
    have clear : (s.takeOff p rest).cleared q = s.cleared q := by rw [State.cleared, context]; rfl
    rw [runs, State.releaseCommand_empty (by rw [context]; exact h), status, context, clear]
  have taken (h : (s.pb q).state ≠ .empty) (hf : ¬ full) (hp : poolUse others + moves.length ≤ 16384) :
      exec (.release p) s = .next (((({ told with slots := insertSlot x others } : State).setPb q (s.wentOut q time)).answer
        (requesterOf p r) st (b1 (num q) ++ b2 x.number ++ b2 time)).startFetchCore q).settle := by
    rw [runs, State.releaseCommand_taken (by rw [context]; exact h) (refusal.trans (passes hf hp)), State.releaseSlot_eq,
      status, slot, went, context, table]
    rfl
  have quiet (hg : (s.pb q).pendingGo = none) : told = s.takeOff p rest := by
    change (s.takeOff p rest).tellPending q (s.pb q).pendingGo .cancelled = _
    rw [hg]
    rfl
  refine ⟨empty, fun h hf => ?_, fun h hf hpool => ?_, taken, fun h hg => ?_, fun h hf hpool hg => ?_,
    fun q' o a hg => ?_, fun o a hg => ?_, fun m hm => (mem_releaseMoves.mp hm).2.symm, fun c => ?_⟩
  · exact State.answers_of rfl (by decide) ht hp
      (State.releaseCommand_refused (by rw [context]; exact h) (refusal.trans (noSlot hf)))
  · exact State.answers_of rfl (by decide) ht hp
      (State.releaseCommand_refused (by rw [context]; exact h) (refusal.trans (poolFull hf hpool)))
  · have ran := empty h
    rw [quiet hg] at ran
    obtain ⟨t, hx, answered, slots, here, others, kept⟩ := State.release_settles (slots := s.slots) (x := s.cleared q)
      (ran.trans (by cases p <;> rfl))
    rw [State.cleared, ← hg] at here
    exact ⟨t, hx, answered, here, others, slots, kept⟩
  · have ran := taken h hf hpool
    rw [quiet hg] at ran
    obtain ⟨t, hx, answered, slots, here, kept⟩ := State.release_settles ran
    have fades : t.FadingOut q x := State.fadingOut_slotOut slots (congrArg Playback.look here)
      (congrArg Playback.back here) (congrArg Playback.follow here)
    rw [State.wentOut, ← hg] at here
    exact ⟨t, hx, answered, slots, fades, here, kept⟩
  · rw [State.endPending, hg]
    rfl
  · rw [State.endPending, hg]
    rfl
  · rw [releaseMoves_channel, mem_litOrHeld]

end Sys2Proof.Machine

/-! RESTART: the playbacks cleared in their turns, the changeover called off, and the answer that comes last (R85, R125,
R126, R188). -/

namespace Sys2Proof.Machine

/-- A playback's context after RESTART: the sequence cleared, the look kept (R85). -/
def Playback.restarted (x : Playback) : Playback :=
  { x with
    state := if x.look = [] then .empty else .settled, lastRun := none, explicit := none, follow := none, back := [],
    pendingGo := none }

namespace State

/-! ### The turn of one playback -/

/-- A playback's slots ended at their present levels and its sequence cleared, by its context before (R85, R100). -/
def clearedOf (t : State) (p : PbId) (x : Playback) : State :=
  ({ t with slots := t.slots.filter (fun y => y.playback ≠ p) } : State).setPb p x.restarted

/-- A playback's turn at RESTART, by its context before it: its GO ended, its slots and sequence cleared, its fetch (R85). -/
def restartTurn (v : State) (p : PbId) (x : Playback) : State :=
  ((v.tellPending p x.pendingGo .cancelled).clearedOf p x).startFetchCore p

theorem restartPlayback_turn (v : State) (p : PbId) :
    (v.restartPlayback p).startFetch p = v.restartTurn p (v.pb p) := by
  have cleared : v.restartPlayback p = (v.tellPending p (v.pb p).pendingGo .cancelled).clearedOf p (v.pb p) := by
    have context : ((v.endPending p .cancelled).dropSlots p).pb p = { v.pb p with pendingGo := none } :=
      endPending_pb .cancelled (.inl rfl)
    unfold restartPlayback
    dsimp only
    rw [context, endPending_told v p (.inl rfl)]
    simp [Playback.restarted, clearedOf, unpended, dropSlots, withoutSlotsOf, setPb, Four.set_set, List.isEmpty_iff]
  rw [cleared, startFetch_quiet (by rw [clearedOf, pb_setPb_same]; rfl)]
  rfl

/-- Everything that a playback's turn leaves alone. -/
def lasting (s : State) : State :=
  { s with
    con := .reset, aux := .reset, link := .reset, inputs := State.reset.inputs, slots := []
    eng := { s.eng with pb := Engine.reset.pb }
    ctl := { s.ctl with op := none, fetches := ⟨none, none, none, none⟩ } }

theorem lasting_report (s : State) (k : Nat) (u : Bool) (b : List Byte) : (s.report k u b).lasting = s.lasting := by
  rw [report_upon]; rfl

theorem lasting_tellPending (s : State) (p : PbId) (g : Option PendingGo) (st : Status) :
    (s.tellPending p g st).lasting = s.lasting := by
  rw [tellPending_upon]; rfl

theorem lasting_answer (s : State) (q : Requester) (st : Status) (b : List Byte) :
    (s.answer q st b).lasting = s.lasting := by
  rw [answer_upon]; rfl

theorem lasting_endAtOnce (s : State) (p : PbId) (before now : Standby) :
    (s.endAtOnce p before now).lasting = s.lasting := by
  unfold endAtOnce
  dsimp only
  split_ifs
  · rfl
  · exact lasting_report _ _ _ _

theorem lasting_takeStandby (s : State) (p : PbId) (now : Standby) : (s.takeStandby p now).lasting = s.lasting :=
  lasting_report _ _ _ _

theorem lasting_startFetchCore (s : State) (p : PbId) : (s.startFetchCore p).lasting = s.lasting := by
  have dropped : (s.dropFetch p).lasting = s.lasting := rfl
  rw [← dropped]
  unfold startFetchCore
  dsimp only
  split
  · split_ifs
    · exact lasting_endAtOnce _ _ _ _
    · split
      · exact lasting_takeStandby _ _ _
      · exact lasting_takeStandby _ _ _
      · rfl
  · exact lasting_endAtOnce _ _ _ _

theorem lasting_restartTurn (v : State) (p : PbId) (x : Playback) : (v.restartTurn p x).lasting = v.lasting :=
  (lasting_startFetchCore _ p).trans (lasting_tellPending v p x.pendingGo .cancelled)

theorem restartTurn_slots (v : State) (p : PbId) (x : Playback) : (v.restartTurn p x).slots = withoutSlotsOf p v.slots := by
  rw [restartTurn, startFetchCore_slots, clearedOf, setPb_slots, tellPending_upon]
  rfl

theorem restartTurn_pb_same (v : State) (p : PbId) (x : Playback) :
    ∃ y f, (v.restartTurn p x).pb p = { x.restarted with standby := y, fetch := f } :=
  ⟨_, _, (fetchesOnly_startFetchCore _ p).pb_same.trans (by rw [clearedOf, pb_setPb_same])⟩

theorem restartTurn_pb_other (v : State) {p q : PbId} (x : Playback) (h : q ≠ p) : (v.restartTurn p x).pb q = v.pb q := by
  rw [restartTurn, (fetchesOnly_startFetchCore _ p).pb_other h, clearedOf, pb_setPb_other _ _ _ _ h, tellPending_upon]
  rfl

/-! ### What the console is told -/

/-- CANCELLED replies, and no others, have joined what a port has to send. -/
def AddsCancelled (x y : Port) (l : List Reply) : Prop :=
  y = { x with replies := x.replies ++ l } ∧ ∀ r ∈ l, r.status = .cancelled

theorem AddsCancelled.none (x : Port) : AddsCancelled x x [] := ⟨by rw [List.append_nil], by simp⟩

theorem AddsCancelled.trans {x y z : Port} {l m : List Reply} (hxy : AddsCancelled x y l) (hyz : AddsCancelled y z m) :
    AddsCancelled x z (l ++ m) := by
  obtain ⟨rfl, hl⟩ := hxy
  obtain ⟨rfl, hm⟩ := hyz
  refine ⟨by rw [List.append_assoc], fun r hr => ?_⟩
  exact (List.mem_append.mp hr).elim (hl r) (hm r)

theorem answer_addsCancelled (s : State) (q : Requester) (b : List Byte) :
    ∃ l, AddsCancelled s.con (s.answer q .cancelled b).con l := by
  obtain ⟨port, tag, kind⟩ := q
  cases port with
  | console => exact ⟨_, rfl, by simp⟩
  | aux => exact ⟨[], AddsCancelled.none _⟩

theorem tellPending_addsCancelled (s : State) (p : PbId) (g : Option PendingGo) :
    ∃ l, AddsCancelled s.con (s.tellPending p g .cancelled).con l ∧ (g = none → l = []) := by
  unfold tellPending
  cases g with
  | none => exact ⟨[], AddsCancelled.none _, fun _ => rfl⟩
  | some g =>
    rw [Option.map_some]
    cases g.source with
    | port q =>
      obtain ⟨l, hl⟩ := answer_addsCancelled s q []
      exact ⟨l, hl, nofun⟩
    | input i => exact ⟨[], by rw [report_con]; exact AddsCancelled.none _, nofun⟩
    | follow => exact ⟨[], AddsCancelled.none _, nofun⟩

theorem restartTurn_addsCancelled (v : State) (p : PbId) (x : Playback) :
    ∃ l, AddsCancelled v.con (v.restartTurn p x).con l ∧ (x.pendingGo = none → l = []) := by
  obtain ⟨l, hl, hn⟩ := tellPending_addsCancelled v p x.pendingGo
  exact ⟨l, by rw [restartTurn, startFetchCore_con]; exact hl, hn⟩

/-! ### The turns of the playbacks -/

/-- The turns of playbacks at RESTART, by the contexts of a state before them (R85; log 47). -/
def restartTurns (l : List PbId) (s v : State) : State := l.foldl (fun v p => v.restartTurn p (s.pb p)) v

section Turns

variable {s : State}

theorem foldl_restartPlayback {l : List PbId} (hl : l.Nodup) {v : State} (hv : ∀ p ∈ l, v.pb p = s.pb p) :
    l.foldl (fun t p => (t.restartPlayback p).startFetch p) v = restartTurns l s v := by
  induction l generalizing v with
  | nil => rfl
  | cons p rest ih =>
    obtain ⟨hp, hrest⟩ := List.nodup_cons.mp hl
    have turn : (v.restartPlayback p).startFetch p = v.restartTurn p (s.pb p) := by
      rw [restartPlayback_turn, hv p List.mem_cons_self]
    rw [List.foldl_cons, turn, ih hrest fun q hq => ?_]
    · rfl
    · rw [restartTurn_pb_other _ _ (ne_of_mem_of_not_mem hq hp), hv q (List.mem_cons_of_mem _ hq)]

theorem restartTurns_lasting (l : List PbId) (v : State) : (restartTurns l s v).lasting = v.lasting :=
  foldl_keeps (fun t p => lasting_restartTurn t p (s.pb p)) l v

theorem restartTurns_slots (l : List PbId) (v : State) :
    (restartTurns l s v).slots = l.foldl (fun x p => withoutSlotsOf p x) v.slots := by
  induction l generalizing v with
  | nil => rfl
  | cons p rest ih => exact (ih (v.restartTurn p (s.pb p))).trans (by rw [restartTurn_slots]; rfl)

theorem restartTurns_pb_other {l : List PbId} {q : PbId} (h : q ∉ l) (v : State) : (restartTurns l s v).pb q = v.pb q := by
  induction l generalizing v with
  | nil => rfl
  | cons p rest ih =>
    obtain ⟨hp, hrest⟩ := List.ne_and_not_mem_of_not_mem_cons h
    exact (ih hrest (v.restartTurn p (s.pb p))).trans (restartTurn_pb_other v _ hp)

theorem restartTurns_pb {l : List PbId} (hl : l.Nodup) {q : PbId} (h : q ∈ l) (v : State) :
    ∃ y f, (restartTurns l s v).pb q = { (s.pb q).restarted with standby := y, fetch := f } := by
  induction l generalizing v with
  | nil => simp at h
  | cons p rest ih =>
    obtain ⟨hp, hrest⟩ := List.nodup_cons.mp hl
    rcases List.mem_cons.mp h with rfl | hq
    · obtain ⟨y, f, here⟩ := restartTurn_pb_same v q (s.pb q)
      exact ⟨y, f, (restartTurns_pb_other hp (v.restartTurn q (s.pb q))).trans here⟩
    · exact ih hrest hq (v.restartTurn p (s.pb p))

theorem restartTurns_addsCancelled (l : List PbId) (v : State) : ∃ m, AddsCancelled v.con (restartTurns l s v).con m
    ∧ ((∀ p ∈ l, (s.pb p).pendingGo = none) → m = []) := by
  induction l generalizing v with
  | nil => exact ⟨[], AddsCancelled.none _, fun _ => rfl⟩
  | cons p rest ih =>
    obtain ⟨m, hm, first⟩ := restartTurn_addsCancelled v p (s.pb p)
    obtain ⟨n, hn, later⟩ := ih (v.restartTurn p (s.pb p))
    refine ⟨m ++ n, hm.trans hn, fun h => ?_⟩
    rw [first (h p List.mem_cons_self), later fun q hq => h q (List.mem_cons_of_mem _ hq), List.append_nil]

end Turns

/-! ### The changeover called off -/

/-- A state whose changeover in flight, if there is one, has been cancelled (R125). -/
def calledOff (s : State) : State :=
  match s.bank.change with
  | none => s
  | some c => s.cancelChangeover c

theorem calledOff_idle {s : State} (h : s.bank.change = none) : s.calledOff = s := by rw [calledOff, h]

theorem calledOff_change {s : State} {c : Change} (h : s.bank.change = some c) : s.calledOff = s.cancelChangeover c := by
  rw [calledOff, h]

/-- What calling off a changeover leaves as it is, and what it empties (R125). -/
theorem calledOff_parts (s : State) :
    s.calledOff.sup = s.sup ∧ s.calledOff.bank = { s.bank with change := none }
    ∧ s.calledOff.patch = (if s.bank.change = none then s.patch
        else { s.patch with pending := [], pendingWindows := .empty, follows := none })
    ∧ s.calledOff.merge = s.merge ∧ s.calledOff.outp = s.outp ∧ s.calledOff.cas = s.cas ∧ s.calledOff.store = s.store
    ∧ s.calledOff.free = s.free ∧ s.calledOff.wire = s.wire ∧ s.calledOff.ctl.queue = s.ctl.queue
    ∧ s.calledOff.ctl.hostReads = s.ctl.hostReads ∧ s.calledOff.ctl.ram = s.ctl.ram ∧ s.calledOff.ctl.proj = s.ctl.proj
    ∧ (s.bank.change ≠ none → s.calledOff.ctl.loadClaim = none) := by
  cases hc : s.bank.change with
  | none =>
    rw [calledOff_idle hc]
    have bank : s.bank = { s.bank with change := none } := by rw [← hc]
    exact ⟨rfl, bank, (if_pos rfl).symm, rfl, rfl, rfl, rfl, rfl, rfl, rfl, rfl, rfl, rfl, fun h => absurd rfl h⟩
  | some c =>
    rw [calledOff_change hc, if_neg (by simp), cancelChangeover, answerOwed_ctl, answerOwed_sup, answerOwed_bank,
      answerOwed_patch, answerOwed_merge, answerOwed_outp, answerOwed_cas, answerOwed_store, answerOwed_free,
      answerOwed_wire]
    exact ⟨rfl, rfl, rfl, rfl, rfl, rfl, rfl, rfl, rfl, rfl, rfl, rfl, rfl, fun _ => rfl⟩

/-- The CHANGEOVER that a RESTART calls off is answered CANCELLED, where its reply is owed (R125). -/
theorem calledOff_addsCancelled (s : State) : ∃ l, AddsCancelled s.con s.calledOff.con l
    ∧ (s.bank.change = none → l = [])
    ∧ ∀ c tag, s.bank.change = some c → c.owed = some tag →
        ({ kind := 0xD0, tag := tag, status := .cancelled, fields := cancelFields c } : Reply) ∈ l := by
  cases hc : s.bank.change with
  | none =>
    rw [calledOff_idle hc]
    exact ⟨[], AddsCancelled.none _, fun _ => rfl, nofun⟩
  | some c =>
    rw [calledOff_change hc, cancelChangeover]
    cases ho : c.owed with
    | none =>
      refine ⟨[], AddsCancelled.none _, nofun, fun c' tag h htag => ?_⟩
      cases h
      cases ho.symm.trans htag
    | some tag =>
      refine ⟨_, ⟨rfl, fun r hr => ?_⟩, nofun, fun c' tag' h htag => ?_⟩
      · rw [List.mem_singleton.mp hr]
      · cases h
        cases ho.symm.trans htag
        exact List.mem_singleton_self _

/-- A part that has left HALTED with its fault record emptied (R188). -/
def normalized (s : State) : State := { s with sup := { s.sup with record := none, halted := false } }

theorem cancelChangeover_normalized (s : State) (c : Change) :
    s.normalized.cancelChangeover c = (s.cancelChangeover c).normalized := by
  obtain ⟨target, dark, position, owed, waiting, darkSteps⟩ := c
  cases owed <;> rfl

/-- The fields of RESTART's reply (R188). -/
def restartFields (s : State) : List Byte :=
  bBool s.sup.halted ++ b1 ((s.sup.record.map (fun f => f.kind.code)).getD 0) ++ bBool (decide (s.bank.change ≠ none))
    ++ b1 ((four.filter (fun p => (s.pb p).pendingGo.isSome)).length)

theorem pendingGos_eq (s : State) : s.pendingGos = (four.filter (fun p => (s.pb p).pendingGo.isSome)).length := by
  have playbacks : s.eng.pb.toList = four.map s.pb := rfl
  rw [pendingGos, playbacks, List.filter_map, List.length_map]
  rfl

theorem calledOff_eng (s : State) : s.calledOff.eng = s.eng := by
  unfold calledOff
  split
  · rfl
  · rw [cancelChangeover, answerOwed_eng, endChangeover_eng]

/-- RESTART: the changeover called off, the engine NORMAL, the playbacks' turns, and the answer last (R188). -/
theorem restartWork_eq (s : State) (a : Requester) :
    s.restartWork a () = (restartTurns four s s.calledOff.normalized).answer a .ok s.restartFields := by
  have begun : (match s.bank.change with
      | some c => s.normalized.cancelChangeover c
      | none => s.normalized) = s.calledOff.normalized := by
    cases hc : s.bank.change with
    | none => rw [calledOff_idle hc]
    | some c => rw [calledOff_change hc]; exact cancelChangeover_normalized s c
  have turns := foldl_restartPlayback (s := s) (l := four) (by decide) (v := s.calledOff.normalized)
    (fun p _ => congrArg (fun e : Engine => e.pb.get p) s.calledOff_eng)
  have change : s.bank.change.isSome = decide (s.bank.change ≠ none) := by cases s.bank.change <;> rfl
  rw [restartFields, ← pendingGos_eq, ← change, ← turns, ← begun]
  rfl

/-- The state that RESTART answers from, once it is taken off the Console Port's queue (R188). -/
def restartedAll (s : State) (rest : List Request) : State :=
  restartTurns four s (s.takeOff .console rest).calledOff.normalized

theorem restart_runs {s : State} {r : Request} {rest : List Request} (hd : s.Head .console 0x5E r rest)
    (hrole : s.isFollower = false) (hb : r.body = []) : exec (.restart .console) s
      = .next ((s.restartedAll rest).answer (requesterOf .console r) .ok s.restartFields).settle := by
  have ht : s.Takes .console 0x5E r rest := console_takes hrole hd rfl rfl rfl
  change Host.Outcome.next (s.takeStoreRequest .console 0x5E parseNone restartWork) = _
  rw [takeStoreRequest_takes (by decide) ht (parseNone_empty hb), restartWork_eq]
  rfl

/-- What the playbacks' turns leave alone stands as the calling off of the changeover left it. -/
theorem restartedAll_keeps {α : Type} (g : State → α) (hg : ∀ v : State, g v = g v.lasting) (s : State)
    (rest : List Request) : g (s.restartedAll rest) = g (s.takeOff .console rest).calledOff.normalized := by
  rw [hg, restartedAll, restartTurns_lasting, ← hg]

theorem restartedAll_slots (s : State) (rest : List Request) : (s.restartedAll rest).slots = [] := by
  rw [restartedAll, restartTurns_slots, withoutSlotsOf_four]

theorem restartedAll_pb (s : State) (rest : List Request) (p : PbId) :
    ∃ y f, (s.restartedAll rest).pb p = { (s.pb p).restarted with standby := y, fetch := f } :=
  restartTurns_pb (l := four) (by decide) (mem_four p) _

theorem restartedAll_addsCancelled (s : State) (rest : List Request) :
    ∃ l, AddsCancelled (s.takeOff .console rest).con (s.restartedAll rest).con l
      ∧ (∀ c tag, s.bank.change = some c → c.owed = some tag →
          ({ kind := 0xD0, tag := tag, status := .cancelled, fields := cancelFields c } : Reply) ∈ l)
      ∧ (s.bank.change = none → (∀ p, (s.pb p).pendingGo = none) → l = []) := by
  obtain ⟨l, hl, idle, told⟩ := (s.takeOff .console rest).calledOff_addsCancelled
  obtain ⟨m, hm, unheld⟩ := restartTurns_addsCancelled (s := s) four (s.takeOff .console rest).calledOff.normalized
  refine ⟨l ++ m, hl.trans hm, fun c tag h ho => List.mem_append_left _ (told c tag h ho), fun h hp => ?_⟩
  rw [idle h, unheld fun p _ => hp p, List.append_nil]

end State

/-! ### The obligation -/

/-- Settles O44: the state that RESTART answers from is the playbacks' turns over the changeover called off
(`State.restart_runs`); what the turns leave alone, and what they make of each playback, is told turn by turn. -/
theorem restartClears : Obligations.RestartClears := by
  intro s r rest hd hrole hb
  have runs := State.restart_runs hd hrole hb
  refine ⟨⟨_, runs, ?_⟩, ?_⟩
  · obtain ⟨sup, bank, patch, merge, outp, cas, store, free, wire, queue, reads, ram, proj, claim⟩ :=
      (s.takeOff .console rest).calledOff_parts
    obtain ⟨l, con, told, quiet⟩ := s.restartedAll_addsCancelled rest
    obtain ⟨con, cancelled⟩ := con
    have kept {α : Type} (g : State → α) (hg : ∀ v : State, g v = g v.lasting) :
        g ((s.restartedAll rest).answer (requesterOf .console r) .ok s.restartFields)
          = g (s.takeOff .console rest).calledOff.normalized := by
      rw [hg, State.lasting_answer, ← hg, State.restartedAll_keeps g hg]
    have answered := (State.answer_port (s.restartedAll rest) .console r .ok s.restartFields).1
    change State.con _ = _ at answered
    refine ⟨(kept (·.sup) fun _ => rfl).trans (by rw [State.normalized, sup]; rfl), (kept (·.bank) fun _ => rfl).trans bank,
      (kept (·.patch) fun _ => rfl).trans patch, ?_, fun p => ?_, (kept (·.merge) fun _ => rfl).trans merge,
      (kept (·.outp) fun _ => rfl).trans outp, (kept (·.cas) fun _ => rfl).trans cas,
      (kept (·.store) fun _ => rfl).trans store, (kept (·.free) fun _ => rfl).trans free,
      (kept (·.wire) fun _ => rfl).trans wire, (kept (·.ctl.queue) fun _ => rfl).trans queue,
      (kept (·.ctl.hostReads) fun _ => rfl).trans reads, (kept (·.ctl.ram) fun _ => rfl).trans ram,
      (kept (·.ctl.proj) fun _ => rfl).trans proj, fun h => (kept (·.ctl.loadClaim) fun _ => rfl).trans (claim h), ?_, ?_,
      l, ?_, cancelled, told, quiet⟩
    · rw [State.answer_slots, s.restartedAll_slots rest]
    · obtain ⟨y, f, pb⟩ := s.restartedAll_pb rest p
      rw [State.pb, State.answer_eng]
      change (s.restartedAll rest).pb p = { (s.pb p).restarted with
        standby := ((s.restartedAll rest).pb p).standby, fetch := ((s.restartedAll rest).pb p).fetch }
      rw [pb]
    · rw [answered]
      change (s.restartedAll rest).con.requests = rest
      rw [con]
      rfl
    · rw [answered]
      change (s.restartedAll rest).con.owed = s.con.owed + 1
      rw [con]
      rfl
    · rw [answered]
      change Port.outgoing { (s.restartedAll rest).con with replies := (s.restartedAll rest).con.replies ++ _ } = _
      rw [State.outgoing_append, con, State.outgoing_append]
      rfl
  · intro ended cleared
    have off : ended = (s.takeOff .console rest).calledOff := by
      simp only [ended]
      cases hc : s.bank.change with
      | none => exact (State.calledOff_idle (s := s.takeOff .console rest) hc).symm
      | some c =>
        rw [State.calledOff_change (s := s.takeOff .console rest) hc]
        obtain ⟨target, dark, position, owed, waiting, darkSteps⟩ := c
        cases owed <;> rfl
    have begun : (s.takeOff .console rest).calledOff.normalized
        = { ended with sup := { s.sup with record := none, halted := false } } := by
      rw [off, State.normalized, (s.takeOff .console rest).calledOff_parts.1]
      rfl
    rw [runs, State.restartedAll, begun]
    rfl

end Sys2Proof.Machine

/-! A fade step: the slots advanced in their order, each over the look of its playback, and the playbacks whose last slot
has ended (R64, R92, R93, R94, R96, R97, R99). -/

namespace Sys2Proof.Machine

/-! ### One slot -/

namespace Slot

/-- What a fade step makes of a slot: nothing, where it ends it (R94, R96). -/
def advanced (x : Slot) : Option Slot :=
  if x.paused then some x else if x.finish ≤ x.elapsed + 1 then none else some { x with elapsed := x.elapsed + 1 }

/-- The look of a slot's playback after the slot's turn in a fade step (R94, R96). -/
def lookAfter (x : Slot) (look : Look) : Look :=
  if x.paused then look
  else if x.finish ≤ x.elapsed + 1 then
    x.moves.foldl (fun l m => l.write m.channel m.target) (x.writeLook (x.elapsed + 1) look)
  else x.writeLook (x.elapsed + 1) look

/-- The context of a slot's playback after the slot's turn, by the other slots of the table (R64, R96). -/
def contextAfter (x : Slot) (others : List Slot) (y : Playback) : Playback :=
  { y with
    look := x.lookAfter y.look
    state := if x.advanced = none ∧ ∀ z ∈ others, z.playback ≠ x.playback then
        State.afterLastSlot x.kind { y with look := x.lookAfter y.look }
      else y.state }

variable {x : Slot}

theorem advanced_paused (h : x.paused = true) : x.advanced = some x := if_pos h

theorem advanced_ended (h : x.paused = false) (hf : x.finish ≤ x.elapsed + 1) : x.advanced = none := by
  rw [advanced, if_neg (by simp [h]), if_pos hf]

theorem advanced_running (h : x.paused = false) (hf : ¬ x.finish ≤ x.elapsed + 1) :
    x.advanced = some { x with elapsed := x.elapsed + 1 } := by rw [advanced, if_neg (by simp [h]), if_neg hf]

theorem advanced_stays (h : ¬ (x.paused = false ∧ x.finish ≤ x.elapsed + 1)) :
    x.advanced = some (if x.paused then x else { x with elapsed := x.elapsed + 1 }) := by
  by_cases hp : x.paused
  · rw [advanced_paused hp, if_pos hp]
  · have running : x.paused = false := by simpa using hp
    rw [advanced_running running fun hf => h ⟨running, hf⟩, if_neg hp]

theorem advanced_keeps {z : Slot} (h : x.advanced = some z) :
    z.playback = x.playback ∧ z.kind = x.kind ∧ z.moves = x.moves := by
  unfold advanced at h
  split_ifs at h <;> (cases h; exact ⟨rfl, rfl, rfl⟩)

theorem advanced_number {z : Slot} (h : x.advanced = some z) : z.number = x.number := by
  unfold advanced at h
  split_ifs at h <;> (cases h; rfl)

theorem lookAfter_paused (h : x.paused = true) (look : Look) : x.lookAfter look = look := if_pos h

theorem lookAfter_ended (h : x.paused = false) (hf : x.finish ≤ x.elapsed + 1) (look : Look) : x.lookAfter look
    = x.moves.foldl (fun l m => l.write m.channel m.target) (x.writeLook (x.elapsed + 1) look) := by
  rw [lookAfter, if_neg (by simp [h]), if_pos hf]

theorem lookAfter_running (h : x.paused = false) (hf : ¬ x.finish ≤ x.elapsed + 1) (look : Look) :
    x.lookAfter look = x.writeLook (x.elapsed + 1) look := by rw [lookAfter, if_neg (by simp [h]), if_neg hf]

/-- A slot's turn leaves the channels that no move of it is on. -/
theorem lookAfter_level_other {c : Nat} (h : x.paused = false → ∀ m ∈ x.moves, m.channel ≠ c) (look : Look) :
    (x.lookAfter look).level c = look.level c := by
  by_cases hp : x.paused
  · rw [lookAfter_paused hp]
  · have others := h (by simpa using hp)
    by_cases hf : x.finish ≤ x.elapsed + 1
    · rw [lookAfter_ended (by simpa using hp) hf, Look.level_writes_other _ _ _ _ others, writeLook,
        Look.level_writes_other _ _ _ _ others]
    · rw [lookAfter_running (by simpa using hp) hf, writeLook, Look.level_writes_other _ _ _ _ others]

/-- A slot's turn puts the channel of a move at the move's level, or at its target as the slot ends. -/
theorem lookAfter_level {m : Move} (hp : x.paused = false) (hm : m ∈ x.moves)
    (h : ∀ m' ∈ x.moves, m'.channel = m.channel → m' = m) (look : Look) : (x.lookAfter look).level m.channel
      = if x.finish ≤ x.elapsed + 1 then m.target else x.level m (x.elapsed + 1) := by
  split_ifs with hf
  · rw [lookAfter_ended hp hf, Look.level_writes_mem _ _ _ m hm h]
  · rw [lookAfter_running hp hf, writeLook, Look.level_writes_mem _ _ _ m hm h]

/-- A slot's turn lights no channel but those that its moves are on. -/
theorem mem_lookAfter {look : Look} {e : Nat × Nat} (h : e ∈ x.lookAfter look) :
    (∃ d ∈ look, d.1 = e.1) ∨ ∃ m ∈ x.moves, m.channel = e.1 := by
  have written {f : Move → Nat} {l : Look} {e : Nat × Nat} :
      e ∈ x.moves.foldl (fun (l : Look) m => l.write m.channel (f m)) l →
        (∃ d ∈ l, d.1 = e.1) ∨ ∃ m ∈ x.moves, m.channel = e.1 := Look.mem_writes
  unfold lookAfter at h
  split_ifs at h
  · exact .inl ⟨e, h, rfl⟩
  · rcases written h with ⟨d, hd, he⟩ | hm
    · rcases written hd with ⟨d', hd', he'⟩ | ⟨m, hm, hc⟩
      · exact .inl ⟨d', hd', he'.trans he⟩
      · exact .inr ⟨m, hm, hc.trans he⟩
    · exact .inr hm
  · exact written h

end Slot

/-- Levels of 0 written leave in a look the channels that are not named. -/
theorem Look.mem_writes_zero {ms : List Move} (h0 : ∀ m ∈ ms, m.target = 0) {l : Look} {e : Nat × Nat}
    (h : e ∈ ms.foldl (fun (l : Look) m => l.write m.channel m.target) l) : e ∈ l ∧ ∀ m ∈ ms, m.channel ≠ e.1 := by
  induction ms generalizing l with
  | nil => exact ⟨h, by simp⟩
  | cons m rest ih =>
    obtain ⟨hm0, hrest⟩ := List.forall_mem_cons.mp h0
    obtain ⟨written, others⟩ := ih (l := l.write m.channel m.target) hrest h
    rw [Look.write, if_pos hm0] at written
    obtain ⟨mem, other⟩ := List.mem_filter.mp written
    exact ⟨mem, List.forall_mem_cons.mpr ⟨fun he => by simp [he] at other, others⟩⟩

/-- A slot that takes all of a look to 0 leaves it empty as it ends (R76). -/
theorem Slot.lookAfter_faded {x : Slot} {look : Look} (hp : x.paused = false) (hf : x.finish ≤ x.elapsed + 1)
    (h0 : ∀ m ∈ x.moves, m.target = 0) (hl : ∀ e ∈ look, ∃ m ∈ x.moves, m.channel = e.1) : x.lookAfter look = [] := by
  rw [Slot.lookAfter_ended hp hf, List.eq_nil_iff_forall_not_mem]
  intro e he
  obtain ⟨mem, others⟩ := Look.mem_writes_zero h0 he
  rcases Look.mem_writes mem with ⟨d, hd, hde⟩ | ⟨m, hm, hc⟩
  · obtain ⟨m, hm, hc⟩ := hl d hd
    exact others m hm (hc.trans hde)
  · exact others m hm hc

theorem afterLastSlot_eq (k : SlotKind) (y : Playback) : State.afterLastSlot k y
    = if k = .release ∧ y.look = [] ∧ y.back = [] ∧ y.follow = none then .empty else .settled := by
  simp only [State.afterLastSlot, List.isEmpty_iff, Option.isNone_iff_eq_none]

/-! ### The slots of one playback -/

theorem filterMap_advanced_cons (x : Slot) (l : List Slot) :
    (x :: l).filterMap Slot.advanced = x.advanced.toList ++ l.filterMap Slot.advanced := by
  cases hx : x.advanced <;> simp [hx]

theorem filter_filterMap_advanced (l : List Slot) (p : PbId) : (l.filterMap Slot.advanced).filter (fun z => z.playback = p)
    = (l.filter (fun x => x.playback = p)).filterMap Slot.advanced := by
  induction l with
  | nil => rfl
  | cons x rest ih =>
    rw [List.filterMap_cons]
    cases hx : x.advanced with
    | none => by_cases hp : x.playback = p <;> simp [hp, hx, ih]
    | some z => by_cases hp : x.playback = p <;> simp [hp, hx, ih, (Slot.advanced_keeps hx).1]

/-- The context of a playback after the turns of a run of slots, by the slots already advanced (R94). -/
def contextOf (p : PbId) : List Slot → List Slot → Playback → Playback
  | _, [], y => y
  | done, x :: rest, y =>
    contextOf p (done ++ x.advanced.toList) rest (if x.playback = p then x.contextAfter (done ++ rest) y else y)

section Context

variable {p : PbId}

/-- The turns of the slots write the look and the state of their playback, and no more of its context. -/
theorem contextOf_keeps (done l : List Slot) (y : Playback) : contextOf p done l y
    = { y with look := (contextOf p done l y).look, state := (contextOf p done l y).state } := by
  induction l generalizing done y with
  | nil => rfl
  | cons x rest ih =>
    rw [contextOf, ih]
    split_ifs <;> rfl

theorem contextOf_look (done l : List Slot) (y : Playback) : (contextOf p done l y).look
    = (l.filter (fun x => x.playback = p)).foldl (fun k x => x.lookAfter k) y.look := by
  induction l generalizing done y with
  | nil => rfl
  | cons x rest ih =>
    rw [contextOf, ih]
    by_cases hp : x.playback = p
    · rw [if_pos hp, List.filter_cons_of_pos (by simpa using hp)]
      rfl
    · rw [if_neg hp, List.filter_cons_of_neg (by simpa using hp)]

/-- Slots' turns leave the channels that no move of an unpaused one is on. -/
theorem foldl_lookAfter_level_other {c : Nat} {l : List Slot}
    (h : ∀ x ∈ l, x.paused = false → ∀ m ∈ x.moves, m.channel ≠ c) (look : Look) :
    (l.foldl (fun k x => x.lookAfter k) look).level c = look.level c := by
  induction l generalizing look with
  | nil => rfl
  | cons x rest ih =>
    obtain ⟨hx, hrest⟩ := List.forall_mem_cons.mp h
    rw [List.foldl_cons, ih hrest, Slot.lookAfter_level_other hx]

/-- A channel that one move alone is on takes the level of that move. -/
theorem foldl_lookAfter_level {l : List Slot} {x : Slot} {m : Move} (hx : x ∈ l) (hm : m ∈ x.moves) (hp : x.paused = false)
    (h : ∀ y ∈ l, ∀ m' ∈ y.moves, m'.channel = m.channel → y = x ∧ m' = m) (look : Look) :
    (l.foldl (fun k x => x.lookAfter k) look).level m.channel
      = if x.finish ≤ x.elapsed + 1 then m.target else x.level m (x.elapsed + 1) := by
  induction l generalizing look with
  | nil => simp at hx
  | cons a rest ih =>
    obtain ⟨ha, hrest⟩ := List.forall_mem_cons.mp h
    rw [List.foldl_cons]
    by_cases later : x ∈ rest
    · exact ih later hrest _
    · obtain rfl : x = a := (List.mem_cons.mp hx).resolve_right later
      have others : ∀ y ∈ rest, y.paused = false → ∀ m' ∈ y.moves, m'.channel ≠ m.channel :=
        fun y hy _ m' hm' hc => later ((hrest y hy m' hm' hc).1 ▸ hy)
      rw [foldl_lookAfter_level_other others]
      exact Slot.lookAfter_level hp hm (fun m' hm' hc => (ha m' hm' hc).2) look

/-- With none of its slots in the table, a playback keeps its context. -/
theorem contextOf_none {done l : List Slot} (h : ∀ x ∈ l, x.playback ≠ p) (y : Playback) : contextOf p done l y = y := by
  induction l generalizing done with
  | nil => rfl
  | cons x rest ih =>
    obtain ⟨hx, hrest⟩ := List.forall_mem_cons.mp h
    rw [contextOf, if_neg hx, ih hrest]

/-- A playback with a slot that stays keeps its state. -/
theorem contextOf_state_of_stays {done l : List Slot} (h : ∃ z ∈ done ++ l.filterMap Slot.advanced, z.playback = p)
    (y : Playback) : (contextOf p done l y).state = y.state := by
  induction l generalizing done y with
  | nil => rfl
  | cons x rest ih =>
    obtain ⟨z, hz, hzp⟩ := h
    rw [filterMap_advanced_cons, ← List.append_assoc] at hz
    rw [contextOf, ih ⟨z, hz, hzp⟩]
    split_ifs with hxp
    · refine if_neg fun ⟨ended, others⟩ => ?_
      rw [ended, Option.toList_none, List.append_nil] at hz
      rcases List.mem_append.mp hz with hz | hz
      · exact others z (List.mem_append_left _ hz) (hzp.trans hxp.symm)
      · obtain ⟨w, hw, hwz⟩ := List.mem_filterMap.mp hz
        exact others w (List.mem_append_right _ hw) ((Slot.advanced_keeps hwz).1.symm.trans (hzp.trans hxp.symm))
    · rfl

/-- A playback of which no slot stays takes the state that the last of its slots gives it (R64). -/
theorem contextOf_state_of_ends {done l : List Slot} {x : Slot}
    (hx : (l.filter (fun z => z.playback = p)).getLast? = some x)
    (h : ∀ z ∈ done ++ l.filterMap Slot.advanced, z.playback ≠ p) (y : Playback) :
    (contextOf p done l y).state = State.afterLastSlot x.kind (contextOf p done l y) := by
  induction l generalizing done y with
  | nil => simp at hx
  | cons a rest ih =>
    rw [filterMap_advanced_cons, ← List.append_assoc] at h
    cases hl : (rest.filter (fun z => z.playback = p)).getLast? with
    | some b =>
      have same : b = x := by
        by_cases hap : a.playback = p
        · rw [List.filter_cons_of_pos (by simpa using hap), List.getLast?_cons, hl] at hx
          simpa using hx
        · rw [List.filter_cons_of_neg (by simpa using hap), hl] at hx
          exact Option.some.inj hx
      rw [contextOf]
      exact ih (hl.trans (congrArg some same)) h _
    | none =>
      have after : ∀ z ∈ rest, z.playback ≠ p := by
        simpa using List.filter_eq_nil_iff.mp (List.getLast?_eq_none_iff.mp hl)
      by_cases hap : a.playback = p
      · rw [List.filter_cons_of_pos (by simpa using hap), List.getLast?_cons, hl] at hx
        obtain rfl : a = x := by simpa using hx
        have ended : a.advanced = none := by
          cases ha : a.advanced with
          | none => rfl
          | some z => exact absurd ((Slot.advanced_keeps ha).1.trans hap) (h z (by simp [ha]))
        have others : ∀ z ∈ done ++ rest, z.playback ≠ a.playback := by
          rw [hap]
          exact List.forall_mem_append.mpr ⟨fun z hz => h z (by simp [hz]), after⟩
        rw [contextOf, if_pos hap, contextOf_none after]
        exact if_pos ⟨ended, others⟩
      · rw [List.filter_cons_of_neg (by simpa using hap), hl] at hx
        simp at hx

end Context

/-- The fields of the CUE_COMPLETE of a slot that ends (R97). -/
def Slot.completeFields (x : Slot) : List Byte :=
  b1 (num x.playback) ++ b1 (if x.kind = .back then 1 else 0) ++ b2 (x.cue.getD 0) ++ b1 x.number ++ b4 (x.elapsed + 1)
    ++ b2 x.moves.length

theorem Slot.completeFields_eq {x : Slot} (h : x.kind ≠ .release) : b1 (num x.playback) ++ b1 x.kind.code
    ++ b2 (x.cue.getD 0) ++ b1 x.number ++ b4 (x.elapsed + 1) ++ b2 x.moves.length = x.completeFields := by
  have code : x.kind.code = if x.kind = .back then 1 else 0 := by
    cases hk : x.kind with
    | release => exact absurd hk h
    | cue | back => rfl
  rw [code]
  rfl

/-- A playback's context with the targets of a slot's moves written into its look (R96). -/
def Slot.written (z : Slot) (y : Playback) : Playback :=
  { y with look := z.moves.foldl (fun l m => l.write m.channel m.target) y.look }

/-- The context of a slot's playback after the end of the slot, by the slots that stay (R64, R96). -/
def Slot.endedContext (z : Slot) (others : List Slot) (y : Playback) : Playback :=
  if ∀ w ∈ others, w.playback ≠ z.playback then
    { z.written y with state := State.afterLastSlot z.kind (z.written y) }
  else z.written y

namespace State

/-! ### The turns of the slots -/

/-- A slot that ends at a fade step sends its CUE_COMPLETE, unless it is a RELEASE slot (R97). -/
def completes (v : State) (x : Slot) : State :=
  if x.paused = false ∧ x.finish ≤ x.elapsed + 1 ∧ x.kind ≠ .release then v.report 0xE0 false x.completeFields else v

theorem completes_silent {x : Slot} (h : ¬ (x.paused = false ∧ x.finish ≤ x.elapsed + 1 ∧ x.kind ≠ .release)) (v : State) :
    v.completes x = v := if_neg h

theorem upon_completes {t d : State} (h : d.Agrees t) (x : Slot) : (t.upon d).completes x = (t.completes x).upon d := by
  unfold completes
  split_ifs
  · exact upon_report h _ _ _
  · rfl

theorem completes_upon (v : State) (x : Slot) : v.completes x = (v.completes x).upon v :=
  upon_completes (t := v) ⟨rfl, rfl⟩ x

theorem upon_foldl_completes {t d : State} (h : d.Agrees t) (l : List Slot) :
    l.foldl completes (t.upon d) = (l.foldl completes t).upon d := by
  induction l generalizing t with
  | nil => rfl
  | cons x rest ih =>
    have agrees : d.Agrees (t.completes x) := by rw [completes_upon]; exact h
    rw [List.foldl_cons, upon_completes h, ih agrees]
    rfl

/-- The table and the playbacks after the turn of a slot, by the slots around it (R94, R96). -/
def slotTurned (v : State) (x : Slot) (done rest : List Slot) : State :=
  ({ v with slots := done ++ x.advanced.toList ++ rest } : State).setPb x.playback
    (x.contextAfter (done ++ rest) (v.pb x.playback))

/-- A slot's targets written and the slot freed (R96). -/
def freed (s : State) (z : Slot) : State :=
  { s.setPb z.playback (z.written (s.pb z.playback)) with slots := s.slots.filter (fun w => w.number ≠ z.number) }

/-- The state of a slot's playback when no slot of it is left (R64). -/
def settleLast (s : State) (z : Slot) : State :=
  if (s.slotsOf z.playback).isEmpty then
    s.setPb z.playback { s.pb z.playback with state := afterLastSlot z.kind (s.pb z.playback) }
  else s

theorem endSlot_eq (s : State) (z : Slot) : s.endSlot z = ((if z.kind = .release then s.freed z else
    (s.freed z).report 0xE0 false (b1 (num z.playback) ++ b1 z.kind.code ++ b2 (z.cue.getD 0) ++ b1 z.number
      ++ b4 z.elapsed ++ b2 z.moves.length))).settleLast z := rfl

theorem upon_settleLast (t d : State) (z : Slot) : (t.upon d).settleLast z = t.upon (d.settleLast z) := by
  unfold settleLast
  change (if (d.slotsOf z.playback).isEmpty then _ else _) = _
  split_ifs <;> rfl

theorem settleLast_eq (v : State) (z : Slot) (others : List Slot) (y : Playback) :
    (({ v with slots := others } : State).setPb z.playback (z.written y)).settleLast z
      = ({ v with slots := others } : State).setPb z.playback (z.endedContext others y) := by
  have left : ((({ v with slots := others } : State).setPb z.playback (z.written y)).slotsOf z.playback).isEmpty = true
      ↔ ∀ w ∈ others, w.playback ≠ z.playback := by simp [slotsOf, setPb]
  rw [settleLast, pb_setPb_same, setPb_setPb, Slot.endedContext, ite_congr (propext left) (fun _ => rfl) (fun _ => rfl)]
  split_ifs <;> rfl

/-- The end of a slot: the CUE_COMPLETE over everything else, the slot gone, and its playback's look and state (R96). -/
theorem endSlot_turn {v : State} {z : Slot} {l others : List Slot} (y : Playback)
    (gone : l.filter (fun w => w.number ≠ z.number) = others) :
    (({ v with slots := l } : State).setPb z.playback y).endSlot z
      = (if z.kind = .release then v else v.report 0xE0 false (b1 (num z.playback) ++ b1 z.kind.code ++ b2 (z.cue.getD 0)
          ++ b1 z.number ++ b4 z.elapsed ++ b2 z.moves.length)).upon
        (({ v with slots := others } : State).setPb z.playback (z.endedContext others y)) := by
  have free : (({ v with slots := l } : State).setPb z.playback y).freed z
      = v.upon (({ v with slots := others } : State).setPb z.playback (z.written y)) := by
    rw [freed, pb_setPb_same, setPb_setPb, ← gone]
    rfl
  rw [endSlot_eq, free, ← settleLast_eq, ← upon_settleLast]
  split_ifs
  · rfl
  · have agrees : (({ v with slots := others } : State).setPb z.playback (z.written y)).Agrees v := ⟨rfl, rfl⟩
    rw [upon_report agrees]

theorem advanceSlot_turn {v : State} {x : Slot} {done rest : List Slot} (hv : v.slots = done ++ x :: rest)
    (hn : ∀ y ∈ done ++ rest, y.number ≠ x.number) :
    v.advanceSlot x.number = (v.completes x).upon (v.slotTurned x done rest) := by
  obtain ⟨hdone, hrest⟩ := List.forall_mem_append.mp hn
  have found : v.slots.find? (fun y => y.number = x.number) = some x := by
    rw [hv, List.find?_append, List.find?_eq_none.mpr (by simpa using hdone)]
    simp
  have mapped (z : Slot) : (done ++ x :: rest).map (fun y => if y.number = x.number then z else y) = done ++ z :: rest := by
    have same (l : List Slot) (hl : ∀ y ∈ l, y.number ≠ x.number) :
        l.map (fun y => if y.number = x.number then z else y) = l :=
      (List.map_congr_left fun y hy => if_neg (hl y hy)).trans (List.map_id' l)
    rw [List.map_append, List.map_cons, same done hdone, same rest hrest, if_pos rfl]
  have gone (z : Slot) (hz : z.number = x.number) :
      (done ++ z :: rest).filter (fun y => y.number ≠ x.number) = done ++ rest := by
    rw [List.filter_append, List.filter_cons_of_neg (by simpa using hz),
      List.filter_eq_self.mpr (by simpa using hdone), List.filter_eq_self.mpr (by simpa using hrest)]
  unfold advanceSlot
  rw [found]
  dsimp only
  by_cases hp : x.paused
  · have same : v.slotTurned x done rest = v := by
      have context : x.contextAfter (done ++ rest) (v.pb x.playback) = v.pb x.playback := by
        rw [Slot.contextAfter, Slot.lookAfter_paused hp, if_neg (by simp [Slot.advanced_paused hp])]
      rw [slotTurned, context, Slot.advanced_paused hp]
      simpa [← hv] using setPb_same v x.playback
    rw [if_pos hp, completes_silent (by simp [hp]), same]
    rfl
  · have running : x.paused = false := by simpa using hp
    rw [if_neg hp, hv, mapped]
    by_cases hf : x.finish ≤ x.elapsed + 1
    · have context : x.contextAfter (done ++ rest) (v.pb x.playback)
          = ({ x with elapsed := x.elapsed + 1 } : Slot).endedContext (done ++ rest)
            { v.pb x.playback with look := x.writeLook (x.elapsed + 1) (v.pb x.playback).look } := by
        rw [Slot.contextAfter, Slot.lookAfter_ended running hf, Slot.endedContext]
        by_cases last : ∀ z ∈ done ++ rest, z.playback ≠ x.playback
        · rw [if_pos ⟨Slot.advanced_ended running hf, last⟩, if_pos last]
          rfl
        · rw [if_neg fun h => last h.2, if_neg last]
          rfl
      rw [slotTurned, context, Slot.advanced_ended running hf, Option.toList_none, List.append_nil]
      have told : v.completes x = if x.kind = .release then v else v.report 0xE0 false (b1 (num x.playback)
          ++ b1 x.kind.code ++ b2 (x.cue.getD 0) ++ b1 x.number ++ b4 (x.elapsed + 1) ++ b2 x.moves.length) := by
        by_cases hk : x.kind = .release
        · rw [if_pos hk, completes_silent (by simp [hk])]
        · rw [if_neg hk, Slot.completeFields_eq hk]
          exact if_pos ⟨running, hf, hk⟩
      rw [told]
      exact (if_pos hf).trans (endSlot_turn (z := { x with elapsed := x.elapsed + 1 }) _ (gone _ rfl))
    · have context : x.contextAfter (done ++ rest) (v.pb x.playback)
          = { v.pb x.playback with look := x.writeLook (x.elapsed + 1) (v.pb x.playback).look } := by
        rw [Slot.contextAfter, Slot.lookAfter_running running hf, if_neg (by simp [Slot.advanced_running running hf])]
      rw [slotTurned, context, completes_silent (by simp [hf]), Slot.advanced_running running hf, Option.toList_some,
        List.append_assoc]
      exact if_neg hf

/-- The slots' turns at a fade step: the table, the contexts, and the CUE_COMPLETEs over all that stays as it is (R94). -/
theorem foldl_advanceSlot {done l : List Slot} {v : State} (hv : v.slots = done ++ l)
    (hn : ((done ++ l).map (fun x => x.number)).Nodup) :
    ((l.map (fun x => x.number)).foldl advanceSlot v).slots = done ++ l.filterMap Slot.advanced
    ∧ (∀ p, ((l.map (fun x => x.number)).foldl advanceSlot v).pb p = contextOf p done l (v.pb p))
    ∧ (l.map (fun x => x.number)).foldl advanceSlot v = (l.foldl completes v).upon { v with
        slots := ((l.map (fun x => x.number)).foldl advanceSlot v).slots
        eng := { v.eng with pb := ((l.map (fun x => x.number)).foldl advanceSlot v).eng.pb } } := by
  induction l generalizing done v with
  | nil => exact ⟨hv, fun p => rfl, rfl⟩
  | cons x rest ih =>
    have others : x.number ∉ (done ++ rest).map (fun x => x.number) ∧ ((done ++ rest).map (fun x => x.number)).Nodup := by
      rw [List.map_append, List.map_cons, List.nodup_middle, ← List.map_append, List.nodup_cons] at hn
      exact hn
    have unique : ∀ y ∈ done ++ rest, y.number ≠ x.number := fun y hy hyx => others.1 (hyx ▸ List.mem_map_of_mem hy)
    have kept : ((done ++ x.advanced.toList ++ rest).map (fun x => x.number)).Nodup := by
      cases hx : x.advanced with
      | none => simpa using others.2
      | some z => simpa [Slot.advanced_number hx] using hn
    have turn := advanceSlot_turn hv unique
    rw [List.map_cons, List.foldl_cons, turn]
    obtain ⟨slots, contexts, parts⟩ := ih (v := (v.completes x).upon (v.slotTurned x done rest)) rfl kept
    refine ⟨?_, fun p => ?_, ?_⟩
    · rw [slots, filterMap_advanced_cons, List.append_assoc]
    · rw [contexts, contextOf]
      congr 1
      change (v.slotTurned x done rest).pb p = _
      split_ifs with hp
      · rw [← hp]
        exact pb_setPb_same _ _ _
      · exact pb_setPb_other _ _ _ _ (Ne.symm hp)
    · have agrees : (v.slotTurned x done rest).Agrees (v.completes x) := by rw [completes_upon]; exact ⟨rfl, rfl⟩
      refine parts.trans ?_
      rw [upon_foldl_completes agrees]
      rfl

/-! ### The step -/

theorem fadeStep_eq (s : State) (h : s.sup.halted = false) : s.fadeStep = (s.slots.map (fun x => x.number)).foldl advanceSlot s :=
  if_neg (by simp [h])

section Step

variable {s : State}

theorem fadeStep_slots (h : s.sup.halted = false) (hn : (s.slots.map (fun x => x.number)).Nodup) :
    s.fadeStep.slots = s.slots.filterMap Slot.advanced := by
  rw [fadeStep_eq s h]
  exact (foldl_advanceSlot (done := []) rfl hn).1

theorem fadeStep_pb (h : s.sup.halted = false) (hn : (s.slots.map (fun x => x.number)).Nodup) (p : PbId) :
    s.fadeStep.pb p = contextOf p [] s.slots (s.pb p) := by
  rw [fadeStep_eq s h]
  exact (foldl_advanceSlot (done := []) rfl hn).2.1 p

theorem fadeStep_parts (h : s.sup.halted = false) (hn : (s.slots.map (fun x => x.number)).Nodup) : s.fadeStep
    = (s.slots.foldl completes s).upon { s with
        slots := s.fadeStep.slots, eng := { s.eng with pb := s.fadeStep.eng.pb } } := by
  rw [fadeStep_eq s h]
  exact (foldl_advanceSlot (done := []) rfl hn).2.2

/-- Inside, a fade step changes the slot table and the engine alone. -/
theorem fadeStep_inside (h : s.sup.halted = false) (hn : (s.slots.map (fun x => x.number)).Nodup) :
    s.fadeStep.inside = ({ s with slots := s.fadeStep.slots, eng := s.fadeStep.eng } : State).inside := by
  have turn (v : State) (x : Slot) : (v.completes x).inside = v.inside := by
    unfold completes
    split_ifs
    · exact inside_report _ _ _ _
    · rfl
  have told : (s.slots.foldl completes s).inside = s.inside := foldl_keeps turn _ s
  have link := congrArg State.link told
  have inputs := congrArg State.inputs told
  have engine := congrArg State.eng (fadeStep_parts h hn)
  calc s.fadeStep.inside
      = { ({ s with slots := s.fadeStep.slots, eng := { s.eng with pb := s.fadeStep.eng.pb } } : State).inside with
          link := (s.slots.foldl completes s).inside.link, inputs := (s.slots.foldl completes s).inside.inputs } :=
        congrArg State.inside (fadeStep_parts h hn)
    _ = _ := by rw [link, inputs, engine]; rfl

theorem fadeStep_port (s : State) (p : PortId) : s.fadeStep.port p = s.port p := by
  have kept (l : List Nat) : (l.foldl advanceSlot s).port p = s.port p := by
    cases p with
    | console => exact foldl_keeps advanceSlot_con l s
    | aux => exact foldl_keeps advanceSlot_aux l s
  unfold fadeStep
  split_ifs
  · rfl
  · exact kept _

/-- The one slot of a playback, as it stands after the step, is the one slot it has then. -/
theorem fadeStep_slots_of_one (h : s.sup.halted = false) (hn : (s.slots.map (fun x => x.number)).Nodup) {p : PbId} {x : Slot}
    (hx : s.slots.filter (fun y => y.playback = p) = [x]) :
    s.fadeStep.slots.filter (fun y => y.playback = p) = x.advanced.toList := by
  rw [fadeStep_slots h hn, filter_filterMap_advanced, hx, filterMap_advanced_cons]
  exact List.append_nil _

theorem fadeStep_look_of_one (h : s.sup.halted = false) (hn : (s.slots.map (fun x => x.number)).Nodup) {p : PbId} {x : Slot}
    (hx : s.slots.filter (fun y => y.playback = p) = [x]) : (s.fadeStep.pb p).look = x.lookAfter (s.pb p).look := by
  rw [fadeStep_pb h hn, contextOf_look, hx]
  rfl

/-- A playback of which no slot is left takes the state that the last of its slots gives it. -/
theorem fadeStep_state_of_ends (h : s.sup.halted = false) (hn : (s.slots.map (fun x => x.number)).Nodup) {p : PbId} {x : Slot}
    (last : (s.slots.filter (fun y => y.playback = p)).getLast? = some x) (gone : ∀ z ∈ s.fadeStep.slots, z.playback ≠ p) :
    (s.fadeStep.pb p).state
      = if x.kind = .release ∧ (s.fadeStep.pb p).look = [] ∧ (s.pb p).back = [] ∧ (s.pb p).follow = none
        then .empty else .settled := by
  rw [fadeStep_slots h hn] at gone
  rw [fadeStep_pb h hn, contextOf_state_of_ends last gone, afterLastSlot_eq, contextOf_keeps]

/-- A playback whose fade out ends is EMPTY, its look dark (R64, R76). -/
theorem fadeStep_faded (h : s.sup.halted = false) (hn : (s.slots.map (fun x => x.number)).Nodup) {p : PbId} {x : Slot}
    (fading : s.FadingOut p x) (running : x.paused = false) (hf : x.finish ≤ x.elapsed + 1) :
    (s.fadeStep.pb p).state = .empty ∧ (s.fadeStep.pb p).look = [] := by
  obtain ⟨one, kind, targets, lit, back, follow⟩ := fading
  have dark : (s.fadeStep.pb p).look = [] := by
    rw [fadeStep_look_of_one h hn one, Slot.lookAfter_faded running hf targets lit]
  have gone : ∀ z ∈ s.fadeStep.slots, z.playback ≠ p := by
    have left := fadeStep_slots_of_one h hn one
    rw [Slot.advanced_ended running hf] at left
    simpa using List.filter_eq_nil_iff.mp left
  exact ⟨(fadeStep_state_of_ends h hn (by rw [one]; rfl) gone).trans (if_pos ⟨kind, dark, back, follow⟩), dark⟩

/-- A playback that fades out stays such a playback while its slot stays. -/
theorem fadeStep_fadingOut (h : s.sup.halted = false) (hn : (s.slots.map (fun x => x.number)).Nodup) {p : PbId} {x z : Slot}
    (fading : s.FadingOut p x) (hz : x.advanced = some z) : s.fadeStep.FadingOut p z := by
  obtain ⟨one, kind, targets, lit, back, follow⟩ := fading
  obtain ⟨-, sameKind, sameMoves⟩ := Slot.advanced_keeps hz
  have context : s.fadeStep.pb p
      = { s.pb p with look := (s.fadeStep.pb p).look, state := (s.fadeStep.pb p).state } := by
    rw [fadeStep_pb h hn]
    exact contextOf_keeps _ _ _
  refine ⟨by rw [fadeStep_slots_of_one h hn one, hz]; rfl, sameKind.trans kind, by rwa [sameMoves], fun e he => ?_,
    (congrArg Playback.back context).trans back, (congrArg Playback.follow context).trans follow⟩
  rw [fadeStep_look_of_one h hn one] at he
  rw [sameMoves]
  rcases Slot.mem_lookAfter he with ⟨d, hd, hde⟩ | moved
  · obtain ⟨m, hm, hc⟩ := lit d hd
    exact ⟨m, hm, hc.trans hde⟩
  · exact moved

theorem fadeStep_keepsReports (h : s.sup.halted = false) (hn : (s.slots.map (fun x => x.number)).Nodup) :
    (s.slots.foldl completes s).KeepsReports s.fadeStep.pump := by
  have link : s.fadeStep.link = (s.slots.foldl completes s).link := (congrArg State.link (fadeStep_parts h hn)).trans rfl
  exact keepsReports_pump _ _ (by rw [link]) (by rw [link])

theorem pump_pb (t : State) (p : PbId) : t.pump.pb p = t.pb p := congrArg (fun e : Engine => e.pb.get p) (pump_eng t)

theorem pump_fadingOut (t : State) (p : PbId) (x : Slot) : t.pump.FadingOut p x = t.FadingOut p x := by
  rw [FadingOut, pump_slots, pump_pb]
  rfl

end Step

end State

/-! ### Levels and ends -/

/-- The level of a down move: its start through the delay, then falling to its target, the quotient truncated (R92). -/
theorem Slot.level_down (x : Slot) {m : Move} (h : m.target < m.start) (e : Nat) : x.level m e =
    if e < x.downDelay then m.start else if x.down = 0 then m.target
    else max m.target (m.start - (m.start - m.target) * (e - x.downDelay) / x.down) := by
  rw [Slot.level, if_neg (Nat.lt_asymm h), if_pos h]

theorem Slot.level_down_over {x : Slot} {m : Move} (h : m.target < m.start) {e : Nat} (he : x.downDelay + x.down ≤ e) :
    x.level m e = m.target := by
  rw [Slot.level_down x h, if_neg (by omega)]
  split_ifs with hd
  · rfl
  · have all : m.start - m.target ≤ (m.start - m.target) * (e - x.downDelay) / x.down :=
      (Nat.le_div_iff_mul_le (by omega)).mpr (Nat.mul_le_mul_left _ (by omega))
    omega

theorem Slot.finish_ge {x : Slot} {n : Nat} (h : (n = x.upDelay + x.up ∧ (∃ m ∈ x.moves, m.start < m.target))
    ∨ (n = x.downDelay + x.down ∧ (∃ m ∈ x.moves, m.target < m.start))) : n ≤ x.finish := by
  unfold Slot.finish
  rcases h with ⟨rfl, up⟩ | ⟨rfl, down⟩
  · exact le_max_of_le_left (Nat.le_of_eq (if_pos (by simpa using up)).symm)
  · exact le_max_of_le_right (Nat.le_of_eq (if_pos (by simpa using down)).symm)

theorem Slot.finish_eq (x : Slot) : x.finish = 0 ∨ (x.finish = x.upDelay + x.up ∧ (∃ m ∈ x.moves, m.start < m.target))
    ∨ (x.finish = x.downDelay + x.down ∧ ∃ m ∈ x.moves, m.target < m.start) := by
  unfold Slot.finish
  simp only [List.any_eq_true, decide_eq_true_eq]
  split_ifs with up down down
  · rcases max_choice (x.upDelay + x.up) (x.downDelay + x.down) with h | h
    · exact .inr (.inl ⟨h, up⟩)
    · exact .inr (.inr ⟨h, down⟩)
  · exact .inr (.inl ⟨Nat.max_zero _, up⟩)
  · exact .inr (.inr ⟨Nat.zero_max _, down⟩)
  · exact .inl (Nat.max_zero _)

/-! ### The obligation -/

/-- Settles O40: a fade step is the slots' turns in their order (`State.foldl_advanceSlot`), which make of each playback's
context what its own slots make of it (`contextOf`), and send the CUE_COMPLETEs over all that stays as it is. -/
theorem fadeStepAdvancesTheSlots : Obligations.FadeStepAdvancesTheSlots := by
  refine ⟨fun s h => ?_, fun s h hn => ?_, fun x m hm e => ?_, fun x => ⟨fun n => Slot.finish_ge, x.finish_eq⟩⟩
  · have still : s.fadeStep = s := if_pos h
    exact ⟨s.fadeStep.pump, rfl, by rw [still]; exact State.inside_pump s⟩
  · have slots := State.fadeStep_slots h hn
    have context := State.fadeStep_pb h hn
    refine ⟨s.fadeStep.pump, rfl, ?_⟩
    simp only [State.inside_pump, State.pump_slots, State.pump_eng, State.pump_pb, State.pump_fadingOut, State.pump_outgoing]
    refine ⟨slots, State.fadeStep_inside h hn, congrArg State.eng (State.fadeStep_parts h hn), fun p => ?_, fun p c hc => ?_, fun x hx m hm hp only => ?_,
      fun p stays => ?_, fun p had gone => ?_, fun p x last gone => ?_, fun p x fading => ?_, ?_, fun p => ?_⟩
    · rw [context]; exact contextOf_keeps _ _ _
    · rw [context, contextOf_look]
      refine foldl_lookAfter_level_other (fun x hx => ?_) _
      obtain ⟨mem, own⟩ := List.mem_filter.mp hx
      exact hc x mem (by simpa using own)
    · rw [context, contextOf_look]
      refine foldl_lookAfter_level (List.mem_filter.mpr ⟨hx, by simp⟩) hm hp (fun y hy => ?_) _
      obtain ⟨mem, own⟩ := List.mem_filter.mp hy
      exact only y mem (by simpa using own)
    · rw [slots] at stays
      rw [context]
      rcases stays with ⟨z, hz, own⟩ | none
      · exact contextOf_state_of_stays ⟨z, hz, own⟩ _
      · rw [contextOf_none none]
    · have some := (List.getLast?_isSome (l := s.slots.filter (fun x => x.playback = p))).mpr (by simpa using had)
      obtain ⟨x, last⟩ := Option.isSome_iff_exists.mp some
      rw [State.fadeStep_state_of_ends h hn last gone]
      split_ifs with empty
      · exact .inr ⟨rfl, empty.2⟩
      · exact .inl rfl
    · exact State.fadeStep_state_of_ends h hn last gone
    · by_cases hends : x.paused = false ∧ x.finish ≤ x.elapsed + 1
      · rw [if_pos hends]
        exact State.fadeStep_faded h hn fading hends.1 hends.2
      · rw [if_neg hends]
        exact State.fadeStep_fadingOut h hn fading (Slot.advanced_stays hends)
    · rw [List.foldl_filter]
      simp only [decide_eq_true_eq]
      exact State.fadeStep_keepsReports h hn
    · rw [State.fadeStep_port]
  · refine ⟨fun he => ?_, fun he hd => ?_, fun he hd => ?_, Slot.level_down_over hm⟩
    · rw [Slot.level_down x hm, if_pos he]
    · rw [Slot.level_down x hm, if_neg (Nat.not_lt.mpr he), if_pos hd]
    · rw [Slot.level_down x hm, if_neg (Nat.not_lt.mpr he), if_neg (Nat.ne_of_gt hd)]

end Sys2Proof.Machine

/-! The level of an up move and of an equal move, and the step that runs the front command (R91, R92, R95, R167). -/

namespace Sys2Proof.Machine

/-! ### Levels of up and equal moves -/

namespace Slot

variable (x : Slot) {m : Move}

/-- An equal move has the level it started with at every elapsed count (R92). -/
theorem level_equal (h : m.start = m.target) (e : Nat) : x.level m e = m.start := by
  rw [level, if_neg (Nat.not_lt_of_le h.ge), if_neg (Nat.not_lt_of_le h.le)]

theorem level_up_before (h : m.start < m.target) {e : Nat} (he : e < x.upDelay) : x.level m e = m.start := by
  rw [level, if_pos h, if_pos he]

theorem level_up_at_once (h : m.start < m.target) {e : Nat} (he : x.upDelay ≤ e) (hu : x.up = 0) :
    x.level m e = m.target := by
  rw [level, if_pos h, if_neg (Nat.not_lt.mpr he), if_pos hu]

/-- From the delay on, an up move is on its straight line, held at the target (R91). -/
theorem level_up_line (h : m.start < m.target) {e : Nat} (he : x.upDelay ≤ e) (hu : 0 < x.up) :
    x.level m e = min m.target (m.start + (m.target - m.start) * (e - x.upDelay) / x.up) := by
  rw [level, if_pos h, if_neg (Nat.not_lt.mpr he), if_neg hu.ne']

theorem level_up_at_delay (h : m.start < m.target) (hu : 0 < x.up) : x.level m x.upDelay = m.start := by
  rw [x.level_up_line h le_rfl hu, Nat.sub_self, Nat.mul_zero, Nat.zero_div, Nat.add_zero, Nat.min_eq_right h.le]

/-- An up move stands at its target from the delay plus the time on: there its line has risen by the whole difference. -/
theorem level_up_over (h : m.start < m.target) {e : Nat} (he : x.upDelay + x.up ≤ e) : x.level m e = m.target := by
  have hd : x.upDelay ≤ e := by omega
  rcases Nat.eq_zero_or_pos x.up with hu | hu
  · exact x.level_up_at_once h hd hu
  · have whole : m.target - m.start ≤ (m.target - m.start) * (e - x.upDelay) / x.up :=
      (Nat.le_div_iff_mul_le hu).mpr (Nat.mul_le_mul_left _ (by omega))
    rw [x.level_up_line h hd hu, Nat.min_eq_left (by omega)]

theorem level_up_mem_Icc (h : m.start < m.target) (e : Nat) : m.start ≤ x.level m e ∧ x.level m e ≤ m.target := by
  rcases Nat.lt_or_ge e x.upDelay with he | he
  · rw [x.level_up_before h he]
    exact ⟨le_rfl, h.le⟩
  · rcases Nat.eq_zero_or_pos x.up with hu | hu
    · rw [x.level_up_at_once h he hu]
      exact ⟨h.le, le_rfl⟩
    · rw [x.level_up_line h he hu]
      exact ⟨le_min h.le (Nat.le_add_right _ _), Nat.min_le_left _ _⟩

/-- An up move never falls: before the delay it stands at its lower bound, at time 0 it then stands at its upper one, and
else the quotient of its line grows with the elapsed count. -/
theorem level_up_monotone (h : m.start < m.target) : Monotone (x.level m) := by
  intro e e' hle
  rcases Nat.lt_or_ge e x.upDelay with he | he
  · rw [x.level_up_before h he]
    exact (x.level_up_mem_Icc h e').1
  · rcases Nat.eq_zero_or_pos x.up with hu | hu
    · rw [x.level_up_at_once h (he.trans hle) hu]
      exact (x.level_up_mem_Icc h e).2
    · rw [x.level_up_line h he hu, x.level_up_line h (he.trans hle) hu]
      gcongr

end Slot

/-- Settles O39: an equal move by `Slot.level_equal`; an up move by the three stretches of its level, its bounds and its
monotony, the product of two bounded factors last. -/
theorem upMovesRiseToTheirTarget : Obligations.UpMovesRiseToTheirTarget := by
  refine fun x m => ⟨x.level_equal, fun h e => ?_⟩
  obtain ⟨fromStart, toTarget⟩ := x.level_up_mem_Icc h e
  refine ⟨x.level_up_before h, x.level_up_at_once h, x.level_up_line h, ?_, x.level_up_over h, fromStart, toTarget,
    fun _ later => x.level_up_monotone h later, fun ht he => Nat.mul_le_mul (by omega) (by omega)⟩
  rintro rfl hu
  exact x.level_up_at_delay h hu

/-! ### The front of the queue -/

theorem step_of_pending_cons {s : State} {c : Instr} {rest : List Instr} (h : s.pending = c :: rest) :
    step s = exec c { s with pending := rest } := by
  simp only [step, h]

theorem step_of_pending_nil {s : State} (h : s.pending = []) : step s = .next s := by
  simp only [step, h]

/-- Settles O1: the two cases of the queue; a front command leaves nothing of the queue it was taken from but its rest. -/
theorem stepRunsTheFrontCommand : Obligations.StepRunsTheFrontCommand :=
  ⟨fun c s rest => step_of_pending_cons (s := { s with pending := c :: rest }) rfl, fun _ => step_of_pending_nil⟩

end Sys2Proof.Machine

/-! PARK and UNPARK: the entry a channel gets, the entries that are removed, and the outputs that follow (R105, R109, R110,
R111). -/

namespace Sys2Proof.Machine

/-! ### The bodies of the two requests -/

theorem parsePark_channel {b : List Byte} (hl : b.length = 4) (hc : 1 ≤ wordAt b 0 ∧ wordAt b 0 ≤ 1536) :
    parsePark b = .ok (wordAt b 0, min (wordAt b 2) 1000, decide (1000 < wordAt b 2)) :=
  sized_some hl (by rw [if_pos ((isChannel_iff _).mpr hc), capped_eq])

theorem parsePark_far {b : List Byte} (hl : b.length = 4) (hc : wordAt b 0 < 1 ∨ 1536 < wordAt b 0) :
    parsePark b = .error .badValue :=
  sized_none hl (if_neg fun h => by have := (isChannel_iff _).mp h; omega)

theorem parseUnpark_channel {b : List Byte} (hl : b.length = 2) (hc : wordAt b 0 ≤ 1536) :
    parseUnpark b = .ok (wordAt b 0) := sized_some hl (if_pos hc)

theorem parseUnpark_far {b : List Byte} (hl : b.length = 2) (hc : 1536 < wordAt b 0) :
    parseUnpark b = .error .badValue := sized_none hl (if_neg (Nat.not_le.mpr hc))

/-- What a PARK's reply tells of the entry it replaces: its owner and its level, or that there was none (R110). -/
def replacedFields : Option Park → List Byte
  | none => b1 0 ++ b2 65535
  | some x => b1 (ownerCode x.owner) ++ b2 x.level

theorem replacedFields_eq (old : Option Park) :
    replacedFields old = b1 ((old.map (fun x => ownerCode x.owner)).getD 0) ++ bOpt (old.map Park.level) := by
  cases old <;> rfl

namespace State

/-! ### The parks table -/

/-- The state with another parks table. -/
def withParks (s : State) (parks : List Park) : State := { s with merge := { s.merge with parks := parks } }

theorem withParks_port (s : State) (parks : List Park) (p : PortId) : (s.withParks parks).port p = s.port p := by
  cases p <;> rfl

theorem withParks_takeOff (s : State) (parks : List Park) (p : PortId) (rest : List Request) :
    (s.takeOff p rest).withParks parks = (s.withParks parks).takeOff p rest := by cases p <;> rfl

theorem parkOf_takeOff (s : State) (p : PortId) (rest : List Request) (c : Nat) :
    (s.takeOff p rest).parkOf c = s.parkOf c := by rw [parkOf, takeOff_merge]; rfl

/-- The table in which a channel's entry is the last, and its only one (R109). -/
def parksWith (s : State) (x : Park) : List Park := s.parksWithout x.channel ++ [x]

theorem parkOf_withParks_parksWith (s : State) (x : Park) : (s.withParks (s.parksWith x)).parkOf x.channel = some x := by
  have removed : (s.parksWithout x.channel).find? (fun y => y.channel = x.channel) = none :=
    List.find?_eq_none.mpr fun y hy => by simpa using (List.mem_filter.mp hy).2
  show (s.parksWithout x.channel ++ [x]).find? (fun y => y.channel = x.channel) = some x
  rw [List.find?_append, removed]
  simp

/-- A channel without an entry takes its output from the playbacks, which no park bears on (R105, R111). -/
theorem output_withParks_freed {s : State} {keep : List Park} {c : Nat} (h : ∀ x ∈ keep, x.channel ≠ c) :
    (s.withParks keep).output c = if s.merge.blackout then 0 else s.merged c * s.merge.grand / 1000 :=
  output_unparked (s := s.withParks keep) (parkOf_none h)

/-! ### The work of the two requests -/

section Working

variable {s : State} {a : Requester} {c : Nat}

/-- A channel that is not parked meets a full table (R110). -/
theorem parkWork_full (h : s.parkOf c = none) (hfull : 64 ≤ s.merge.parks.length) (level : Nat) (adjusted : Bool) :
    s.parkWork a (c, level, adjusted) = s.answer a .parksFull [] :=
  if_pos ⟨by rw [h]; rfl, hfull⟩

/-- A channel that is parked already, or a table that has room (R109, R110). -/
theorem parkWork_parks (h : s.parkOf c ≠ none ∨ s.merge.parks.length < 64) (level : Nat) (adjusted : Bool) :
    s.parkWork a (c, level, adjusted) = (s.withParks (s.parksWith ⟨c, level, a.port⟩)).answer a (okOr adjusted)
      (b2 c ++ b2 level ++ replacedFields (s.parkOf c) ++ b1 (s.parksWith ⟨c, level, a.port⟩).length) := by
  have room : ¬ ((s.parkOf c).isNone ∧ Config.parks ≤ s.merge.parks.length) := fun ⟨unparked, full⟩ =>
    h.elim (· (Option.isNone_iff_eq_none.mp unparked)) (Nat.not_lt.mpr full)
  rw [replacedFields_eq, ← List.append_assoc]
  exact if_neg room

theorem unparkWork_console (h : a.port = .console) : s.unparkWork a 0 = s.keepParks a [] := by
  rw [unparkWork, if_pos rfl, h]

theorem unparkWork_aux (h : a.port = .aux) :
    s.unparkWork a 0 = s.keepParks a (s.merge.parks.filter (fun x => x.owner ≠ .aux)) := by
  rw [unparkWork, if_pos rfl, h]

theorem unparkWork_notFound (hc : 1 ≤ c) (h : s.parkOf c = none) : s.unparkWork a c = s.answer a .notFound [] := by
  rw [unparkWork, if_neg (by omega), if_pos (by rw [h]; rfl)]

theorem unparkWork_found (hc : 1 ≤ c) (h : ∃ x ∈ s.merge.parks, x.channel = c) :
    s.unparkWork a c = s.keepParks a (s.merge.parks.filter (fun x => x.channel ≠ c)) := by
  obtain ⟨x, hx, hxc⟩ := h
  have parked : (s.parkOf c).isSome := List.find?_isSome.mpr ⟨x, hx, by simpa using hxc⟩
  have held : ¬ (s.parkOf c).isNone := by rwa [Option.isNone_iff_eq_none, ← ne_eq, Option.ne_none_iff_isSome]
  rw [unparkWork, if_neg (by omega), if_neg held, parksWithout]

end Working

/-! ### The two requests -/

/-- The Auxiliary Port may not make a kind of a group that its mask does not hold (check 1 of R169, R171). -/
theorem gate_notPermitted {s : State} {code : Nat} {g : Group} {h : Bool} (hk : kindInfo code = some (g, h))
    (hm : s.link.mask.holds g = false) : s.gate .aux code = some .notPermitted := by
  have barred : permitted .aux s.link.mask code = false := by simp [permitted, hk, hm]
  rw [gate, if_pos barred]

section Asked

variable {s : State} {p : PortId} {r : Request} {rest : List Request}

/-- PARK and UNPARK are taken from a port with PARK in either state of the engine, and wait for nothing (R110, R111). -/
theorem park_takes {code : Nat} (hd : s.Head p code r rest) (hu : s.MayUse p .park) (h : code = 0x40 ∨ code = 0x41) :
    s.Takes p code r rest := by
  obtain rfl | rfl := h <;> exact takes_always hd hu rfl (mustWait_free s rfl rfl)

/-- PARK makes the channel's entry, or replaces it (R110). -/
theorem park_does (hd : s.Head p 0x40 r rest) (hu : s.MayUse p .park) {c level : Nat} {adjusted : Bool}
    (hp : parsePark r.body = .ok (c, level, adjusted)) (h : s.parkOf c ≠ none ∨ s.merge.parks.length < 64) :
    Does (.park p) s p r rest (okOr adjusted)
      (b2 c ++ b2 level ++ replacedFields (s.parkOf c) ++ b1 (s.parksWith ⟨c, level, p⟩).length)
      (s.withParks (s.parksWith ⟨c, level, p⟩)) := by
  refine does_change rfl (by decide) (park_takes hd hu (.inl rfl)) hp ?_ (withParks_port s _) rfl rfl
  have table (x : Park) : (s.takeOff p rest).parksWith x = s.parksWith x := by
    rw [parksWith, parksWithout, takeOff_merge]; rfl
  rw [parkWork_parks (by rwa [parkOf_takeOff, takeOff_merge]), table, parkOf_takeOff, withParks_takeOff]
  rfl

/-- UNPARK leaves the entries it keeps, and tells how many it has removed and how many remain (R111). -/
theorem unpark_does (hd : s.Head p 0x41 r rest) (hu : s.MayUse p .park) {c : Nat} (hp : parseUnpark r.body = .ok c)
    {keep : List Park}
    (hw : (s.takeOff p rest).unparkWork (requesterOf p r) c = (s.takeOff p rest).keepParks (requesterOf p r) keep) :
    Does (.unpark p) s p r rest .ok (b1 (s.merge.parks.length - keep.length) ++ b1 keep.length) (s.withParks keep) := by
  refine does_change rfl (by decide) (park_takes hd hu (.inr rfl)) hp ?_ (withParks_port s _) rfl rfl
  rw [hw, ← withParks_takeOff, ← takeOff_merge s p rest]
  rfl

end Asked

end State

/-! ### The obligation -/

/-- Settles O36: each request's body as its parser reads it, its work by what the table holds, and the outputs of a
channel that is parked and of one that is freed. -/
theorem parksAreMadeAndRemoved : Obligations.ParksAreMadeAndRemoved := by
  intro s p r rest with_
  refine ⟨fun hd hp hm => ?_, fun hd hp hm => ?_, fun hd hu => ?_, fun hd hu => ?_,
    fun keep c h => State.output_withParks_freed h⟩
  · subst hp; exact State.refuses_gate rfl (by decide) hd (State.gate_notPermitted rfl hm)
  · subst hp; exact State.refuses_gate rfl (by decide) hd (State.gate_notPermitted rfl hm)
  · intro c sent level old parks
    have ht := State.park_takes hd hu (.inl rfl)
    have bad {st : Status} (hp : parsePark r.body = .error st) : Refuses (.park p) s p r rest st :=
      State.refuses_body rfl (by decide) hd (State.gate_of s p _ .park true hu rfl (.inl rfl)) hp
    refine ⟨fun hl => bad (sized_length hl), fun hl hc => bad (parsePark_far hl hc), fun hl h1 h2 hold hfull => ?_,
      fun hl h1 h2 hroom => ⟨?_, ?_⟩⟩
    · exact State.does_at_once rfl (by decide) ht (parsePark_channel hl ⟨h1, h2⟩)
        (State.parkWork_full (by rwa [State.parkOf_takeOff]) (by rwa [State.takeOff_merge]) _ _)
    · have parked := State.park_does hd hu (parsePark_channel hl ⟨h1, h2⟩) hroom
      rwa [okOr_decide] at parked
    · exact State.output_parked (State.parkOf_withParks_parksWith s ⟨c, level, p⟩)
  · intro c removes
    have bad {st : Status} (hp : parseUnpark r.body = .error st) : Refuses (.unpark p) s p r rest st :=
      State.refuses_body rfl (by decide) hd (State.gate_of s p _ .park true hu rfl (.inl rfl)) hp
    have body (hl : r.body.length = 2) (hc : c ≤ 1536) : parseUnpark r.body = .ok c := parseUnpark_channel hl hc
    have merge : (s.takeOff p rest).merge = s.merge := State.takeOff_merge s p rest
    refine ⟨fun hl => bad (sized_length hl), fun hl hc => bad (parseUnpark_far hl hc), fun hl h1 h2 h => ?_,
      fun hl h1 h2 h => ?_, fun hl hc hp => ?_, fun hl hc hp => ?_⟩
    · exact State.does_at_once rfl (by decide) (State.park_takes hd hu (.inr rfl)) (body hl h2)
        (State.unparkWork_notFound h1 (State.parkOf_none (by rwa [merge])))
    · exact State.unpark_does hd hu (body hl h2) (by rw [State.unparkWork_found h1 (by rwa [merge]), merge])
    · exact State.unpark_does hd hu (body hl (by omega)) (by rw [hc, State.unparkWork_console hp])
    · exact State.unpark_does hd hu (body hl (by omega)) (by rw [hc, State.unparkWork_aux hp, merge])

end Sys2Proof.Machine

/-! The start-up decision: the house fault it raises, and the changeover it begins on a calm port (R127). -/

namespace Sys2Proof.Machine

namespace State

/-- The start-up decision made, its HOUSE_CHECK raised where house items have failed (R127). -/
def startUpDecided (s : State) : State :=
  { s with
    bank := { s.bank with decided := true }
    sup := { s.sup with raised := s.sup.raised ++ if s.ctl.houseFailed then [s.fault .houseCheck false 0] else [] } }

section Deciding

variable {s : State}

theorem isFollower_of_leader (h : s.isLeader = true) : s.isFollower = false := by
  have role : s.cas.role = .leader := of_decide_eq_true h
  simp [isFollower, role]

theorem raise_of_leader (h : s.isLeader = true) (f : EngineFault) :
    s.raise f = { s with sup := { s.sup with raised := s.sup.raised ++ [f] } } := by
  simp [raise, isFollower_of_leader h]

/-- The start-up decision of a leader whose start-up reads have ended: what it raises, then the resident bank (R127). -/
theorem decideStartUp_eq (hl : s.isLeader = true) (hst : s.ctl.startUp = none) (hd : s.bank.decided = false) :
    s.decideStartUp = match s.bank.resident with
      | none => s.startUpDecided.settle
      | some b =>
        if s.reportedBlank b then s.startUpDecided.settle else (s.startUpDecided.startChangeover b false none).settle := by
  have told : (if s.ctl.houseFailed = true then
      ({ s with bank := { s.bank with decided := true } } : State).raise
        (({ s with bank := { s.bank with decided := true } } : State).fault .houseCheck false 0)
      else { s with bank := { s.bank with decided := true } }) = s.startUpDecided := by
    unfold startUpDecided
    split_ifs
    · exact raise_of_leader (s := { s with bank := { s.bank with decided := true } }) hl _
    · rw [List.append_nil]
  unfold decideStartUp
  rw [if_pos ⟨hl, by rw [hst]; rfl, hd⟩]
  dsimp only
  rw [told]
  rfl

theorem calm_startUpDecided (h : s.Calm) : s.startUpDecided.Calm := (calm_of_claims (by rfl)).mpr h

/-- A calm port has nothing to grant at the end of a command. -/
theorem inside_settle_of_calm (h : s.Calm) : s.settle.inside = s.inside := by
  rw [settle, arbitrate_of_calm h, inside_pump]

/-- Taking a changeover on a calm port: its first load step is granted at once, but for an operation in progress or a list
notice that waits (R117; log 50). -/
theorem startChangeover_granted (h : s.Calm) (b : Bank) (dark : Bool) (owed : Option Byte) :
    (s.ctl.op = none → s.eng.notices = [] → (s.startChangeover b dark owed).settle.ctl.op = some (.load b 1 true))
    ∧ ((s.ctl.op ≠ none ∨ s.eng.notices ≠ []) →
        (s.startChangeover b dark owed).settle.ctl = { s.ctl with loadClaim := some 1 }) := by
  rw [settle, pump_ctl]
  rcases h with hop | ⟨hst, hn⟩ | ⟨hst, hf, -, -, -⟩
  · have busy : s.ctl.op ≠ none := Option.isSome_iff_ne_none.mp hop
    exact ⟨fun h => absurd h busy, fun _ => by rw [arbitrate_busy (s := s.startChangeover b dark owed) busy]; rfl⟩
  · exact ⟨fun _ h => absurd h hn, fun _ => by rw [arbitrate_waits (s := s.startChangeover b dark owed) hst hn]; rfl⟩
  · refine ⟨fun hop hn => ?_, fun h => ?_⟩
    · rw [arbitrate_load (s := s.startChangeover b dark owed) (b := b) (n := 1) hop hst hn hf rfl]
    · rcases h with hop | hn
      · rw [arbitrate_busy (s := s.startChangeover b dark owed) hop]; rfl
      · rw [arbitrate_waits (s := s.startChangeover b dark owed) hst hn]; rfl

end Deciding

end State

/-- Settles O5: the decision by the resident bank (`State.decideStartUp_eq`), on a port that stays calm or grants the first
load step of the changeover (`State.startChangeover_granted`). -/
theorem startUpDecision : Obligations.StartUpDecision := by
  intro s hl hst hd hcalm
  have calm := State.calm_startUpDecided hcalm
  have decision := State.decideStartUp_eq hl hst hd
  refine ⟨fun hr => ?_, fun b hr hb => ?_⟩
  · have idle : s.decideStartUp = s.startUpDecided.settle := by
      rw [decision]
      rcases hr with hr | ⟨b, hr, hb⟩
      · rw [hr]
      · rw [hr]; exact if_pos hb
    exact ⟨_, congrArg Host.Outcome.next idle, State.inside_settle_of_calm calm⟩
  · have begun : s.decideStartUp = (s.startUpDecided.startChangeover b false none).settle := by
      rw [decision, hr]
      exact if_neg (by rw [hb]; decide)
    obtain ⟨granted, waiting⟩ := State.startChangeover_granted calm b false none
    refine ⟨_, congrArg Host.Outcome.next begun, ?_⟩
    have patch := State.settle_patch (s.startUpDecided.startChangeover b false none)
    exact ⟨State.settle_bank _, by rw [patch]; rfl, by rw [patch]; rfl, by rw [patch]; rfl, by rw [patch]; rfl,
      by rw [patch]; rfl, granted, fun h => by rw [waiting h]; exact ⟨rfl, rfl⟩, State.settle_sup _, State.settle_eng _,
      State.settle_slots _, State.settle_merge _, State.settle_outp _, State.settle_cas _⟩

end Sys2Proof.Machine

/-! CHANGEOVER and CHANGEOVER_CANCEL: the bodies, the refusals, and what a cancelled changeover leaves (R117, R125). -/

namespace Sys2Proof.Machine

theorem parseChangeover_eq (b : Bank) (dark : Bool) : parseChangeover (b1 b.val ++ bBool dark) = .ok (b, dark) := by
  have hbank : bank? (byteAt (b1 b.val ++ bBool dark) 0) = some b := bank?_byteAt b (bBool dark)
  have hmode : byteAt (b1 b.val ++ bBool dark) 1 = if dark then 1 else 0 := byteAt_bBool dark
  exact sized_some rfl (by rw [hbank, hmode]; cases dark <;> rfl)

/-- The reply that a cancelled changeover owes: CANCELLED to the CHANGEOVER that started it, if one did (R125). -/
def Change.cancelReplies (c : Change) : List Reply :=
  match c.owed with
  | some tag => [{ kind := 0xD0, tag := tag, status := .cancelled, fields := State.cancelFields c }]
  | none => []

namespace State

section Asked

variable {s : State} {code : Nat} {r : Request} {rest : List Request}

/-- A changeover request past its general checks, once the start-up decision has been made (R127, R169). -/
theorem changeover_takes (hd : s.Head .console code r rest) (hf : s.isFollower = false) (hh : s.sup.halted = false)
    (hk : kindInfo code = some (.consoleOnly, false)) (hs : needsStore code = false) (hdec : s.bank.decided = true) :
    s.Takes .console code r rest :=
  takes_of _ _ hd (mayUse_console hf _) hk (.inr hh) (by simp [mustWait, hs, hdec])

/-- Replies appended to those of the port whose request was taken, with the ports else untouched (R168). -/
theorem answered_appended {t : State} {p : PortId} {xs : List Reply}
    (hp : t.port p = { (s.takeOff p rest).port p with replies := (s.port p).replies ++ xs })
    (ho : t.port (otherPort p) = s.port (otherPort p)) : s.Answered t.pump p rest xs := by
  unfold Answered
  simp only [pump_outgoing, pump_requests, pump_owed, pump_builder, pump_errors, pump_receiver, hp, ho,
    (takeOff_port s p rest).1]
  exact ⟨trivial, trivial, outgoing_append (s.port p) xs, trivial, trivial, trivial, trivial, trivial, trivial, trivial,
    trivial, trivial⟩

end Asked

/-- A bank is reported BLANK where its header is, or where its erase is queued (R15). -/
theorem reportedBlank_iff (s : State) (b : Bank) : s.reportedBlank b = true
    ↔ (s.ram b).valid = false ∨ ∃ w ∈ s.ctl.queue, w.bank = some b ∧ w.kind = .bankErase := by
  simp [reportedBlank, eraseQueued]

theorem reportedBlank_takeOff (s : State) (p : PortId) (rest : List Request) (b : Bank) :
    (s.takeOff p rest).reportedBlank b = s.reportedBlank b := by
  cases p <;> rfl

/-! ### The work of the two requests -/

section Working

variable {s : State} {q : Requester} {b : Bank} {dark : Bool}

theorem changeoverWork_inChangeover (h : s.bank.change ≠ none) :
    s.changeoverWork q (b, dark) = s.answer q .inChangeover [] := if_pos (Option.isSome_iff_ne_none.mpr h)

theorem changeoverWork_blank (h : s.bank.change = none) (hb : s.reportedBlank b = true) :
    s.changeoverWork q (b, dark) = s.answer q .blank [] := by
  unfold changeoverWork
  rw [if_neg (by simp [h]), if_pos hb]

theorem changeoverWork_starts (h : s.bank.change = none) (hb : s.reportedBlank b = false) :
    s.changeoverWork q (b, dark) = s.startChangeover b dark (some q.tag) := by
  unfold changeoverWork
  rw [if_neg (by simp [h]), if_neg (by simp [hb])]

theorem changeoverCancelWork_none (h : s.bank.change = none) :
    s.changeoverCancelWork q () = s.answer q .noChangeover [] := by
  rw [changeoverCancelWork, h]

theorem changeoverCancelWork_some {c : Change} (h : s.bank.change = some c) :
    s.changeoverCancelWork q () = (s.cancelChangeover c).answer q .ok (cancelFields c) := by
  rw [changeoverCancelWork, h]

end Working

/-- A cancelled changeover's own reply joins the Console Port; all else of it is the end of the changeover (R125). -/
theorem cancelChangeover_eq (s : State) (c : Change) : s.cancelChangeover c =
    { s.endChangeover with con := { s.con with replies := s.con.replies ++ c.cancelReplies } } := by
  unfold cancelChangeover answerOwed Change.cancelReplies
  cases c.owed
  · simp only [List.append_nil]; rfl
  · rfl

end State

/-- Settles O41: CHANGEOVER by the tests of its work in turn, CHANGEOVER_CANCEL by whether a changeover is under way; what
it cancels is answered first (`State.cancelChangeover_eq`). -/
theorem changeoversStartAndAreCancelled : Obligations.ChangeoversStartAndAreCancelled := by
  intro s r rest hf hh hdec
  refine ⟨fun b dark hd hbody => ?_, fun hd hbody => ⟨fun hn => ?_, fun c hc => ?_⟩⟩
  · have ht : s.Takes .console 0x50 r rest := State.changeover_takes hd hf hh rfl rfl hdec
    have hp : parseChangeover r.body = .ok (b, dark) := by rw [hbody, parseChangeover_eq]
    have blank : (s.takeOff .console rest).reportedBlank b = s.reportedBlank b := State.reportedBlank_takeOff s .console rest b
    refine ⟨fun hn => ?_, fun hn hb => ?_, fun hn hv hq => ?_⟩
    · exact State.answers_of rfl (by decide) ht hp (State.changeoverWork_inChangeover (s := s.takeOff .console rest) hn)
    · refine State.answers_of rfl (by decide) ht hp (State.changeoverWork_blank (s := s.takeOff .console rest) hn ?_)
      rwa [blank, State.reportedBlank_iff]
    · have kept : s.reportedBlank b = false := by
        rw [← Bool.not_eq_true, State.reportedBlank_iff]
        rintro (h | ⟨w, hw, h⟩)
        · rw [hv] at h; cases h
        · exact hq w hw h
      refine ⟨(s.takeOff .console rest).startChangeover b dark (some r.tag), ?_, ?_, rfl, rfl⟩
      · change Host.Outcome.next (s.takeStoreRequest .console 0x50 parseChangeover State.changeoverWork) = _
        rw [State.takeStoreRequest_takes (by decide) ht hp,
          State.changeoverWork_starts (s := s.takeOff .console rest) hn (by rwa [blank])]
        rfl
      · exact State.answered_owed rfl rfl
  · have ht : s.Takes .console 0x51 r rest := State.changeover_takes hd hf hh rfl rfl hdec
    exact State.does_at_once rfl (by decide) ht (State.parseNone_empty hbody)
      (State.changeoverCancelWork_none (s := s.takeOff .console rest) hn)
  · have ht : s.Takes .console 0x51 r rest := State.changeover_takes hd hf hh rfl rfl hdec
    have runs : exec (.changeoverCancel .console) s = .next (((s.takeOff .console rest).cancelChangeover c).answer
        (requesterOf .console r) .ok (State.cancelFields c)).pump := by
      change Host.Outcome.next (s.takeRequest .console 0x51 parseNone State.changeoverCancelWork) = _
      rw [State.takeRequest_takes (by decide) ht (State.parseNone_empty hbody), State.changeoverCancelWork_some (s := s.takeOff .console rest) hc]
    rw [State.cancelChangeover_eq] at runs
    refine ⟨_, runs, ?_, ?_, ?_⟩
    · refine State.answered_appended (xs := c.cancelReplies ++ [replyTo r .ok (State.cancelFields c)]) ?_ rfl
      rw [← List.append_assoc]; rfl
    · exact State.keepsReports_pump s _ rfl rfl
    · rw [State.inside_pump, State.inside_answer]
      rfl

end Sys2Proof.Machine

/-! The loading of a changeover: the outcome of a load step by its position, the dark checks, and the pairs of a segment
(R118, R120, R121, R125, R128). -/

namespace Sys2Proof.Machine

namespace State

/-! ### The outcome of a load step -/

section Loading

variable {s : State} {c : Change}

theorem loadDone_busy {b : Bank} {n : Nat} {w : Bool} (h : s.ctl.op = some (.load b n w)) : s.loadDone .busy = s := by
  unfold loadDone
  rw [h]

/-- A load step that ends frees the port, and its outcome is taken where it is still wanted (R118). -/
theorem loadDone_ended {b : Bank} {n : Nat} {w : Bool} {a : StoreAnswer} (h : s.ctl.op = some (.load b n w))
    (ha : a ≠ .busy) :
    s.loadDone a = (if w then s.freePort.takeLoad b n (a = .done true) else s.freePort).settle := by
  unfold loadDone
  rw [h]
  cases a with
  | busy => exact absurd rfl ha
  | done passes => rfl
  | notDone => rfl

theorem takeLoad_passes {b : Bank} {n : Nat} {u : PatchUnit} (hc : s.bank.change = some c) (hu : s.loadInto b n = some u) :
    s.takeLoad b n true = s.passLoad c u := by
  rw [takeLoad, hc]
  dsimp only
  rw [hu]

theorem takeLoad_fails {b : Bank} {n : Nat} {passes : Bool} (hc : s.bank.change = some c)
    (h : passes = false ∨ s.loadInto b n = none) : s.takeLoad b n passes = s.failLoad c := by
  rw [takeLoad, hc]
  dsimp only
  rcases h with rfl | h
  · cases s.loadInto b n <;> rfl
  · rw [h]

/-- A segment that passes its check is read into the pending patch (R32, R118). -/
theorem loadInto_segment {b : Bank} {n : Nat} {m : Assoc PatchEntry} (hn : n ≤ 24) (h : s.storedSegment b n = some m) :
    s.loadInto b n = some { s.patch with pending := writePairs (segmentPairs n m) s.patch.pending } := by
  rw [loadInto, if_pos hn, h]; rfl

theorem loadInto_windows {b : Bank} {w : Windows} (h : s.storedWindows b = some w) :
    s.loadInto b 25 = some { s.patch with pendingWindows := w } := by
  rw [loadInto, if_neg (by decide), h]; rfl

/-- An item that the store does not hold under its check value hands over nothing (R6). -/
theorem loadInto_none {b : Bank} {n : Nat}
    (h : (n ≤ 24 ∧ s.storedSegment b n = none) ∨ (n = 25 ∧ s.storedWindows b = none)) : s.loadInto b n = none := by
  rcases h with ⟨hn, h⟩ | ⟨rfl, h⟩
  · rw [loadInto, if_pos hn, h]; rfl
  · rw [loadInto, if_neg (by decide), h]; rfl

theorem passLoad_next {u : PatchUnit} (h : c.position < 25) : s.passLoad c u =
    { s with
      patch := u
      bank := { s.bank with change := some { c with position := c.position + 1 } }
      ctl := { s.ctl with loadClaim := some (c.position + 1) } } := if_pos h

theorem passLoad_cut {u : PatchUnit} (h : c.position = 25) (hd : c.dark = false) :
    s.passLoad c u = ({ s with patch := u } : State).commit c := by
  unfold passLoad
  rw [if_neg (by omega), if_neg (by simp [hd])]

theorem passLoad_dark {u : PatchUnit} (h : c.position = 25) (hd : c.dark = true) : s.passLoad c u =
    ({ s with
      patch := u
      bank := { s.bank with change := some { c with waiting := true, darkSteps := 0 } } } : State).darkCheck
        { c with waiting := true, darkSteps := 0 } := by
  unfold passLoad
  rw [if_neg (by omega), if_pos hd]

/-- The end of a changeover once its load step has left the port (R120, R128). -/
theorem endChangeover_freePort (s : State) : s.freePort.endChangeover =
    { s with
      bank := { s.bank with change := none }
      patch := { s.patch with pending := [], pendingWindows := .empty, follows := none }
      ctl := { s.ctl with op := none, loadClaim := none } } := rfl

theorem failLoad_owed {tag : Byte} (h : c.owed = some tag) : s.failLoad c =
    s.endChangeover.answer (changeoverReq tag) .checkFailed (b1 c.target.val ++ b1 c.position) := by
  rw [failLoad, h]

theorem failLoad_startUp (h : c.owed = none) : s.failLoad c =
    s.endChangeover.raise { s.endChangeover.fault .patchCheck true c.target.val with bank := some c.target } := by
  rw [failLoad, h]

/-! ### The dark checks -/

theorem darkExpiry_idle (h : s.bank.change = none ∨ ∃ c, s.bank.change = some c ∧ c.waiting = false) :
    s.darkExpiry = s := by
  unfold darkExpiry
  rcases h with h | ⟨c, h, hw⟩
  · rw [h]
  · rw [h]; exact if_neg (by simp [hw])

theorem darkExpiry_waiting (h : s.bank.change = some c) (hw : c.waiting = true) :
    s.darkExpiry = (({ s with bank := { s.bank with
      change := some { c with darkSteps := raiseCount32 c.darkSteps } } } : State).darkCheck
        { c with darkSteps := raiseCount32 c.darkSteps }).settle := by
  unfold darkExpiry
  rw [h]
  exact if_pos hw

/-- A dark check settled: the commit where every output is 0, and the wait goes on where one is not (R121). -/
theorem settle_darkCheck (u : State) (c : Change) :
    (u.darkCheck c).settle = if u.isDark then (u.commit c).settle else u.settle := by
  unfold darkCheck; split_ifs <;> rfl

theorem isDark_iff (s : State) : s.isDark = true ↔ ∀ ch, 1 ≤ ch → ch ≤ 1536 → s.output ch = 0 := by
  simp only [isDark, List.all_eq_true, List.mem_range, decide_eq_true_eq, Config.channels]
  constructor
  · intro h ch h1 h2
    have := h (ch - 1) (by omega)
    rwa [Nat.sub_add_cancel h1] at this
  · exact fun h i hi => h (i + 1) (by omega) (by omega)

end Loading

end State

/-! ### The pairs of a segment -/

theorem mem_segmentCircuits {n k : Nat} (hn : 1 ≤ n) : k ∈ segmentCircuits n ↔ 96 * (n - 1) < k ∧ k ≤ 96 * n := by
  simp only [segmentCircuits, List.mem_map, List.mem_range]
  constructor
  · rintro ⟨i, hi, rfl⟩; omega
  · rintro ⟨h1, h2⟩; exact ⟨k - (n - 1) * 96 - 1, by omega, by omega⟩

/-- Pairs made of a table's own values write each circuit they list as the table has it, and leave the others (R32). -/
theorem find_writePairs_map (l : List Nat) (m u : Assoc PatchEntry) (k : Nat) :
    Assoc.find (writePairs (l.map (fun j => (j, Assoc.find m j))) u) k = if k ∈ l then Assoc.find m k else Assoc.find u k := by
  induction l generalizing u with
  | nil => rfl
  | cons j rest ih =>
    have step : writePairs ((j :: rest).map (fun j => (j, Assoc.find m j))) u
        = writePairs (rest.map (fun j => (j, Assoc.find m j))) (Assoc.put j (Assoc.find m j) u) := rfl
    rw [step, ih, Assoc.find_put]
    by_cases hk : k = j
    · simp [hk]
    · simp [hk]

/-- Settles O42: a load step by its outcome, an expiry of the dark check timer by the wait, and what a segment writes. -/
theorem loadStepsAndDarkChecks : Obligations.LoadStepsAndDarkChecks := by
  intro s freed checked
  refine ⟨fun b n w h => congrArg Host.Outcome.next (State.loadDone_busy h),
    fun b n a h ha => congrArg Host.Outcome.next (State.loadDone_ended h ha), fun c hc hop => ?_,
    fun h => congrArg Host.Outcome.next (State.darkExpiry_idle h),
    fun c hc hw => congrArg Host.Outcome.next ((State.darkExpiry_waiting hc hw).trans (State.settle_darkCheck _ _)),
    State.isDark_iff s, fun n k m u hn _ => ?_⟩
  · have passed {u : PatchUnit} (hu : freed.loadInto c.target c.position = some u) :
        exec (.loadStepDone (.done true)) s = .next (freed.passLoad c u).settle :=
      congrArg Host.Outcome.next ((State.loadDone_ended hop (by decide)).trans
        (congrArg State.settle (State.takeLoad_passes (s := freed) hc hu)))
    refine ⟨fun m _ hn hm => ?_, fun w hn hw => ?_, fun a ha => ?_⟩
    · rw [passed (State.loadInto_segment hn hm), State.passLoad_next (by omega)]
    · have windows : freed.loadInto c.target c.position = some { s.patch with pendingWindows := w } := by
        rw [hn]; exact State.loadInto_windows hw
      refine ⟨fun hd => ?_, fun hd => ?_⟩
      · rw [passed windows, State.passLoad_cut hn hd]
      · rw [passed windows, State.passLoad_dark hn hd, State.settle_darkCheck]
    · have busy : a ≠ .busy := by rintro rfl; simp at ha
      have failed : s.loadDone a = (freed.failLoad c).settle := by
        refine (State.loadDone_ended hop busy).trans (congrArg State.settle (State.takeLoad_fails (s := freed) hc ?_))
        rcases ha with rfl | rfl | ⟨-, -, hn, h⟩ | ⟨-, hn, h⟩
        · exact .inl rfl
        · exact .inl rfl
        · exact .inr (State.loadInto_none (.inl ⟨hn, h⟩))
        · exact .inr (State.loadInto_none (.inr ⟨hn, h⟩))
      refine ⟨fun tag ho => congrArg Host.Outcome.next (failed.trans ?_), fun ho => congrArg Host.Outcome.next (failed.trans ?_)⟩
      · rw [State.failLoad_owed ho]; rfl
      · rw [State.failLoad_startUp ho]; rfl
  · rw [segmentPairs, find_writePairs_map]
    simp only [mem_segmentCircuits hn]

end Sys2Proof.Machine

/-! Whether the engine is halted, whether the part is the leader, and the active bank: which operations leave them alone
(R115, R148, R186). -/

namespace Sys2Proof.Machine.State

/-- Whether the engine is HALTED, whether the part is the leader, and the active bank. -/
def footing (s : State) : Bool × Bool × Option Bank := (s.sup.halted, s.isLeader, s.bank.active)

theorem footing_parts {s : State} {h r : Bool} {b : Option Bank} (hs : s.footing = (h, r, b)) :
    s.sup.halted = h ∧ s.isLeader = r ∧ s.bank.active = b := by
  simpa only [footing, Prod.mk.injEq] using hs

theorem footing_congr {s t : State} (hh : t.sup.halted = s.sup.halted) (hr : t.cas.role = s.cas.role)
    (hb : t.bank.active = s.bank.active) : t.footing = s.footing := by simp only [footing, isLeader, hh, hr, hb]

/-! ### The shared operations -/

@[simp] theorem footing_setPort (s : State) (p : PortId) (x : Port) : (s.setPort p x).footing = s.footing := by
  cases p <;> rfl
@[simp] theorem footing_setPb (s : State) (p : PbId) (x : Playback) : (s.setPb p x).footing = s.footing := rfl
@[simp] theorem footing_setLine (s : State) (l : Fin 6) (x : Line) : (s.setLine l x).footing = s.footing := rfl
@[simp] theorem footing_emit (s : State) (o : Output) : (s.emit o).footing = s.footing := rfl
@[simp] theorem footing_freePort (s : State) : s.freePort.footing = s.footing := rfl
@[simp] theorem footing_unhold (s : State) (p : PbId) : (s.unhold p).footing = s.footing := rfl
@[simp] theorem footing_enterHeld (s : State) (p : PbId) : (s.enterHeld p).footing = s.footing := rfl
@[simp] theorem footing_dropSlots (s : State) (p : PbId) : (s.dropSlots p).footing = s.footing := rfl
@[simp] theorem footing_createSlot (s : State) (x : Slot) : (s.createSlot x).footing = s.footing := rfl

@[simp] theorem footing_takeOff (s : State) (p : PortId) (rest : List Request) : (s.takeOff p rest).footing = s.footing :=
  footing_setPort _ _ _

@[simp] theorem footing_answer (s : State) (q : Requester) (st : Status) (b : List Byte) :
    (s.answer q st b).footing = s.footing := footing_setPort _ _ _

@[simp] theorem footing_setBuilder (s : State) (p : PortId) (x : Option Builder) : (s.setBuilder p x).footing = s.footing :=
  footing_setPort _ _ _

@[simp] theorem footing_report (s : State) (k : Nat) (u : Bool) (b : List Byte) : (s.report k u b).footing = s.footing :=
  footing_congr (by simp) (by simp) (by simp)

@[simp] theorem footing_raise (s : State) (f : EngineFault) : (s.raise f).footing = s.footing := by
  unfold raise; split_ifs <;> rfl

@[simp] theorem footing_startReply (s : State) (p : PortId) : (s.startReply p).footing = s.footing :=
  footing_congr (by simp) (by simp) (by simp)

@[simp] theorem footing_pump (s : State) : s.pump.footing = s.footing := footing_congr (by simp) (by simp) (by simp)

@[simp] theorem footing_arbitrate (s : State) : s.arbitrate.footing = s.footing :=
  footing_congr (by simp) (by simp) (by simp)

@[simp] theorem footing_settle (s : State) : s.settle.footing = s.footing := footing_congr (by simp) (by simp) (by simp)

theorem footing_takeRequest {β : Type} {s : State} {p : PortId} {code : Nat} {parse : List Byte → Except Status β}
    {work : State → Requester → β → State} (wk : ∀ u q v, (work u q v).footing = u.footing) :
    (s.takeRequest p code parse work).footing = s.footing :=
  takeRequest_keeps (P := fun t => t.footing = s.footing) rfl (fun _ _ _ => footing_takeOff _ _ _)
    (fun _ _ _ _ h => (footing_answer _ _ _ _).trans h) (fun _ h => (footing_pump _).trans h)
    (fun _ _ _ h => (wk _ _ _).trans h)

theorem footing_takeStoreRequest {β : Type} {s : State} {p : PortId} {code : Nat} {parse : List Byte → Except Status β}
    {work : State → Requester → β → State} (wk : ∀ u q v, (work u q v).footing = u.footing) :
    (s.takeStoreRequest p code parse work).footing = s.footing :=
  footing_takeRequest fun u q v => (footing_arbitrate _).trans (wk u q v)

/-! ### The playbacks -/

@[simp] theorem footing_inputResult (s : State) (i : Fin 4) (p : PbId) (a : InputCommand) (r : InputResult) (cue : Nat) :
    (s.inputResult i p a r cue).footing = s.footing := by
  have told (x : Four CueInput) (b : List Byte) : (({ s with inputs := x } : State).report 0xED false b).footing = s.footing :=
    (footing_report _ _ _ _).trans rfl
  unfold inputResult
  cases r with
  | refused st => dsimp only; split_ifs <;> simp [told]
  | _ => exact told _ _

@[simp] theorem footing_endGo (s : State) (p : PbId) (src : GoSource) (st : Status) : (s.endGo p src st).footing = s.footing := by
  cases src with
  | follow => simp only [endGo]; split_ifs <;> simp
  | _ => simp [endGo]

@[simp] theorem footing_standbyChanged (s : State) (p : PbId) : (s.standbyChanged p).footing = s.footing :=
  footing_report _ _ _ _

@[simp] theorem footing_startFetchCore (s : State) (p : PbId) : (s.startFetchCore p).footing = s.footing :=
  footing_congr (by simp) (by simp) (by simp)

@[simp] theorem footing_goTake (s : State) (p : PbId) (src : GoSource) (o : Option Nat) (a : Bool) (c : Cue) :
    (s.goTake p src o a c).footing = s.footing := by
  have told (t : State) (cue slot : Nat) (kept : Bool) : (t.goReply p src o a cue slot kept).footing = t.footing := by
    cases src <;> simp [goReply]
  have acted (t : State) (cue : Nat) : (t.goAction p src cue).footing = t.footing := by cases src <;> simp [goAction]
  unfold goTake
  dsimp only
  split
  · simp
  · split_ifs <;> simp [told, acted]

@[simp] theorem footing_handPending (s : State) (p : PbId) : (s.handPending p).footing = s.footing := by
  unfold handPending
  split
  · rfl
  · dsimp only
    split <;> simp

@[simp] theorem footing_startFetch (s : State) (p : PbId) : (s.startFetch p).footing = s.footing := by simp [startFetch]

@[simp] theorem footing_endPending (s : State) (p : PbId) (st : Status) : (s.endPending p st).footing = s.footing := by
  unfold endPending; split <;> simp

@[simp] theorem footing_goCommand (s : State) (p : PbId) (src : GoSource) (o : Option Nat) (a : Bool) :
    (s.goCommand p src o a).footing = s.footing := by
  have pended : (s.makePending p src o a).footing = s.footing := by unfold makePending; cases src <;> simp
  unfold goCommand
  split
  · simp
  · split
    · simp
    · simp
    · simp
    · split <;> simp [pended]
    · split <;> simp

@[simp] theorem footing_takeOutcome (s : State) (p : PbId) (f : Fetch) (r : Option Cue) :
    (s.takeOutcome p f r).footing = s.footing := by
  cases r <;> simp [takeOutcome, takeStandby]

theorem footing_backCommand {s t : State} {p : PbId} {r : BackTaken} (h : s.backCommand p = .ok (t, r)) :
    t.footing = s.footing := by
  unfold backCommand at h
  dsimp only at h
  split at h
  · cases h
  · split_ifs at h
    all_goals
      split at h
      · cases h
      · cases h; simp

theorem footing_holdCommand {s t : State} {p : PbId} (h : s.holdCommand p = .ok t) : t.footing = s.footing := by
  unfold holdCommand at h
  split at h
  · cases h; rfl
  · split_ifs at h
    cases h; rfl
  · cases h
  · cases h; rfl

theorem footing_resumeCommand {s t : State} {p : PbId} (h : s.resumeCommand p = .ok t) : t.footing = s.footing := by
  unfold resumeCommand at h
  split_ifs at h
  cases h; rfl

theorem footing_releaseCommand (s : State) (q : Requester) (p : PbId) (time : Nat) (a : Bool) :
    (s.releaseCommand q p time a).footing = s.footing := by
  have told (t : State) (slot : Nat) : (t.releaseReply q p slot time a).footing = t.footing := by simp [releaseReply]
  unfold releaseCommand
  split_ifs
  · simp [told]
  · dsimp only
    split
    · simp
    · unfold releaseSlot
      dsimp only
      split_ifs <;> simp [told]

theorem footing_backWork (s : State) (q : Requester) (p : PbId) : (s.backWork q p).footing = s.footing := by
  unfold backWork
  split
  · simp
  · simp [footing_backCommand ‹_›]

theorem footing_holdWork (s : State) (q : Requester) (p : PbId) : (s.holdWork q p).footing = s.footing := by
  unfold holdWork
  split
  · simp
  · simp [footing_holdCommand ‹_›]

theorem footing_resumeWork (s : State) (q : Requester) (p : PbId) : (s.resumeWork q p).footing = s.footing := by
  unfold resumeWork
  split
  · simp
  · simp [footing_resumeCommand ‹_›]

theorem footing_jumpWork (s : State) (q : Requester) (a : PbId × Nat) : (s.jumpWork q a).footing = s.footing := by
  unfold jumpWork; dsimp only; split_ifs <;> simp

theorem footing_masterWork (s : State) (q : Requester) (a : Nat × Nat × Bool) : (s.masterWork q a).footing = s.footing := by
  have level (t : State) (n v : Nat) : (t.setMaster n v).footing = t.footing := by unfold setMaster; split <;> rfl
  simp [masterWork, level]

theorem footing_expireFollow (s : State) (p : PbId) : (s.expireFollow p).footing = s.footing := by
  unfold expireFollow
  split
  · split_ifs <;> simp
  · rfl

theorem footing_fadeStep (s : State) : s.fadeStep.footing = s.footing := by
  have slot (t : State) (n : Nat) : (t.advanceSlot n).footing = t.footing := footing_congr (by simp) (by simp) (by simp)
  unfold fadeStep
  split_ifs
  · rfl
  · exact foldl_keeps (g := footing) slot _ _

/-! ### The cue inputs -/

theorem footing_actOnInput (s : State) (i : Fin 4) : (s.actOnInput i).footing = s.footing := by
  have commanded (p : PbId) (a : InputCommand) : (s.inputCommand i p a).footing = s.footing := by
    cases a with
    | go => simp [inputCommand]
    | back =>
      simp only [inputCommand]
      split
      · simp
      · simp [footing_backCommand ‹_›]
    | hold =>
      simp only [inputCommand]
      split
      · simp
      · simp [footing_holdCommand ‹_›]
    | resume =>
      simp only [inputCommand]
      split
      · simp
      · simp [footing_resumeCommand ‹_›]
  unfold actOnInput
  dsimp only
  split
  · split
    · rfl
    · split
      · simp
      · exact commanded _ _
  · rfl

theorem footing_debounce (s : State) (i : Fin 4) : (s.debounce i).footing = s.footing := by
  unfold debounce
  dsimp only
  split_ifs
  · rfl
  · rfl
  · rw [footing_settle, footing_actOnInput]; rfl

/-! ### The Store Controller and its requests -/

@[simp] theorem footing_enqueue (s : State) (w : WriteEntry) : (s.enqueue w).footing = s.footing :=
  footing_congr (by simp) (by simp) (by simp)

@[simp] theorem footing_acceptWrite (s : State) (q : Requester) (k : WriteKind) (b : Option Bank) (st : Status) :
    (s.acceptWrite q k b st).footing = s.footing := by
  unfold acceptWrite; split_ifs <;> simp

@[simp] theorem footing_acceptBankWrite (s : State) (q : Requester) (k : WriteKind) (b : Bank) :
    (s.acceptBankWrite q k b).footing = s.footing := by
  unfold acceptBankWrite; split_ifs <;> simp

theorem footing_cueOpenWork (s : State) (q : Requester) (a : Builder) : (s.cueOpenWork q a).footing = s.footing := by
  unfold cueOpenWork; split_ifs <;> simp

theorem footing_cueAddWork (s : State) (q : Requester) (a : List (Nat × Nat)) : (s.cueAddWork q a).footing = s.footing := by
  unfold cueAddWork
  split
  · simp
  · dsimp only; split_ifs <;> simp

theorem footing_cueCloseWork (s : State) (q : Requester) (a : Unit) : (s.cueCloseWork q a).footing = s.footing := by
  unfold cueCloseWork
  split
  · simp
  · split
    · simp
    · split
      · simp
      · split <;> simp

theorem footing_cueAbandonWork (s : State) (q : Requester) (a : Unit) : (s.cueAbandonWork q a).footing = s.footing := by
  unfold cueAbandonWork; split_ifs <;> simp

theorem footing_cueDeleteWork (s : State) (q : Requester) (a : (Bank × PbId) × Nat) :
    (s.cueDeleteWork q a).footing = s.footing := by
  unfold cueDeleteWork; split_ifs <;> simp

theorem footing_windowSetWork (s : State) (q : Requester) (a : Bank × Windows) : (s.windowSetWork q a).footing = s.footing := by
  unfold windowSetWork; split_ifs <;> simp

theorem footing_bankEraseWork (s : State) (q : Requester) (b : Bank) : (s.bankEraseWork q b).footing = s.footing := by
  unfold bankEraseWork; split_ifs <;> simp

theorem footing_recordWork (s : State) (q : Requester) (a : RecordArgs) : (s.recordWork q a).footing = s.footing := by
  unfold recordWork
  split
  · simp
  · dsimp only
    split
    · simp
    · split_ifs <;> simp

theorem footing_answerPatch (s : State) (q : Requester) (first count : Nat) (m : Assoc PatchEntry) (w : Windows) :
    (s.answerPatch q first count m w).footing = s.footing := (footing_answer _ _ _ _).trans rfl

theorem footing_cueReadWork (s : State) (q : Requester) (a : (Bank × PbId) × Nat × Nat) :
    (s.cueReadWork q a).footing = s.footing := by
  unfold cueReadWork
  dsimp only
  split_ifs
  · simp
  · split
    · simp
    · simp
    · rfl

theorem footing_patchReadWork (s : State) (q : Requester) (a : Bank × Nat × Nat) : (s.patchReadWork q a).footing = s.footing := by
  unfold patchReadWork
  dsimp only
  split_ifs
  · simp
  · split
    · exact footing_answerPatch _ _ _ _ _ _
    · rfl

theorem footing_endHostRead (s : State) (r : HostRead) (passes : Bool) : (s.endHostRead r passes).footing = s.footing := by
  cases r with
  | cue q b l n first => simp only [endHostRead]; split <;> simp
  | patch q b first count =>
    simp only [endHostRead]
    split
    · exact footing_answerPatch _ _ _ _ _ _
    · simp

/-! ### The reads and the controls -/

theorem footing_listReadWork (s : State) (q : Requester) (a : (Bank × PbId) × Nat) : (s.listReadWork q a).footing = s.footing := by
  unfold listReadWork; dsimp only; split_ifs <;> simp

theorem footing_statusWork (s : State) (q : Requester) (a : Unit) : (s.statusWork q a).footing = s.footing := by
  unfold statusWork
  split_ifs <;> exact (footing_answer _ _ _ _).trans rfl

theorem footing_levelsReadWork (s : State) (q : Requester) (a : Nat × Nat × Nat) : (s.levelsReadWork q a).footing = s.footing := by
  unfold levelsReadWork
  dsimp only
  split
  · simp
  · split_ifs <;> simp

theorem footing_slotReadWork (s : State) (q : Requester) (a : Nat × Nat) : (s.slotReadWork q a).footing = s.footing := by
  unfold slotReadWork; split <;> simp

theorem footing_parkWork (s : State) (q : Requester) (a : Nat × Nat × Bool) : (s.parkWork q a).footing = s.footing := by
  unfold parkWork
  dsimp only
  split_ifs <;> exact (footing_answer _ _ _ _).trans rfl

theorem footing_unparkWork (s : State) (q : Requester) (c : Nat) : (s.unparkWork q c).footing = s.footing := by
  have kept (rest : List Park) : (s.keepParks q rest).footing = s.footing := (footing_answer _ _ _ _).trans rfl
  unfold unparkWork
  split_ifs
  · split <;> exact kept _
  · exact footing_answer _ _ _ _
  · exact kept _

theorem footing_faultClearWork (s : State) (q : Requester) (a : Option (Nat × FaultKind)) :
    (s.faultClearWork q a).footing = s.footing := by
  unfold faultClearWork
  dsimp only
  split
  · exact (footing_answer _ _ _ _).trans rfl
  · split
    · exact footing_answer _ _ _ _
    · split <;> exact (footing_answer _ _ _ _).trans rfl

theorem footing_lineHoldWork (s : State) (q : Requester) (a : Nat × Bool) : (s.lineHoldWork q a).footing = s.footing := by
  unfold lineHoldWork
  refine (footing_answer _ _ _ _).trans ?_
  split <;> rfl

/-! ### The lines -/

theorem footing_takeStatuses (s : State) (l : Fin 6) (statuses : List CircuitStatus) :
    (s.takeStatuses l statuses).footing = s.footing := by
  have handed (t : State) (i : Nat) (d : Debounce) : (t.handEvents l i d).footing = t.footing := by
    unfold handEvents
    dsimp only
    split_ifs
    · rfl
    · rfl
    · rfl
    · exact foldl_keeps (g := footing) (fun t a => footing_congr (by simp) (by simp) (by simp)) _ _
  refine foldl_keeps (g := footing) (fun t a => ?_) _ _
  unfold takeStatus
  split_ifs
  · rfl
  · exact handed _ _ _

theorem footing_countReturn (s : State) (l : Fin 6) (r : Return) : (s.countReturn l r).footing = s.footing := by
  have racked (x : Line × RackNews) : (s.setRack l x).footing = s.footing :=
    footing_congr (by simp [setRack]) (by simp [setRack]) (by simp [setRack])
  cases r with
  | bad => exact racked _
  | good m n x =>
    simp only [countReturn]
    split_ifs
    · rw [footing_takeStatuses, racked]
    · exact racked _

theorem footing_takeReturn (s : State) (l : Fin 6) (clean : Bool) (b : List Byte) : (s.takeReturn l clean b).footing = s.footing := by
  unfold takeReturn
  split_ifs <;> simp [closeInterval, footing_countReturn]

theorem footing_lineExpiry (s : State) (l : Fin 6) : (s.lineExpiry l).footing = s.footing := by
  unfold lineExpiry missReturn sendLevels
  split_ifs <;> simp [closeInterval, footing_countReturn]

/-! ### The ports -/

theorem footing_receive (s : State) (p : PortId) (kind tag : Byte) (body : List Byte) :
    (s.receive p kind tag body).footing = s.footing := by
  have heard (t : State) : (t.heard p kind).footing = t.footing := by
    cases p
    · show (t.consoleHeard kind).footing = t.footing
      unfold consoleHeard
      dsimp only
      split_ifs
      · exact footing_report _ _ _ _
      · rfl
    · rfl
  have queued (t : State) : (t.queueFrame p kind tag body).footing = t.footing := by
    unfold queueFrame
    dsimp only
    split_ifs <;> simp
  unfold receive
  split_ifs
  · simp
  · simp [startReplies, queued, heard]

theorem footing_finishSending (s : State) (p : PortId) : (s.finishSending p).footing = s.footing := by
  unfold finishSending; split <;> simp

theorem footing_takeUnknown (s : State) (p : PortId) : (s.takeUnknown p).footing = s.footing := by
  unfold takeUnknown
  split
  · rfl
  · split_ifs <;> simp

theorem footing_goSilent (s : State) : s.goSilent.footing = s.footing := by
  have frozen (t : State) : (four.foldl freeze t).footing = t.footing :=
    foldl_keeps (g := footing) (fun t p => by unfold freeze; split_ifs <;> rfl) _ _
  have lost (t : State) : t.applyLoss.footing = t.footing := by
    have applied := frozen { t with sup := { t.sup with loss := some t.sup.policy } }
    unfold applyLoss
    dsimp only
    generalize four.foldl freeze _ = u at applied ⊢
    split
    · rfl
    · exact applied
    · exact applied
  unfold goSilent
  split_ifs
  · rw [footing_pump, lost, footing_report]; rfl
  · rfl

/-! ### The cascade -/

theorem footing_cascadeExpiry (s : State) : s.cascadeExpiry.footing = s.footing := by
  have stages (t : State) : (three.foldl sendStage t).footing = t.footing :=
    foldl_keeps (f := sendStage) (g := footing) (fun _ _ => rfl) _ _
  have setups (t : State) : (three.foldl sendSetup t).footing = t.footing :=
    foldl_keeps (f := sendSetup) (g := footing) (fun _ _ => rfl) _ _
  unfold cascadeExpiry
  dsimp only
  split_ifs
  · rw [setups]; exact stages s
  · exact stages s
  · rfl

/-- A part that is not the leader becomes a follower, or has its role already (R148). -/
theorem footing_dinByte (s : State) : s.dinByte.footing = s.footing := by
  unfold dinByte decideRole
  rw [if_pos rfl]
  split_ifs with hr
  · refine (footing_settle _).trans ?_
    simp [footing, isLeader, hr]
  · rfl

/-- A part that is not the leader goes between FOLLOWER and ORPHAN by its stage (R150). -/
theorem footing_watchHop {s : State} (hl : s.isLeader = false) (hop : Nat) : (s.watchHop hop).footing = s.footing := by
  have role (t : State) (n : Nat) (ht : t.isLeader = false) : (t.roleOfStage n).footing = t.footing := by
    have follows : t.cas.role ≠ .leader := of_decide_eq_false ht
    unfold roleOfStage
    split_ifs
    · rfl
    · simp [footing, follows, enterOrphan, isLeader]
    · simp [footing, follows, isLeader]
  unfold watchHop changeId
  split
  · exact role _ _ hl
  · dsimp only
    generalize (if s.cas.cand = some hop then s.cas.candRun + 1 else 1) = run
    split_ifs
    · rfl
    · exact role _ _ hl
    · rfl

/-- The six lines changed one after another. -/
theorem footing_foldLines (s : State) (f : Fin 6 → Line → Line) :
    (six.foldl (fun t l => t.setLine l (f l (t.line l))) s).footing = s.footing :=
  foldl_keeps (g := footing) (fun t l => footing_setLine t l _) _ _

theorem footing_takeStage (s : State) (f : StageFrame) : (s.takeStage f).footing = s.footing := by
  have taken := footing_foldLines
    { s with outp := { s.outp with target := (stageSettled f s.free).blend }, free := s.free + stageOpens f }
    (fun l x => { x with next := levelsOfLine (stageSettled f s.free).levels l })
  unfold takeStage
  dsimp only at taken ⊢
  generalize List.foldl _ _ six = u at taken ⊢
  exact taken

theorem footing_applySetup (s : State) (f : SetupFrame) : (s.applySetup f).footing = s.footing := by
  have taken := footing_foldLines { s with free := s.free + setupOpens f }
    (fun l x => x.take ((setupSettled f s.free).lines.getD l.val defaultLine))
  unfold applySetup
  dsimp only at taken ⊢
  generalize List.foldl _ _ six = u at taken ⊢
  exact taken

theorem isLeader_of_footing {s t : State} (h : t.footing = s.footing) : t.isLeader = s.isLeader := (footing_parts h).2.1

/-- A frame from the leader makes no leader of the part that takes it (R148, R150). -/
theorem footing_dinFrame {s : State} (hl : s.isLeader = false) (hop : Nat) : (s.dinByte.watchHop hop).footing = s.footing := by
  rw [footing_watchHop ((isLeader_of_footing (footing_dinByte s)).trans hl), footing_dinByte]

theorem footing_stageFrameIn (s : State) (f : StageFrame) : (s.stageFrameIn f).footing = s.footing := by
  have found (t : State) : t.endLeaderLost.footing = t.footing := by
    unfold endLeaderLost
    split_ifs <;> rfl
  unfold stageFrameIn
  split_ifs with hl
  · rfl
  · rw [Bool.not_eq_true] at hl
    dsimp only
    rw [footing_emit]
    split_ifs
    · rw [footing_takeStage, found, footing_dinFrame hl]
    · rw [found, footing_dinFrame hl]

theorem footing_setupFrameIn (s : State) (f : SetupFrame) : (s.setupFrameIn f).footing = s.footing := by
  unfold setupFrameIn
  split_ifs with hl
  · rfl
  · rw [Bool.not_eq_true] at hl
    dsimp only
    rw [footing_emit]
    split_ifs
    · rw [footing_applySetup, footing_dinFrame hl]
    · exact footing_dinFrame hl _

theorem footing_countError (s : State) (i : CasInput) : (s.countError i).footing = s.footing := by
  cases i with
  | uin => rfl
  | din =>
    refine Eq.trans ?_ (footing_dinByte s)
    unfold countError
    dsimp only
    split_ifs <;> rfl

theorem footing_upFrameIn (s : State) (f : UpFrame) : (s.upFrameIn f).footing = s.footing := by
  have orphan : s.seeOrphan.footing = s.footing := by
    unfold seeOrphan
    split_ifs
    · rfl
    · exact footing_raise _ _
  have joined (t : State) (n : Fin 3) (g : UpFrame) : (t.joinStage n g).footing = t.footing := by
    unfold joinStage
    dsimp only
    split_ifs
    · rfl
    · exact footing_report _ _ _ _
  have lines (t : State) (n : Fin 3) (x : List LineReport) : (t.reportStageLines n x).footing = t.footing :=
    foldl_keeps (g := footing) (fun t a => footing_congr (by simp) (by simp) (by simp)) _ _
  have taken (n : Fin 3) : (s.takeUp n f).footing = s.footing := by
    unfold takeUp
    refine (foldl_keeps (g := footing) (fun t a => footing_congr (by simp) (by simp) (by simp)) _ _).trans ?_
    exact (lines _ _ _).trans (joined _ _ _)
  unfold upFrameIn
  split_ifs
  · rfl
  · rfl
  · exact orphan
  · split
    · rw [footing_pump, taken]
    · rfl
  · rfl

theorem footing_loseStage (s : State) (n : Fin 3) : (s.loseStage n).footing = s.footing := by
  unfold loseStage
  dsimp only
  split_ifs
  · rw [footing_pump, footing_raise, footing_report]; rfl
  · rfl

/-! ### House items and the ends of store operations -/

theorem footing_startLines (s : State) : s.startLines.footing = s.footing := by
  unfold startLines
  split_ifs <;> rfl

theorem footing_deliverHeld (s : State) (h : Held) : (s.deliverHeld h).footing = s.footing := by
  have gens (t : State) (i : HouseItem) : (t.raiseGens i).footing = t.footing := by
    rw [raiseGens_eq]; rfl
  have delivered (i : HouseItem) (c : Bool) : (s.deliver i c).footing = s.footing := by
    cases i with
    | line st l x =>
      show (s.deliverLine st l x c).footing = s.footing
      unfold deliverLine
      split
      · rfl
      · split
        · rfl
        · split_ifs
          · rfl
          · exact footing_startLines _
    | _ => rfl
  cases h with
  | fault f => exact footing_raise s f
  | item i c =>
    simp only [deliverHeld]
    split_ifs
    · rw [gens, delivered]
    · exact delivered _ _

theorem footing_handOver (s : State) (h : Held) : (s.handOver h).footing = s.footing := by
  unfold handOver
  split
  · rfl
  · exact footing_deliverHeld s h
  · rfl

theorem footing_endStartUpRead (s : State) (i : Nat) (passes : Bool) : (s.endStartUpRead i passes).footing = s.footing := by
  have house (t : State) : (t.houseRead i passes).footing = t.footing := by
    unfold houseRead
    split
    · exact footing_handOver _ _
    · exact (footing_handOver _ _).trans rfl
  have read : (if i ≤ 42 then s.freePort.houseRead i passes else s.freePort.headerRead (Fin.ofNat 4 (i - 43)) passes).footing
      = s.footing := by
    split_ifs
    · exact house _
    · rfl
  unfold endStartUpRead
  dsimp only
  rw [footing_settle]
  generalize (if i ≤ 42 then _ else _) = u at read ⊢
  split_ifs <;> exact read

theorem footing_startUpDone (s : State) (a : StoreAnswer) : (s.startUpDone a).footing = s.footing := by
  unfold startUpDone
  split
  · rfl
  · exact footing_endStartUpRead _ _ _
  · rfl

theorem footing_endHeadWrite (s : State) (st : Status) (b : List Byte) : (s.endHeadWrite st b).footing = s.footing :=
  footing_congr (by simp) (by simp) (by simp)

theorem footing_listNotice (s : State) (w : WriteEntry) : (s.listNotice w).footing = s.footing := by
  rw [listNotice_eq]; rfl

theorem footing_completeWrite (s : State) (w : WriteEntry) (damaged : List Nat) :
    (s.completeWrite w damaged).footing = s.footing := by
  have noted (t : State) (pairs : List (Nat × Option PatchEntry)) : (t.notify w pairs).footing = t.footing := by
    unfold notify
    split
    · exact footing_handOver _ _
    · rw [patchNoticeFor_eq]; exact footing_listNotice t w
  have headed (t : State) : (t.headerAfter w).footing = t.footing := by
    rw [headerAfter_eq]; rfl
  unfold completeWrite
  rw [noted, footing_endHeadWrite, headed]
  rfl

theorem footing_failWrite (s : State) (w : WriteEntry) : (s.failWrite w).footing = s.footing := by
  have headed : (s.failedHeader w).footing = s.footing := by
    rw [failedHeader_eq]; rfl
  have projected (t : State) : (t.failedProjection w).footing = t.footing := by
    rw [failedProjection_eq]; rfl
  rw [failWrite_eq, footing_listNotice, projected, footing_raise, footing_endHeadWrite, headed]

theorem footing_confirmWrite (s : State) (w : WriteEntry) (damaged : List Nat) :
    (s.confirmWrite w damaged).footing = s.footing := by
  unfold confirmWrite
  split_ifs
  · unfold eraseOn
    dsimp only
    split
    · split_ifs <;> rfl
    · rfl
  · exact footing_completeWrite s w damaged

theorem footing_writeDone (s : State) (a : WriteAnswer) : (s.writeDone a).footing = s.footing := by
  unfold writeDone
  split
  · simp [footing_confirmWrite]
  · simp [footing_failWrite]
  · simp [footing_failWrite]
  · rfl

theorem footing_hostReadDone (s : State) (a : StoreAnswer) : (s.hostReadDone a).footing = s.footing := by
  unfold hostReadDone
  split
  · rfl
  · simp [footing_endHostRead]
  · rfl

theorem footing_fetchDone (s : State) (a : StoreAnswer) : (s.fetchDone a).footing = s.footing := by
  unfold fetchDone
  split
  · rfl
  · dsimp only
    split_ifs <;> simp
  · rfl

theorem footing_takePatchNotice (s : State) : s.takePatchNotice.footing = s.footing := by
  unfold takePatchNotice applyPatchNotice
  split
  · rfl
  · dsimp only; split <;> rfl

theorem footing_takeListNotice (s : State) : s.takeListNotice.footing = s.footing := by
  unfold takeListNotice
  split
  · rfl
  · rw [footing_settle, footing_startFetch]; rfl

/-! ### The changeover -/

theorem footing_answerOwed (s : State) (o : Option Byte) (st : Status) (b : List Byte) :
    (s.answerOwed o st b).footing = s.footing := footing_congr (by simp) (by simp) (by simp)

theorem footing_cancelChangeover (s : State) (c : Change) : (s.cancelChangeover c).footing = s.footing :=
  (footing_answerOwed _ _ _ _).trans rfl

theorem footing_changeoverWork (s : State) (q : Requester) (a : Bank × Bool) : (s.changeoverWork q a).footing = s.footing := by
  unfold changeoverWork
  split_ifs
  · simp
  · simp
  · rfl

theorem footing_changeoverCancelWork (s : State) (q : Requester) (a : Unit) :
    (s.changeoverCancelWork q a).footing = s.footing := by
  unfold changeoverCancelWork
  split <;> simp [footing_cancelChangeover]

theorem footing_failLoad (s : State) (c : Change) : (s.failLoad c).footing = s.footing := by
  unfold failLoad
  dsimp only
  split
  · exact (footing_answer _ _ _ _).trans rfl
  · exact (footing_raise _ _).trans rfl

/-- A load step that does not pass brings no bank in (R120, R128). -/
theorem footing_takeLoad_fails (s : State) (b : Bank) (n : Nat) : (s.takeLoad b n false).footing = s.footing := by
  cases hc : s.bank.change with
  | none => rw [takeLoad, hc]
  | some c => rw [takeLoad_fails hc (.inl rfl), footing_failLoad]

theorem footing_timeout (s : State) : s.timeout.footing = s.footing := by
  unfold timeout
  split
  · rw [footing_endStartUpRead, footing_handOver]
  · dsimp only
    split_ifs <;> simp
  · dsimp only
    split_ifs <;> simp [footing_takeLoad_fails]
  · simp [footing_endHostRead]
  · simp [footing_failWrite]
  · rfl
  · rfl

theorem footing_decideStartUp (s : State) : s.decideStartUp.footing = s.footing := by
  by_cases h : s.isLeader = true ∧ s.ctl.startUp.isNone = true ∧ s.bank.decided = false
  · obtain ⟨hl, hst, hd⟩ := h
    rw [decideStartUp_eq hl (Option.isNone_iff_eq_none.mp hst) hd]
    split
    · rw [footing_settle]; rfl
    · split_ifs <;> (rw [footing_settle]; rfl)
  · rw [decideStartUp, if_neg h]

/-- A commit brings its target in and leaves the engine and the role (R122). -/
theorem footing_commit (s : State) (c : Change) : (s.commit c).footing = (s.sup.halted, s.isLeader, some c.target) := by
  have cleared (t : State) : (four.foldl commitPlayback t).footing = t.footing :=
    foldl_keeps (g := footing) (fun t p => by simp [commitPlayback]) _ _
  have fetched (t : State) : (four.foldl startFetch t).footing = t.footing := foldl_keeps (g := footing) footing_startFetch _ _
  have released (t : State) : t.releaseParks.footing = t.footing := footing_congr (by simp) (by simp) (by simp)
  have shown (t : State) (b : Option Bank) : (t.showActive b c).footing = t.footing := footing_report _ _ _ _
  unfold commit
  dsimp only
  rw [fetched, footing_answerOwed, shown, released, cleared]
  rfl

/-- The engine is HALTED or not, and the part the leader or not, as before. -/
def SameEngine (s t : State) : Prop := t.sup.halted = s.sup.halted ∧ t.isLeader = s.isLeader

theorem sameEngine_of_footing {s t : State} {b : Option Bank} (h : t.footing = (s.sup.halted, s.isLeader, b)) :
    s.SameEngine t := ⟨(footing_parts h).1, (footing_parts h).2.1⟩

theorem SameEngine.trans {s t u : State} (h : s.SameEngine t) (h' : t.SameEngine u) : s.SameEngine u :=
  ⟨h'.1.trans h.1, h'.2.trans h.2⟩

theorem SameEngine.settle {s t : State} (h : s.SameEngine t) : s.SameEngine t.settle :=
  h.trans (sameEngine_of_footing (footing_settle t))

theorem sameEngine_commit (s : State) (c : Change) : s.SameEngine (s.commit c) := sameEngine_of_footing (footing_commit s c)

theorem sameEngine_darkCheck (s : State) (c : Change) : s.SameEngine (s.darkCheck c) := by
  unfold darkCheck
  split_ifs
  · exact sameEngine_commit s c
  · exact ⟨rfl, rfl⟩

theorem sameEngine_darkExpiry (s : State) : s.SameEngine s.darkExpiry := by
  unfold darkExpiry
  split
  · exact ⟨rfl, rfl⟩
  · split_ifs
    · refine SameEngine.settle ?_
      refine SameEngine.trans ?_ (sameEngine_darkCheck _ _)
      exact ⟨rfl, rfl⟩
    · exact ⟨rfl, rfl⟩

theorem sameEngine_takeLoad (s : State) (b : Bank) (n : Nat) (passes : Bool) : s.SameEngine (s.takeLoad b n passes) := by
  have same {t u : State} (ht : t.SameEngine u) (h : s.SameEngine t) : s.SameEngine u := h.trans ht
  have passed (c : Change) (u : PatchUnit) : s.SameEngine (s.passLoad c u) := by
    unfold passLoad
    dsimp only
    split_ifs
    · exact ⟨rfl, rfl⟩
    · exact same (sameEngine_darkCheck _ _) ⟨rfl, rfl⟩
    · exact same (sameEngine_commit _ _) ⟨rfl, rfl⟩
  unfold takeLoad
  split
  · exact ⟨rfl, rfl⟩
  · split
    · exact passed _ _
    · exact sameEngine_of_footing (footing_failLoad _ _)

theorem sameEngine_loadDone (s : State) (a : StoreAnswer) : s.SameEngine (s.loadDone a) := by
  unfold loadDone
  split
  · exact ⟨rfl, rfl⟩
  · dsimp only
    split_ifs
    · exact (sameEngine_takeLoad s.freePort _ _ _).settle
    · exact SameEngine.settle ⟨rfl, rfl⟩
  · exact ⟨rfl, rfl⟩

/-! ### RESTART, engine faults and the role -/

/-- RESTART makes the engine NORMAL (R188). -/
theorem footing_restartWork (s : State) (q : Requester) (a : Unit) :
    (s.restartWork q a).footing = (false, s.isLeader, s.bank.active) := by
  have restarted (t : State) : (four.foldl (fun t p => (t.restartPlayback p).startFetch p) t).footing = t.footing :=
    foldl_keeps (g := footing) (fun t p => by simp [restartPlayback]) _ _
  unfold restartWork
  dsimp only
  rw [footing_answer, restarted]
  split
  · rw [footing_cancelChangeover]; rfl
  · rfl

/-- A fault taken leaves the engine as it is or halts it (R186). -/
theorem footing_takeFault (s : State) (f : EngineFault) :
    (s.takeFault f).footing = s.footing ∨ (s.takeFault f).footing = (true, s.isLeader, s.bank.active) := by
  have ended (t : State) : (four.foldl (fun t p => t.endPending p .halted) t).footing = t.footing :=
    foldl_keeps (g := footing) (fun t p => footing_endPending t p _) _ _
  have told (k : Nat) (u : Bool) (b : List Byte) := footing_report s k u b
  unfold takeFault
  dsimp only
  split_ifs
  · right
    rw [footing_report, enterHalted, ended]
    simp only [footing, isLeader, report_cas, report_bank]
  · exact .inl (told _ _ _)

theorem footing_takeRaised (s : State) (place : Nat) :
    (s.takeRaised place).footing = s.footing ∨ (s.takeRaised place).footing = (true, s.isLeader, s.bank.active) := by
  unfold takeRaised
  split_ifs
  · split
    · exact .inl rfl
    · rw [footing_pump]; exact footing_takeFault _ _
  · exact .inl rfl

theorem footing_becomeLeader (s : State) : s.becomeLeader.footing = (s.sup.halted, true, s.bank.active) := by
  unfold becomeLeader
  rw [footing_startLines, foldl_keeps (g := footing) footing_deliverHeld]
  rfl

end Sys2Proof.Machine.State

namespace Sys2Proof.Machine

/-! ### What each command can do -/

/-- What a command can do to the halt, the role and the active bank: it leaves them alone, or is one of the six that
change one of them (R115, R148, R186). -/
inductive Moves : Instr → State → State → Prop
  | stands {c : Instr} {s t : State} (h : t.footing = s.footing) : Moves c s t
  | resets {m : Option (List Nat)} {s t : State} (halted : t.sup.halted = false) (role : t.isLeader = false) :
      Moves (.deviceReset m) s t
  | leads {s t : State} (was : s.isLeader = false) (h : t.footing = (s.sup.halted, true, s.bank.active)) :
      Moves (.roleDecided false) s t
  | restarts {p : PortId} {s t : State} (h : t.footing = (false, s.isLeader, s.bank.active)) : Moves (.restart p) s t
  | loads {a : StoreAnswer} {s t : State} (h : s.SameEngine t) : Moves (.loadStepDone a) s t
  | darkens {s t : State} (h : s.SameEngine t) : Moves .darkCheck s t
  | faults {n : Nat} {s t : State} (h : t.footing = (true, s.isLeader, s.bank.active)) : Moves (.engineFault n) s t

namespace State

theorem moves_decideRole (s : State) (d : Bool) : Moves (.roleDecided d) s (s.decideRole d) := by
  cases d with
  | true => exact .stands (footing_dinByte s)
  | false =>
    by_cases hr : s.cas.role = .undecided
    · rw [decideRole_unseen hr]
      exact .leads (by simp [isLeader, hr]) (footing_becomeLeader s)
    · rw [decideRole_decided hr]
      exact .stands rfl

theorem moves_restart (s : State) (p : PortId) : Moves (.restart p) s (s.takeStoreRequest p 0x5E parseNone restartWork) := by
  unfold takeStoreRequest
  rcases takeRequest_cases s p 0x5E parseNone (fun t q v => (restartWork t q v).arbitrate) with
    h | ⟨r, rest, st, -, h⟩ | ⟨r, rest, v, -, -, h⟩ <;> rw [h]
  · exact .stands rfl
  · exact .stands (by simp)
  · refine .restarts ?_
    rw [footing_pump, footing_arbitrate, footing_restartWork]
    cases p <;> rfl

/-- A command that leaves the halt, the role and the active bank alone. -/
theorem runs_standing {c : Instr} {s t : State} (hx : exec c s = .next t) (h : t.footing = s.footing) : Runs c s (Moves c s) :=
  ⟨t, hx, .stands h⟩

/-- What each command does to the halt, the role and the active bank (R115, R148, R186). -/
theorem exec_moves (c : Instr) (s : State) : Runs c s (Moves c s) := by
  cases c with
  | deviceReset m => exact ⟨_, rfl, .resets rfl rfl⟩
  | roleDecided d => exact ⟨_, rfl, moves_decideRole s d⟩
  | startUpReadDone a => exact runs_standing rfl (footing_startUpDone s a)
  | startUpDecision => exact runs_standing rfl (footing_decideStartUp s)
  | showTimeTick => exact runs_standing rfl (by rw [tick_eq]; rfl)
  | frameReceived p kind tag body =>
    refine runs_standing rfl ?_
    split_ifs
    · exact footing_receive s p kind tag body
    · exact footing_setPort _ _ _
  | portFrameError p => exact runs_standing rfl (footing_setPort _ _ _)
  | portFrameGap p l => exact runs_standing rfl (footing_setPort _ _ _)
  | frameSent p => exact runs_standing rfl (footing_finishSending s p)
  | consoleSilent => exact runs_standing rfl (footing_goSilent s)
  | ping p => exact runs_standing rfl (footing_takeRequest fun _ _ _ => footing_answer _ _ _ _)
  | status p => exact runs_standing rfl (footing_takeRequest footing_statusWork)
  | levelsRead p => exact runs_standing rfl (footing_takeRequest footing_levelsReadWork)
  | circuitRead p => exact runs_standing rfl (footing_takeRequest fun _ _ _ => footing_answer _ _ _ _)
  | playbackRead p => exact runs_standing rfl (footing_takeRequest fun _ _ _ => footing_answer _ _ _ _)
  | rackRead p => exact runs_standing rfl (footing_takeRequest fun _ _ _ => footing_answer _ _ _ _)
  | stageRead p => exact runs_standing rfl (footing_takeRequest fun _ _ _ => footing_answer _ _ _ _)
  | cueRead p => exact runs_standing rfl (footing_takeStoreRequest footing_cueReadWork)
  | listRead p => exact runs_standing rfl (footing_takeRequest footing_listReadWork)
  | bankInfo p => exact runs_standing rfl (footing_takeRequest fun _ _ _ => footing_answer _ _ _ _)
  | patchRead p => exact runs_standing rfl (footing_takeStoreRequest footing_patchReadWork)
  | faultsRead p => exact runs_standing rfl (footing_takeRequest fun _ _ _ => footing_answer _ _ _ _)
  | faultRecordRead p => exact runs_standing rfl (footing_takeRequest fun _ _ _ => footing_answer _ _ _ _)
  | houseRead p => exact runs_standing rfl (footing_takeRequest fun _ _ _ => footing_answer _ _ _ _)
  | slotRead p => exact runs_standing rfl (footing_takeRequest footing_slotReadWork)
  | cueOpen p => exact runs_standing rfl (footing_takeRequest footing_cueOpenWork)
  | cueAdd p => exact runs_standing rfl (footing_takeRequest footing_cueAddWork)
  | cueClose p => exact runs_standing rfl (footing_takeStoreRequest footing_cueCloseWork)
  | cueAbandon p => exact runs_standing rfl (footing_takeRequest footing_cueAbandonWork)
  | cueDelete p => exact runs_standing rfl (footing_takeStoreRequest footing_cueDeleteWork)
  | patchSet p => exact runs_standing rfl (footing_takeStoreRequest fun _ _ _ => footing_acceptBankWrite _ _ _ _)
  | windowSet p => exact runs_standing rfl (footing_takeStoreRequest footing_windowSetWork)
  | bankTitle p => exact runs_standing rfl (footing_takeStoreRequest fun _ _ _ => footing_acceptBankWrite _ _ _ _)
  | record p => exact runs_standing rfl (footing_takeStoreRequest footing_recordWork)
  | go p => exact runs_standing rfl (footing_takeStoreRequest fun _ _ _ => footing_goCommand _ _ _ _ _)
  | back p => exact runs_standing rfl (footing_takeStoreRequest footing_backWork)
  | hold p => exact runs_standing rfl (footing_takeRequest footing_holdWork)
  | resume p => exact runs_standing rfl (footing_takeRequest footing_resumeWork)
  | jump p => exact runs_standing rfl (footing_takeStoreRequest footing_jumpWork)
  | release p => exact runs_standing rfl (footing_takeStoreRequest fun _ _ _ => footing_releaseCommand _ _ _ _ _)
  | master p => exact runs_standing rfl (footing_takeRequest footing_masterWork)
  | park p => exact runs_standing rfl (footing_takeRequest footing_parkWork)
  | unpark p => exact runs_standing rfl (footing_takeRequest footing_unparkWork)
  | faultClear p => exact runs_standing rfl (footing_takeRequest footing_faultClearWork)
  | faultAck p => exact runs_standing rfl (footing_takeRequest fun _ _ _ => (footing_answer _ _ _ _).trans rfl)
  | changeover p => exact runs_standing rfl (footing_takeStoreRequest footing_changeoverWork)
  | changeoverCancel p => exact runs_standing rfl (footing_takeRequest footing_changeoverCancelWork)
  | bankErase p => exact runs_standing rfl (footing_takeStoreRequest footing_bankEraseWork)
  | houseSet p => exact runs_standing rfl (footing_takeStoreRequest fun _ _ _ => footing_acceptWrite _ _ _ _ _)
  | curveSet p => exact runs_standing rfl (footing_takeStoreRequest fun _ _ _ => footing_acceptWrite _ _ _ _ _)
  | houseCircuitsSet p => exact runs_standing rfl (footing_takeStoreRequest fun _ _ _ => footing_acceptWrite _ _ _ _ _)
  | safeLookSet p => exact runs_standing rfl (footing_takeStoreRequest fun _ _ _ => footing_acceptWrite _ _ _ _ _)
  | lineSet p => exact runs_standing rfl (footing_takeStoreRequest fun _ _ _ => footing_acceptWrite _ _ _ _ _)
  | inputSet p => exact runs_standing rfl (footing_takeStoreRequest fun _ _ _ => footing_acceptWrite _ _ _ _ _)
  | houseFade p => exact runs_standing rfl (footing_takeRequest fun _ _ _ => (footing_answer _ _ _ _).trans rfl)
  | blackout p => exact runs_standing rfl (footing_takeRequest fun _ _ _ => (footing_answer _ _ _ _).trans rfl)
  | lineHold p => exact runs_standing rfl (footing_takeRequest footing_lineHoldWork)
  | accessSet p => exact runs_standing rfl (footing_takeRequest fun _ _ _ => (footing_answer _ _ _ _).trans rfl)
  | lossClear p => exact runs_standing rfl (footing_takeRequest fun _ _ _ => (footing_answer _ _ _ _).trans rfl)
  | restart p => exact ⟨_, rfl, moves_restart s p⟩
  | unknownKindRequest p => exact runs_standing rfl (footing_takeUnknown s p)
  | fetchDone a => exact runs_standing rfl (footing_fetchDone s a)
  | loadStepDone a => exact ⟨_, rfl, .loads (sameEngine_loadDone s a)⟩
  | hostReadDone a => exact runs_standing rfl (footing_hostReadDone s a)
  | writeStepDone a => exact runs_standing rfl (footing_writeDone s a)
  | storeTimeout => exact runs_standing rfl (footing_timeout s)
  | patchNotice => exact runs_standing rfl (footing_takePatchNotice s)
  | listNotice => exact runs_standing rfl (footing_takeListNotice s)
  | fadeStep => exact runs_standing rfl ((footing_pump _).trans (footing_fadeStep s))
  | followTimerCount => exact runs_standing rfl (by unfold countFollows; split_ifs <;> rfl)
  | followExpiry n =>
    cases h : idx4 n with
    | none => exact runs_standing (by simp only [exec, execFollowExpiry, h]) rfl
    | some p => exact runs_standing (by simp only [exec, execFollowExpiry, h]) (footing_expireFollow s p)
  | houseFadeStep => exact runs_standing rfl rfl
  | darkCheck => exact ⟨_, rfl, .darkens (sameEngine_darkExpiry s)⟩
  | blendStep => exact runs_standing rfl (by split_ifs <;> rfl)
  | followerBlendStep => exact runs_standing rfl (by split_ifs <;> rfl)
  | lineClockExpiry n =>
    cases h : line? n with
    | none => exact runs_standing (by simp only [exec, execLineClockExpiry, h]) rfl
    | some l => exact runs_standing (by simp only [exec, execLineClockExpiry, h]) (footing_lineExpiry s l)
  | returnFrame n clean b =>
    cases h : line? n with
    | none => exact runs_standing (by simp only [exec, execReturnFrame, h]) rfl
    | some l => exact runs_standing (by simp only [exec, execReturnFrame, h]) (footing_takeReturn s l clean b)
  | contactChange n closed =>
    cases h : idx4 n with
    | none => exact runs_standing (by simp only [exec, execContactChange, h]) rfl
    | some i =>
      refine runs_standing (t := s.changeContact i closed) (by simp only [exec, execContactChange, h]) ?_
      unfold changeContact
      dsimp only
      split_ifs <;> rfl
  | debounceExpiry n =>
    cases h : idx4 n with
    | none => exact runs_standing (by simp only [exec, execDebounceExpiry, h]) rfl
    | some i => exact runs_standing (by simp only [exec, execDebounceExpiry, h]) (footing_debounce s i)
  | cascadeFrameExpiry => exact runs_standing rfl (footing_cascadeExpiry s)
  | stageFrame f => exact runs_standing rfl (by split_ifs; exacts [footing_stageFrameIn s f, footing_countError s .din])
  | setupFrame f => exact runs_standing rfl (by split_ifs; exacts [footing_setupFrameIn s f, footing_countError s .din])
  | cascadeFrameError i => exact runs_standing rfl (footing_countError s i)
  | cascadeByteGap i => exact runs_standing rfl (footing_countError s i)
  | leaderLost => exact runs_standing rfl (by unfold loseLeader; split_ifs <;> rfl)
  | upFrameSend => exact runs_standing rfl (by unfold sendUp; split <;> rfl)
  | upFrame f => exact runs_standing rfl (by split_ifs; exacts [footing_upFrameIn s f, footing_countError s .uin])
  | stageLost n =>
    cases h : stage? n with
    | none => exact runs_standing (by simp only [exec, execStageLost, h]) rfl
    | some k => exact runs_standing (by simp only [exec, execStageLost, h]) (footing_loseStage s k)
  | orphanWatchExpiry => exact runs_standing rfl rfl
  | engineFault n => exact ⟨_, rfl, (footing_takeRaised s n).elim .stands .faults⟩
  | syncAfterBytesPassedOver p => exact runs_standing rfl (footing_setPort _ _ _)

end State

/-- Settles O59: of the commands that can change the halt, the role or the active bank (`State.exec_moves`), each changes
only its own. -/
theorem haltAndRoleChangeOnlySo : Obligations.HaltAndRoleChangeOnlySo := by
  intro c s t hx
  obtain ⟨u, hu, moves⟩ := State.exec_moves c s
  obtain rfl : u = t := by rw [hu] at hx; cases hx; rfl
  have leads {v : State} : v.cas.role = .leader ↔ v.isLeader = true := decide_eq_true_iff.symm
  simp only [ne_eq, leads]
  cases moves with
  | stands h =>
    obtain ⟨halted, role, active⟩ := State.footing_parts h
    rw [halted, role, active]
    exact ⟨fun hn hy => absurd (hn.symm.trans hy) (by decide), fun hy hn => absurd (hn.symm.trans hy) (by decide),
      fun hn hy => absurd hy hn, fun hy hn => absurd hy hn, fun hn => absurd rfl hn⟩
  | resets halted role => simp [halted, role]
  | leads was h =>
    obtain ⟨halted, role, active⟩ := State.footing_parts h
    simp [halted, was, role, active]
  | restarts h =>
    obtain ⟨halted, role, active⟩ := State.footing_parts h
    simp [halted, role, active]
  | loads h => simp [h.1, h.2]
  | darkens h => simp [h.1, h.2]
  | faults h =>
    obtain ⟨halted, role, active⟩ := State.footing_parts h
    simp [halted, role, active]

end Sys2Proof.Machine

/-! The reads of the rack lines, of the stages and of the circuit faults: RACK_READ, STAGE_READ, FAULTS_READ (R146, R147,
R163). -/

namespace Sys2Proof.Machine

/-! ### The bodies of the three reads -/

theorem line?_none {n : Nat} (h : n < 1 ∨ 6 < n) : line? n = none := dif_neg (by omega)

theorem stage?_none {n : Nat} (h : n < 1 ∨ 3 < n) : stage? n = none := dif_neg (by omega)

theorem parseRackRead_line (l : Fin 6) : parseRackRead (b1 (l.val + 1)) = .ok l :=
  sized_some rfl ((congrArg line? (byteAt_byte (by omega) [])).trans (State.line?_succ l))

theorem parseRackRead_far {b : List Byte} (hl : b.length = 1) (h : byteAt b 0 < 1 ∨ 6 < byteAt b 0) :
    parseRackRead b = .error .badValue := sized_none hl (line?_none h)

theorem parseStageRead_stage (n : Fin 3) : parseStageRead (b1 (n.val + 1)) = .ok n :=
  sized_some rfl ((congrArg stage? (byteAt_byte (by omega) [])).trans (State.stage?_succ n))

theorem parseStageRead_far {b : List Byte} (hl : b.length = 1) (h : byteAt b 0 < 1 ∨ 3 < byteAt b 0) :
    parseStageRead b = .error .badValue := sized_none hl (stage?_none h)

theorem parseNone_long {b : List Byte} (h : b ≠ []) : parseNone b = .error .badLength :=
  sized_length fun hl => h (List.length_eq_zero_iff.mp hl)

/-! ### The replies -/

namespace State

/-- The fields of a RACK_READ reply in front of those of the circuits (R147). -/
def rackHeader (s : State) (l : Fin 6) : List Byte :=
  b1 (l.val + 1) ++ settingsBytes ((s.line l).settings.getD defaultLine) ++ bBool (s.line l).hold
    ++ b1 (monitorCode (s.line l).monitor) ++ b1 (s.line l).goodRun ++ b1 (s.line l).badRun
    ++ b1 ((s.line l).rack.getD (0, 0)).1 ++ b1 ((s.line l).rack.getD (0, 0)).2 ++ b1 (s.line l).seq
    ++ b2 s.outp.blend ++ b2 s.outp.target

/-- The fields of a RACK_READ reply (R147). -/
def rackFields (s : State) (l : Fin 6) : List Byte :=
  s.rackHeader l
    ++ ((s.line l).live.zip (s.line l).debounce).flatMap (fun e => b2 e.1 ++ b1 (conditionCode e.2.condition))

theorem rackFields_length {s : State} {l : Fin 6} (hlive : (s.line l).live.length = 96)
    (hdebounce : (s.line l).debounce.length = 96) : (s.rackFields l).length = 303 := by
  have header : (s.rackHeader l).length = 15 := rfl
  have circuits := flatMap_length (fun e : Nat × Debounce => b2 e.1 ++ b1 (conditionCode e.2.condition)) (k := 3)
    (fun _ => rfl) ((s.line l).live.zip (s.line l).debounce)
  rw [rackFields, List.length_append, header, circuits, List.length_zip, hlive, hdebounce]
  rfl

theorem rackReadWork_eq (s : State) (q : Requester) (l : Fin 6) : s.rackReadWork q l = s.answer q .ok (s.rackFields l) := rfl

theorem rackFields_takeOff (s : State) (p : PortId) (rest : List Request) (l : Fin 6) :
    (s.takeOff p rest).rackFields l = s.rackFields l := by cases p <;> rfl

/-- The fields of a STAGE_READ reply (R163). -/
def stageFields (s : State) (n : Fin 3) : List Byte :=
  b1 (n.val + 1) ++ bBool (s.cas.stages.get n).present ++ b1 (s.cas.gens.get n) ++ b1 (s.cas.stages.get n).gen
    ++ bBool (s.cas.stages.get n).leaderLost ++ b4 (s.cas.stages.get n).lastUp
    ++ (s.cas.stages.get n).lines.flatMap lineReportBytes ++ bBool s.cas.orphanSeen ++ b2 s.cas.uinErrors

theorem stageReadWork_eq (s : State) (q : Requester) (n : Fin 3) :
    s.stageReadWork q n = s.answer q .ok (s.stageFields n) := rfl

theorem stageFields_takeOff (s : State) (p : PortId) (rest : List Request) (n : Fin 3) :
    (s.takeOff p rest).stageFields n = s.stageFields n := by cases p <;> rfl

/-- The fields of a FAULTS_READ reply (R146). -/
def faultFields (s : State) : List Byte :=
  b1 s.outp.faults.length ++ b1 (s.outp.faults.filter (fun x => x.present)).length ++ b2 s.outp.notTabled
    ++ s.outp.faults.flatMap (fun x =>
        b2 x.circuit ++ b1 (faultKindCode x.kind) ++ b1 x.stage ++ bBool x.present ++ b4 x.firstSeen)

theorem faultFields_length (s : State) : s.faultFields.length = 4 + s.outp.faults.length * 9 := by
  have entries := flatMap_length (fun x : CircuitFault =>
    b2 x.circuit ++ b1 (faultKindCode x.kind) ++ b1 x.stage ++ bBool x.present ++ b4 x.firstSeen) (k := 9)
    (fun _ => rfl) s.outp.faults
  rw [faultFields, List.length_append, entries]
  rfl

theorem faultsReadWork_eq (s : State) (q : Requester) : s.faultsReadWork q () = s.answer q .ok s.faultFields := rfl

theorem faultFields_takeOff (s : State) (p : PortId) (rest : List Request) :
    (s.takeOff p rest).faultFields = s.faultFields := by cases p <;> rfl

end State

/-! ### The obligation -/

/-- Settles O16: each read's body as its parser reads it, and the fields of its reply, which do not depend on the request
queues. -/
theorem racksStagesAndFaultsAreRead : Obligations.RacksStagesAndFaultsAreRead := by
  refine ⟨fun s p r rest hd hu => ?_, fun s p r rest hd hu => ?_, fun s p r rest hd hu => ?_⟩
  · have ht : s.Takes p 0x06 r rest := State.takes_always hd hu rfl (State.mustWait_free s rfl rfl)
    have bad {st : Status} (hp : parseRackRead r.body = .error st) : Refuses (.rackRead p) s p r rest st :=
      State.refuses_body rfl (by decide) hd (State.read_gate hu rfl) hp
    refine ⟨fun hl => bad (sized_length hl), fun hl h => bad (parseRackRead_far hl h), fun l hb => ⟨?_, ?_⟩⟩
    · exact State.does_at_once (fields := s.rackFields l) rfl (by decide) ht (hb ▸ parseRackRead_line l)
        (by rw [State.rackReadWork_eq, State.rackFields_takeOff])
    · exact State.rackFields_length
  · have ht : s.Takes p 0x07 r rest := State.takes_always hd hu rfl (State.mustWait_free s rfl rfl)
    have bad {st : Status} (hp : parseStageRead r.body = .error st) : Refuses (.stageRead p) s p r rest st :=
      State.refuses_body rfl (by decide) hd (State.read_gate hu rfl) hp
    refine ⟨fun hl => bad (sized_length hl), fun hl h => bad (parseStageRead_far hl h), fun n hb => ?_⟩
    exact State.does_at_once (fields := s.stageFields n) rfl (by decide) ht (hb ▸ parseStageRead_stage n)
      (by rw [State.stageReadWork_eq, State.stageFields_takeOff])
  · have ht : s.Takes p 0x0C r rest := State.takes_always hd hu rfl (State.mustWait_free s rfl rfl)
    refine ⟨fun hb => ?_, fun hb => ?_, fun hfull => ?_⟩
    · exact State.refuses_body rfl (by decide) hd (State.read_gate hu rfl) (parseNone_long hb)
    · exact State.does_at_once (fields := s.faultFields) rfl (by decide) ht (State.parseNone_empty hb)
        (by rw [State.faultsReadWork_eq, State.faultFields_takeOff])
    · exact (State.faultFields_length s).trans (by rw [hfull])

end Sys2Proof.Machine

/-! The circuit fault table: the events that reach it, with their reports, and FAULT_CLEAR (R144, R145). -/

namespace Sys2Proof.Machine

/-! ### The body of FAULT_CLEAR -/

theorem faultKind?_code (k : FaultKind) : faultKind? (faultKindCode k) = some k := by cases k <;> rfl

theorem faultKind?_none {n : Nat} (h : n < 1 ∨ 4 < n) : faultKind? n = none := by
  rw [← Option.isNone_iff_eq_none, isNone_faultKind]
  simpa [outside] using h

theorem parseFaultClear_all {b : List Byte} (hl : b.length = 3) (hc : wordAt b 0 = 0) : parseFaultClear b = .ok none :=
  sized_some hl (if_pos hc)

theorem parseFaultClear_one {b : List Byte} (hl : b.length = 3) (h1 : 1 ≤ wordAt b 0) (h2 : wordAt b 0 ≤ 2304)
    {kind : FaultKind} (hk : faultKindCode kind = byteAt b 2) : parseFaultClear b = .ok (some (wordAt b 0, kind)) :=
  sized_some hl (by rw [if_neg (by omega), if_pos ((isCircuit_iff _).mpr ⟨h1, h2⟩), ← hk, faultKind?_code]; rfl)

theorem parseFaultClear_far {b : List Byte} (hl : b.length = 3)
    (h : 2304 < wordAt b 0 ∨ (wordAt b 0 ≠ 0 ∧ (byteAt b 2 < 1 ∨ 4 < byteAt b 2))) :
    parseFaultClear b = .error .badValue := by
  refine sized_none hl ?_
  rw [if_neg (by omega)]
  split_ifs with hc
  · have near := (isCircuit_iff _).mp hc
    rw [faultKind?_none (h.resolve_left (by omega)).2]
    rfl
  · rfl

namespace State

/-! ### An event and its report -/

/-- The state with another circuit fault table and another count of the events that found it full. -/
def withFaults (s : State) (faults : List CircuitFault) (notTabled : Nat) : State :=
  { s with outp := { s.outp with faults := faults, notTabled := notTabled } }

/-- The report of an event: the time it was first seen when it is tabled, and the entries that the table then holds (R144). -/
def eventReport (s : State) (stage : Nat) (e : CircuitEvent) (seen : Option Nat) (entries : Nat) : Report :=
  { kind := if e.raises then 0xE4 else 0xE5, urgent := e.raises, time := s.sup.showTime,
    fields := b2 e.circuit ++ b1 (faultKindCode e.kind) ++ b1 stage ++ b1 ((e.circuit - 1) % 576 / 96 + 1)
      ++ bBool seen.isSome ++ b4 (seen.getD 0) ++ b1 entries }

section Tabling

variable {s : State} {stage : Nat} {e : CircuitEvent}

/-- An event makes a table and a count, and is reported over them. -/
theorem tableEvent_only {faults : List CircuitFault} {n : Nat} {seen : Option Nat}
    (h : s.tableEvent stage e = (s.withFaults faults n).circuitReport stage e seen) :
    s.tableEvent stage e = { s with
      outp := { s.outp with faults := (s.tableEvent stage e).outp.faults,
                            notTabled := (s.tableEvent stage e).outp.notTabled }
      link := (s.tableEvent stage e).link } := by
  rw [h, circuitReport_outp]
  exact report_link_only _ _ _ _

theorem tableEvent_outp {faults : List CircuitFault} {n : Nat} {seen : Option Nat}
    (h : s.tableEvent stage e = (s.withFaults faults n).circuitReport stage e seen) :
    (s.tableEvent stage e).outp = { s.outp with faults := faults, notTabled := n } := by
  rw [h, circuitReport_outp]
  rfl

theorem tableEvent_reports {faults : List CircuitFault} {n : Nat} {seen : Option Nat}
    (h : s.tableEvent stage e = (s.withFaults faults n).circuitReport stage e seen) (hrole : s.isFollower = false)
    (hroom : s.link.reports.length < 16) : (s.tableEvent stage e).link.reports
      = s.link.reports ++ [s.eventReport stage e seen (s.tableEvent stage e).outp.faults.length] := by
  have kind : byte (if e.raises then 0xE4 else 0xE5) = if e.raises then 0xE4 else 0xE5 := by cases e.raises <;> rfl
  rw [h, circuitReport_outp, circuitReport, report_room (s := s.withFaults faults n) hrole hroom, kind]
  rfl

/-- An event whose circuit and kind have an entry sets its present flag (R144). -/
theorem tableEvent_known {x : CircuitFault} (h : s.circuitEntry e.circuit e.kind = some x) (stage : Nat) :
    s.tableEvent stage e = (s.withFaults (s.outp.faults.map (fun y : CircuitFault =>
        if y.circuit = e.circuit ∧ y.kind = e.kind then { y with present := e.raises } else y)) s.outp.notTabled).circuitReport
      stage e (some x.firstSeen) := by
  unfold tableEvent; rw [h]; rfl

/-- A clear of what has no entry leaves the table as it is (R144). -/
theorem tableEvent_unknown (h : s.circuitEntry e.circuit e.kind = none) (hr : e.raises = false) (stage : Nat) :
    s.tableEvent stage e = (s.withFaults s.outp.faults s.outp.notTabled).circuitReport stage e none := by
  unfold tableEvent; rw [h]; exact if_pos hr

/-- A raise of what has no entry is tabled where there is room (R144). -/
theorem tableEvent_tabled (h : s.circuitEntry e.circuit e.kind = none) (hr : e.raises = true)
    (hroom : s.outp.faults.length < 64) (stage : Nat) :
    s.tableEvent stage e = (s.withFaults (s.outp.faults ++
        [{ circuit := e.circuit, kind := e.kind, stage := stage, firstSeen := s.sup.showTime, present := true }])
        s.outp.notTabled).circuitReport stage e (some s.sup.showTime) := by
  unfold tableEvent; rw [h]
  exact (if_neg (by rw [hr]; decide)).trans (if_pos hroom)

/-- A raise that finds the table full is counted (R144). -/
theorem tableEvent_full (h : s.circuitEntry e.circuit e.kind = none) (hr : e.raises = true)
    (hfull : 64 ≤ s.outp.faults.length) (stage : Nat) :
    s.tableEvent stage e
      = (s.withFaults s.outp.faults (min (s.outp.notTabled + 1) 65535)).circuitReport stage e none := by
  unfold tableEvent; rw [h]
  exact (if_neg (by rw [hr]; decide)).trans (if_neg (Nat.not_lt.mpr hfull))

/-- Every event makes a table and a count, and is reported over them (R144). -/
theorem tableEvent_eq (s : State) (stage : Nat) (e : CircuitEvent) : ∃ faults n seen,
    s.tableEvent stage e = (s.withFaults faults n).circuitReport stage e seen := by
  cases h : s.circuitEntry e.circuit e.kind with
  | some x => exact ⟨_, _, _, tableEvent_known h stage⟩
  | none =>
    cases hr : e.raises with
    | false => exact ⟨_, _, _, tableEvent_unknown h hr stage⟩
    | true =>
      rcases Nat.lt_or_ge s.outp.faults.length 64 with hroom | hfull
      · exact ⟨_, _, _, tableEvent_tabled h hr hroom stage⟩
      · exact ⟨_, _, _, tableEvent_full h hr hfull stage⟩

end Tabling

/-! ### FAULT_CLEAR -/

theorem withFaults_port (s : State) (faults : List CircuitFault) (n : Nat) (p : PortId) :
    (s.withFaults faults n).port p = s.port p := by cases p <;> rfl

theorem withFaults_takeOff (s : State) (faults : List CircuitFault) (n : Nat) (p : PortId) (rest : List Request) :
    (s.takeOff p rest).withFaults faults n = (s.withFaults faults n).takeOff p rest := by cases p <;> rfl

/-- The reply of a FAULT_CLEAR that keeps some of the entries: how many it has removed, and how many remain (R145). -/
def keepFaults (s : State) (q : Requester) (keep : List CircuitFault) : State :=
  (s.withFaults keep s.outp.notTabled).answer q .ok (b1 (s.outp.faults.length - keep.length) ++ b1 keep.length)

section Clearing

variable {s : State} {a : Requester} {c : Nat} {kind : FaultKind}

theorem faultClearWork_all (s : State) (a : Requester) :
    s.faultClearWork a none = s.keepFaults a (s.outp.faults.filter (fun x => x.present)) := rfl

theorem faultClearWork_none (h : s.circuitEntry c kind = none) :
    s.faultClearWork a (some (c, kind)) = s.answer a .notFound [] := by
  unfold faultClearWork; dsimp only; rw [h]

theorem faultClearWork_present {x : CircuitFault} (h : s.circuitEntry c kind = some x) (hx : x.present = true) :
    s.faultClearWork a (some (c, kind)) = s.answer a .stillPresent [] := by
  unfold faultClearWork; dsimp only; rw [h]; exact if_pos hx

theorem faultClearWork_cleared {x : CircuitFault} (h : s.circuitEntry c kind = some x) (hx : x.present = false) :
    s.faultClearWork a (some (c, kind))
      = s.keepFaults a (s.outp.faults.filter (fun x => !(x.circuit = c && x.kind = kind))) := by
  unfold faultClearWork; dsimp only; rw [h]; exact if_neg (by rw [hx]; decide)

end Clearing

section Asked

variable {s : State} {p : PortId} {r : Request} {rest : List Request}

/-- FAULT_CLEAR is taken from a port with FAULTS while the engine runs, and waits for nothing (R145). -/
theorem faultClear_takes (hd : s.Head p 0x48 r rest) (hu : s.MayUse p .faults) (hh : s.sup.halted = false) :
    s.Takes p 0x48 r rest := takes_of .faults false hd hu rfl (.inr hh) (mustWait_free s rfl rfl)

/-- FAULT_CLEAR leaves the entries it keeps (R145). -/
theorem faultClear_does (ht : s.Takes p 0x48 r rest) {v : Option (Nat × FaultKind)} (hp : parseFaultClear r.body = .ok v)
    {keep : List CircuitFault}
    (hw : (s.takeOff p rest).faultClearWork (requesterOf p r) v = (s.takeOff p rest).keepFaults (requesterOf p r) keep) :
    Does (.faultClear p) s p r rest .ok (b1 (s.outp.faults.length - keep.length) ++ b1 keep.length)
      (s.withFaults keep s.outp.notTabled) := by
  refine does_change rfl (by decide) ht hp ?_ (withFaults_port s _ _) rfl rfl
  rw [hw, keepFaults, withFaults_takeOff, takeOff_outp]

end Asked

end State

/-! ### The obligation -/

/-- Settles O48: an event by the entry it finds and the room of the table; FAULT_CLEAR by its body as its parser reads it,
and its work by the entry it names. -/
theorem circuitFaultsAreTabledAndCleared : Obligations.CircuitFaultsAreTabledAndCleared := by
  refine ⟨fun s stage e hrole => ?_, fun s p r rest hd hu hh => ?_⟩
  · intro t old told
    have tells {faults : List CircuitFault} {n : Nat} {seen : Option Nat}
        (h : s.tableEvent stage e = (s.withFaults faults n).circuitReport stage e seen) :
        told seen ∧ t.outp = { s.outp with faults := faults, notTabled := n } :=
      ⟨State.tableEvent_reports h hrole, State.tableEvent_outp h⟩
    refine ⟨?_, fun x hx => ?_, fun hx hr => ?_, fun hx hr hroom => ?_, fun hx hr hfull => ?_⟩
    · obtain ⟨faults, n, seen, h⟩ := s.tableEvent_eq stage e
      exact State.tableEvent_only h
    · obtain ⟨report, table⟩ := tells (State.tableEvent_known hx stage)
      exact ⟨report, by rw [table], by rw [table]⟩
    · exact tells (State.tableEvent_unknown hx hr stage)
    · obtain ⟨report, table⟩ := tells (State.tableEvent_tabled hx hr hroom stage)
      exact ⟨report, by rw [table], by rw [table]⟩
    · obtain ⟨report, table⟩ := tells (State.tableEvent_full hx hr hfull stage)
      exact ⟨report, by rw [table], by rw [table]⟩
  · intro c k leaves
    have ht := State.faultClear_takes hd hu hh
    have outp : (s.takeOff p rest).outp = s.outp := State.takeOff_outp s p rest
    have entry (kind : FaultKind) : (s.takeOff p rest).circuitEntry c kind = s.circuitEntry c kind := by
      rw [State.circuitEntry, outp]; rfl
    have bad {st : Status} (hp : parseFaultClear r.body = .error st) : Refuses (.faultClear p) s p r rest st :=
      State.refuses_body rfl (by decide) hd (State.gate_of s p _ .faults false hu rfl (.inr hh)) hp
    refine ⟨fun hl => bad (sized_length hl), fun hl h => bad (parseFaultClear_far hl h), fun hl hc => ?_,
      fun kind hl h1 h2 hk => ?_⟩
    · exact State.faultClear_does ht (parseFaultClear_all hl hc) (by rw [State.faultClearWork_all, outp])
    · intro old
      have hp : parseFaultClear r.body = .ok (some (c, kind)) := parseFaultClear_one hl h1 h2 hk
      refine ⟨fun hx => ?_, fun x hx hpresent => ?_, fun x hx hpresent => ?_⟩
      · exact State.does_at_once rfl (by decide) ht hp (State.faultClearWork_none ((entry kind).trans hx))
      · exact State.does_at_once rfl (by decide) ht hp (State.faultClearWork_present ((entry kind).trans hx) hpresent)
      · exact State.faultClear_does ht hp
          (by rw [State.faultClearWork_cleared ((entry kind).trans hx) hpresent, outp])

end Sys2Proof.Machine

/-! The statuses of the circuits: their debounce, and the events of a circuit at its threshold (R141 to R143). -/

namespace Sys2Proof.Machine

/-! ### The debounce of one circuit -/

namespace Debounce

variable {d : Debounce} {st : CircuitStatus}

theorem count_eq (d : Debounce) (st : CircuitStatus) :
    d.count st = { d with candidate := some st, run := if d.candidate = some st then min (d.run + 1) 4 else 1 } := by
  unfold count
  split_ifs with h
  · rw [← h]
  · rfl

/-- A candidate short of its threshold, or one that is the condition already, makes no event (R141). -/
theorem events_none (hc : d.candidate = some st) (h : d.run < 4 ∨ st = d.condition) : d.events = [] := by
  unfold events
  rw [hc]
  split_ifs with hrun
  · rfl
  · rw [← h.resolve_left hrun]
    cases st with
    | none => rfl
    | some k => exact if_pos rfl

/-- A candidate at its threshold clears the old kind and raises the new (R141). -/
theorem events_due (hc : d.candidate = some st) (hrun : d.run = 4) (h : st ≠ d.condition) :
    d.events = d.condition.toList.map (·, false) ++ st.toList.map (·, true) := by
  unfold events
  rw [hc, if_neg (by omega)]
  cases hold : d.condition with
  | none =>
    cases st with
    | none => exact absurd hold.symm h
    | some k => rfl
  | some j =>
    cases st with
    | none => rfl
    | some k => exact if_neg fun hk => h (by rw [hk, hold])

theorem events_due_ne_nil (hc : d.candidate = some st) (hrun : d.run = 4) (h : st ≠ d.condition) : d.events ≠ [] := by
  rw [events_due hc hrun h]
  cases hold : d.condition with
  | some j => exact List.cons_ne_nil _ _
  | none =>
    cases st with
    | none => exact absurd hold.symm h
    | some k => exact List.cons_ne_nil _ _

end Debounce

namespace State

/-! ### The events handed over -/

section Handing

variable {s : State} {l : Fin 6} {i : Nat} {d : Debounce}

/-- An event of the circuit at a place of a line (R143). -/
def circuitEvent (s : State) (l : Fin 6) (i : Nat) (raises : Bool) (k : FaultKind) : CircuitEvent :=
  { circuit := s.ownStage * 576 + l.val * 96 + i + 1, kind := k, raises := raises }

theorem handEvents_none (h : d.events = []) : s.handEvents l i d = s.setDebounce l i d := by
  unfold handEvents; rw [h]; rfl

variable {es : List CircuitEvent} (hes : d.events.map (fun e => s.circuitEvent l i e.2 e.1) = es) (hne : d.events ≠ [])
include hes hne

/-- A follower's event queue that has room for all the events takes them (R143). -/
theorem handEvents_queued (hrole : s.isFollower = true) (hroom : s.cas.events.length + es.length ≤ 16) :
    s.handEvents l i d
      = { s.setDebounce l i d.handOver with cas := { s.cas with events := s.cas.events ++ es } } := by
  subst hes
  exact (if_neg (by simpa using hne)).trans ((if_pos hrole).trans (if_pos hroom))

/-- A circuit whose events find no room stays at its threshold (R143). -/
theorem handEvents_kept (hrole : s.isFollower = true) (hfull : 16 < s.cas.events.length + es.length) :
    s.handEvents l i d = s.setDebounce l i d := by
  subst hes
  exact (if_neg (by simpa using hne)).trans ((if_pos hrole).trans (if_neg (Nat.not_le.mpr hfull)))

/-- The leader's table takes the events at once (R143, R144). -/
theorem handEvents_tabled (hrole : s.isFollower = false) :
    s.handEvents l i d = es.foldl (fun t e => t.tableEvent 0 e) (s.setDebounce l i d.handOver) := by
  subst hes
  exact (if_neg (by simpa using hne)).trans (if_neg (by rw [hrole]; decide))

end Handing

/-- A status that the lamp check does not set aside is counted (R141, R142). -/
theorem takeStatus_counted {s : State} {l : Fin 6} {i : Nat} {st : CircuitStatus} {d : Debounce}
    (hd : (s.line l).debounce[i]? = some d)
    (h : ¬ (st = some .noLoad ∧ (s.line l).live.getD i 0 < s.outp.lamp * 65535 / 1000)) :
    s.takeStatus l i st = s.handEvents l i (d.count st) := by
  have held : (s.line l).debounce.getD i .reset = d := by rw [List.getD_eq_getElem?_getD, hd]; rfl
  rw [takeStatus, held]
  exact if_neg h

end State

/-! ### The obligation -/

/-- Settles O47: a status that is not set aside is counted, and the events of the count are handed over by the role and by
the room for them. -/
theorem statusesAreDebounced : Obligations.StatusesAreDebounced := by
  refine fun s l => ⟨fun _ => rfl, fun i st d hd => ?_⟩
  intro set run counted aside event events
  have count : d.count st = counted := d.count_eq st
  refine ⟨fun h => if_pos h, fun h hquiet => ?_, fun h hrun hst => ?_⟩
  · rw [State.takeStatus_counted hd h, count]
    exact State.handEvents_none (Debounce.events_none rfl hquiet)
  · have due : counted.events = _ := Debounce.events_due rfl hrun hst
    have hne : counted.events ≠ [] := Debounce.events_due_ne_nil rfl hrun hst
    have hes : counted.events.map (fun e => s.circuitEvent l i e.2 e.1) = events := by
      rw [due, List.map_append, List.map_map, List.map_map]; rfl
    rw [State.takeStatus_counted hd h, count]
    exact ⟨State.handEvents_queued hes hne, State.handEvents_kept hes hne, State.handEvents_tabled hes hne⟩

end Sys2Proof.Machine

/-! The rack monitor: what a bad or missing return makes of a line, and what the console is told of it (R139, R140). -/

namespace Sys2Proof.Machine

/-! ### A bad or missing return -/

namespace Line

variable {x : Line}

theorem badReturn_missed (x : Line) : x.badReturn.1 = x.missed := by
  unfold badReturn missed
  cases x.monitor with
  | locked =>
    rw [if_neg (by decide)]
    by_cases h : x.badRun + 1 < 5
    · rw [if_pos h]; exact congrArg Prod.fst (if_neg (Nat.not_le.mpr h))
    · rw [if_neg h]; exact congrArg Prod.fst (if_pos (Nat.not_lt.mp h))
  | off => rfl
  | seeking => rfl
  | lost => rfl

/-- The fifth bad or missing return in a row loses a LOCKED line (R139). -/
theorem badReturn_lost (hm : x.monitor = .locked) (h : 5 ≤ x.badRun + 1) : x.badReturn.2 = .lost := by
  unfold badReturn
  dsimp only
  rw [hm]
  exact congrArg Prod.snd (if_pos h)

theorem badReturn_quiet (h : x.monitor ≠ .locked ∨ x.badRun + 1 < 5) : x.badReturn.2 = .none := by
  unfold badReturn
  cases hm : x.monitor with
  | locked => exact congrArg Prod.snd (if_neg (Nat.not_le.mpr (h.resolve_left (not_not_intro hm))))
  | off => rfl
  | seeking => rfl
  | lost => rfl

/-- A missed return touches the monitor, its runs and the debounce, and no more of the line. -/
theorem missed_only (x : Line) : x.missed = { x with
    goodRun := 0, badRun := x.missed.badRun, monitor := x.missed.monitor, debounce := x.missed.debounce } := by
  unfold missed; split_ifs <;> rfl

/-- Whether the interval is open does not bear on what a missed return makes of the line. -/
theorem badReturn_closed (x : Line) :
    ({ x with interval := false } : Line).badReturn = ({ x.missed with interval := false }, x.badReturn.2) := by
  rw [← badReturn_missed]
  unfold badReturn
  cases x.monitor with
  | locked =>
    by_cases h : 5 ≤ x.badRun + 1
    · simp [h, restartDebounce]
    · simp [h]
  | off => rfl
  | seeking => rfl
  | lost => rfl

end Line

namespace State

/-! ### What the console is told -/

theorem setLine_setLine (s : State) (l : Fin 6) (x y : Line) : (s.setLine l x).setLine l y = s.setLine l y := by
  simp [setLine]

theorem setLine_line (s : State) (l : Fin 6) : s.setLine l (s.line l) = s := by
  simp [setLine, line]

/-- A rack report touches the report queue and its flag alone. -/
theorem rackReport_link_only (s : State) (stage line : Nat) (rack : Nat × Nat) (news : RackNews) :
    s.rackReport stage line rack news = { s with link := (s.rackReport stage line rack news).link } := by
  cases news with
  | none => rfl
  | found => exact report_link_only _ _ _ _
  | lost => exact report_link_only _ _ _ _
  | changed m n => exact report_link_only _ _ _ _

/-- What a rack report tells does not depend on the lines. -/
theorem rackReport_setLine_link (s : State) (l : Fin 6) (x : Line) (stage line : Nat) (rack : Nat × Nat)
    (news : RackNews) :
    ((s.setLine l x).rackReport stage line rack news).link = (s.rackReport stage line rack news).link := by
  cases news with
  | none => rfl
  | found => exact report_link_congr (t := s.setLine l x) (s := s) rfl rfl rfl _ _ _
  | lost => exact report_link_congr (t := s.setLine l x) (s := s) rfl rfl rfl _ _ _
  | changed m n => exact report_link_congr (t := s.setLine l x) (s := s) rfl rfl rfl _ _ _

theorem inside_rackReport (s : State) (stage line : Nat) (rack : Nat × Nat) (news : RackNews) :
    (s.rackReport stage line rack news).inside = s.inside := by
  cases news with
  | none => rfl
  | found => exact inside_report _ _ _ _
  | lost => exact inside_report _ _ _ _
  | changed m n => exact inside_report _ _ _ _

/-- The part after the rack report of a missed return on a line, its line as it was (R140). -/
def missTold (s : State) (l : Fin 6) : State :=
  s.rackReport 0 (l.val + 1) ((s.line l).rack.getD (0, 0)) (s.line l).badReturn.2

section Missing

variable {s : State} {l : Fin 6}

theorem missTold_lost (hm : (s.line l).monitor = .locked) (h : 5 ≤ (s.line l).badRun + 1) : s.missTold l
    = s.report 0xE7 true (b1 0 ++ b1 (l.val + 1) ++ b1 ((s.line l).rack.getD (0, 0)).1
        ++ b1 ((s.line l).rack.getD (0, 0)).2) := by
  rw [missTold, Line.badReturn_lost hm h]; rfl

theorem missTold_quiet (h : (s.line l).monitor ≠ .locked ∨ (s.line l).badRun + 1 < 5) : s.missTold l = s := by
  rw [missTold, Line.badReturn_quiet h]; rfl

/-- A bad or missing return closes the interval, moves the monitor, and tells the console of a line that it loses (R138 to
R140). -/
theorem countReturn_bad (s : State) (l : Fin 6) : (s.closeInterval l).countReturn l .bad
    = { s.setLine l { (s.line l).missed with interval := false } with link := (s.missTold l).link } := by
  have rack : (s.line l).missed.rack = (s.line l).rack := by rw [Line.missed_only]
  simp only [countReturn, setRack, closeInterval, line_setLine_same, Line.badReturn_closed, setLine_setLine, rack]
  rw [rackReport_link_only, rackReport_setLine_link]
  rfl

end Missing

/-- The report queue of a state that stands inside as s does, in place of one that is the queue of s. -/
theorem inside_relink {s t u : State} (hu : u.inside = s.inside) (ht : t.link = s.link) :
    ({ t with link := u.link } : State).inside = t.inside := by
  have link : { u.link with reports := [], lost := false } = { t.link with reports := [], lost := false } :=
    ht ▸ congrArg State.link hu
  simp only [inside, link]

end State

end Sys2Proof.Machine

/-! The expiry of a line clock: the missing return, the live frame and the level frame (R133 to R135, R139, R140). -/

namespace Sys2Proof.Machine

/-- A line after the first step of an expiry: an open interval counts as a missing return, and closes (R133). -/
def Line.expired (x : Line) : Line := if x.interval then { x.missed with interval := false } else x

/-- The first step of an expiry leaves the settings, the hold, the sequence and the frames of a line alone. -/
theorem Line.expired_only (x : Line) : x.expired = { x with
    goodRun := x.expired.goodRun, badRun := x.expired.badRun, monitor := x.expired.monitor, interval := x.expired.interval,
    debounce := x.expired.debounce } := by
  unfold expired
  split_ifs
  · rw [missed_only]
  · rfl

namespace State

/-! ### The levels of a live frame -/

theorem houseGroupOf_isSome (s : State) (k : Nat) :
    (s.houseGroupOf k).isSome = true ↔ ∃ g : Fin 4, k ∈ (s.patch.groups.get g).members := by
  simp [houseGroupOf, List.find?_isSome, mem_four]

/-- Whether the circuit with a number among the part's lines is a house circuit, by the leader's groups or by the list a
follower keeps (R134; log 28). -/
def IsHouse (s : State) (k : Nat) : Prop :=
  if s.isFollower then k ∈ s.cas.house else ∃ g : Fin 4, k ∈ (s.patch.groups.get g).members

theorem isHouse_iff (s : State) (k : Nat) :
    (if s.isFollower then s.cas.house.contains k else (s.houseGroupOf k).isSome) = true ↔ s.IsHouse k := by
  unfold IsHouse
  split_ifs
  · exact List.contains_iff_mem
  · exact s.houseGroupOf_isSome k

/-- The level of a circuit before the blend: a follower's from its next frame (R133, R134). -/
def rawLevel (s : State) (l : Fin 6) (i : Nat) : Nat :=
  if s.isFollower then (s.line l).next.getD i 0 else s.circuitLevel (l.val * 96 + i + 1)

section Levels

variable {s : State} {l : Fin 6} {i : Nat}

theorem outputLevel_house (h : s.IsHouse (l.val * 96 + i + 1)) : s.outputLevel l i = s.rawLevel l i :=
  if_pos ((s.isHouse_iff _).mpr h)

/-- A circuit that is no house circuit is blended with its safe level (R135). -/
theorem outputLevel_blended (h : ¬ s.IsHouse (l.val * 96 + i + 1)) : s.outputLevel l i
    = (s.rawLevel l i * (1000 - s.outp.blend)
        + ((Assoc.find s.outp.safeLook (l.val * 96 + i + 1)).getD 0 * 65535 / 1000) * s.outp.blend) / 1000 :=
  if_neg (mt (s.isHouse_iff _).mp h)

theorem liveFrame_getD (h : i < 96) : (s.liveFrame l).getD i 0 = s.outputLevel l i := by
  simp [liveFrame, h]

/-- The live frame is built from the next frame of its line, and from nothing else of the lines or of the reports. -/
theorem liveFrame_congr {x : Line} (h : x.next = (s.line l).next) (k : ConsoleLink) :
    ({ s.setLine l x with link := k } : State).liveFrame l = s.liveFrame l := by
  have next : ((s.setLine l x).line l).next = (s.line l).next := by rw [line_setLine_same, h]
  refine List.map_congr_left fun i _ => ?_
  show (s.setLine l x).outputLevel l i = s.outputLevel l i
  unfold outputLevel
  rw [next]
  rfl

end Levels

/-! ### The expiry -/

/-- The levels that an expiry sends: the live frame as it is held, or as it is built (R133). -/
def sentLevels (s : State) (l : Fin 6) : List Nat := if (s.line l).hold then (s.line l).live else s.liveFrame l

/-- A line after an expiry of its clock (R133). -/
def sentLine (s : State) (l : Fin 6) : Line :=
  { (if (s.line l).interval then (s.line l).missed else s.line l) with
    live := s.sentLevels l, seq := ((s.line l).seq + 1) % 256, interval := true }

/-- The level frame that an expiry sends (R133, R136). -/
def sentFrame (s : State) (l : Fin 6) : LevelFrame :=
  { seq := ((s.line l).seq + 1) % 256, held := (s.line l).hold,
    wide := ((s.line l).settings.map (fun n => n.wide)).getD false, levels := s.sentLevels l }

/-- The part after the report that an expiry calls for, its line as it was (R140). -/
def expiryTold (s : State) (l : Fin 6) : State := if (s.line l).interval then s.missTold l else s

section Expiry

variable {s : State} {l : Fin 6}

theorem missReturn_eq (s : State) (l : Fin 6) :
    s.missReturn l = { s.setLine l (s.line l).expired with link := (s.expiryTold l).link } := by
  unfold missReturn expiryTold Line.expired
  split_ifs
  · exact s.countReturn_bad l
  · rw [setLine_line]

/-- The last steps of an expiry (R133). -/
theorem sendLevels_eq (s : State) (l : Fin 6) : s.sendLevels l
    = (s.setLine l { s.line l with
        live := s.sentLevels l, seq := ((s.line l).seq + 1) % 256, interval := true }).emit (.level l (s.sentFrame l)) := by
  unfold sendLevels sentFrame
  dsimp only
  cases (s.line l).settings with
  | none => rfl
  | some n => rfl

/-- The last steps of an expiry, on a line that has been through the first. -/
theorem sendLevels_expired (s : State) (l : Fin 6) (k : ConsoleLink) :
    ({ s.setLine l (s.line l).expired with link := k } : State).sendLevels l
      = { (s.setLine l (s.sentLine l)).emit (.level l (s.sentFrame l)) with link := k } := by
  have line : ({ s.setLine l (s.line l).expired with link := k } : State).line l = (s.line l).expired :=
    line_setLine_same s l _
  have only := (s.line l).expired_only
  have hold : (s.line l).expired.hold = (s.line l).hold := by rw [only]
  have live : (s.line l).expired.live = (s.line l).live := by rw [only]
  have seq : (s.line l).expired.seq = (s.line l).seq := by rw [only]
  have settings : (s.line l).expired.settings = (s.line l).settings := by rw [only]
  have levels : ({ s.setLine l (s.line l).expired with link := k } : State).sentLevels l = s.sentLevels l := by
    rw [sentLevels, line, hold, live, liveFrame_congr (by rw [only])]; rfl
  have frame : ({ s.setLine l (s.line l).expired with link := k } : State).sentFrame l = s.sentFrame l := by
    rw [sentFrame, line, hold, seq, settings, levels]; rfl
  have sent : s.sentLine l = { (s.line l).expired with
      live := s.sentLevels l, seq := ((s.line l).seq + 1) % 256, interval := true } := by
    unfold sentLine Line.expired; split_ifs <;> rfl
  rw [sendLevels_eq, line, levels, frame, seq, sent]
  show ({ ((s.setLine l _).setLine l _).emit _ with link := k } : State) = _
  rw [setLine_setLine]

/-- An expiry of a running clock (R133). -/
theorem lineExpiry_eq (h : (s.line l).clock ≠ none) : s.lineExpiry l
    = ({ (s.setLine l (s.sentLine l)).emit (.level l (s.sentFrame l)) with link := (s.expiryTold l).link } : State).pump := by
  have running : ¬ (s.line l).clock.isNone := by rwa [Option.isNone_iff_eq_none]
  rw [← sendLevels_expired, ← missReturn_eq]
  exact if_neg running

/-- No line that is lost, no report. -/
theorem expiryTold_quiet
    (h : ¬ ((s.line l).interval = true ∧ (s.line l).monitor = .locked ∧ 5 ≤ (s.line l).badRun + 1)) :
    s.expiryTold l = s := by
  unfold expiryTold
  split_ifs with hopen
  · exact missTold_quiet (by by_contra hlost; push Not at hlost; exact h ⟨hopen, hlost⟩)
  · rfl

theorem inside_expiryTold (s : State) (l : Fin 6) : (s.expiryTold l).inside = s.inside := by
  unfold expiryTold
  split_ifs
  · exact inside_rackReport _ _ _ _ _
  · rfl

theorem sentLevels_held (h : (s.line l).hold = true) : s.sentLevels l = (s.line l).live := if_pos h

theorem sentLevels_free (h : (s.line l).hold = false) : s.sentLevels l = s.liveFrame l := if_neg (by rw [h]; decide)

theorem sentLevels_length (s : State) (l : Fin 6) :
    (s.sentLevels l).length = if (s.line l).hold then (s.line l).live.length else 96 := by
  unfold sentLevels
  split_ifs
  · rfl
  · simp [liveFrame]

end Expiry

end State

/-! ### The obligation -/

/-- Settles O45: the state after an expiry as one equation (`State.lineExpiry_eq`), its levels circuit by circuit, and its
report by the runs of the monitor. -/
theorem lineExpirySendsALevelFrame : Obligations.LineExpirySendsALevelFrame := by
  refine fun s => ⟨fun n hn => ?_, fun l => ?_⟩
  · show execLineClockExpiry n s = _
    unfold execLineClockExpiry
    rw [line?_none (by omega)]
  intro x house lost
  have expiry : exec (.lineClockExpiry (l.val + 1)) s = .next (s.lineExpiry l) := by
    show execLineClockExpiry (l.val + 1) s = _
    unfold execLineClockExpiry
    rw [State.line?_succ]
  refine ⟨fun hclock => ?_, fun hclock => ?_⟩
  · have stopped : s.lineExpiry l = s := if_pos (by rw [Option.isNone_iff_eq_none]; exact hclock)
    rw [expiry, stopped]
  rw [State.lineExpiry_eq hclock] at expiry
  refine ⟨_, expiry, ?_⟩
  generalize ht : State.pump _ = t
  have outp : t.outp = (s.setLine l (s.sentLine l)).outp := by rw [← ht, State.pump_outp]; rfl
  have line (l' : Fin 6) : t.line l' = (s.setLine l (s.sentLine l)).line l' := by rw [State.line, outp]; rfl
  have sent : t.line l = s.sentLine l := (line l).trans (State.line_setLine_same s l _)
  have live : (t.line l).live = s.sentLevels l := by rw [sent]; rfl
  have wire : t.wire = s.wire ++ [.level l (s.sentFrame l)] := by rw [← ht, State.pump_wire]; rfl
  have told : (s.expiryTold l).KeepsReports t := by
    rw [← ht]; exact State.keepsReports_pump _ _ rfl rfl
  refine ⟨?_, fun hhold => ?_, fun i hhold hi => ?_, ?_, fun l' hl => ?_, ?_, fun p => ?_, ?_, fun hlost => ?_,
    fun hlost => ?_⟩
  · rw [live]; exact s.sentLevels_length l
  · rw [live]; exact State.sentLevels_held hhold
  · rw [live, State.sentLevels_free hhold, State.liveFrame_getD hi]
    exact ⟨State.outputLevel_house, State.outputLevel_blended⟩
  · rw [live]; exact sent
  · exact (line l').trans (State.line_setLine_other s l l' _ hl)
  · rw [live]; exact wire
  · rw [← ht, State.pump_outgoing]
    cases p <;> rfl
  · rw [← ht, State.inside_pump, State.pump_outp, State.pump_wire]
    exact State.inside_relink (t := (s.setLine l (s.sentLine l)).emit _) (State.inside_expiryTold s l) rfl
  · rwa [State.expiryTold_quiet hlost] at told
  · obtain ⟨hopen, hlocked, hfifth⟩ := hlost
    rwa [State.expiryTold, if_pos hopen, State.missTold_lost hlocked hfifth] at told

end Sys2Proof.Machine

/-! The bytes of a return frame, as the part classes them (Table 8-2, R138). -/

namespace Sys2Proof.Machine

/-- A byte is the number it stands for. -/
theorem byte_toNat (x : Byte) : byte x.toNat = x := BitVec.ofNat_toNat 8 x |>.trans (BitVec.setWidth_eq x)

theorem circuitStatus?_code (st : CircuitStatus) : circuitStatus? (conditionCode st) = some st := by
  cases st with
  | none => rfl
  | some k => cases k <;> rfl

/-- A byte that reads as a status is the code of it. -/
theorem code_of_circuitStatus? {n : Nat} {st : CircuitStatus} (h : circuitStatus? n = some st) : n = conditionCode st := by
  rcases n with _ | _ | _ | _ | _ | n <;> cases h <;> rfl

/-- The status bytes of a return frame. -/
def statusBytes (statuses : List CircuitStatus) : List Byte := statuses.flatMap (fun st => b1 (conditionCode st))

theorem statusBytes_length (statuses : List CircuitStatus) : (statusBytes statuses).length = statuses.length := by
  rw [statusBytes, flatMap_length _ (k := 1) (fun _ => rfl), Nat.mul_one]

theorem circuitStatuses?_bytes (statuses : List CircuitStatus) :
    circuitStatuses? (statusBytes statuses) = some statuses := by
  induction statuses with
  | nil => rfl
  | cons st rest ih =>
    have code : (byte (conditionCode st)).toNat = conditionCode st := by
      rw [toNat_byte]
      cases st with
      | none => rfl
      | some k => cases k <;> rfl
    show circuitStatuses? (byte (conditionCode st) :: statusBytes rest) = _
    unfold circuitStatuses?
    rw [code, circuitStatus?_code, ih]

/-- Bytes that read as statuses are their codes. -/
theorem bytes_of_circuitStatuses? {b : List Byte} {statuses : List CircuitStatus}
    (h : circuitStatuses? b = some statuses) : b = statusBytes statuses := by
  induction b generalizing statuses with
  | nil => cases h; rfl
  | cons x rest ih =>
    unfold circuitStatuses? at h
    split at h
    · rename_i st more hx hmore
      cases h
      have code : x = byte (conditionCode st) := by rw [← code_of_circuitStatus? hx, byte_toNat]
      rw [code, ih hmore]
      rfl
    · cases h

/-- A return frame byte by byte: the sync byte, the echo, the model, the count, the statuses and the check value. -/
theorem returnBytes_eq (seq : Nat) (model : Byte) (statuses : List CircuitStatus) : returnBytes seq model statuses
    = 0xA5 :: byte seq :: model :: byte statuses.length :: (statusBytes statuses
        ++ crcBytes (byte seq :: model :: byte statuses.length :: statusBytes statuses)) := rfl

theorem crcBytes_length (b : List Byte) : (crcBytes b).length = 2 := rfl

section Classing

variable {seq : Nat}

/-- A return frame that echoes the sequence of the frame sent last, on a clean line, is good (R138). -/
theorem classReturn_returnBytes (hseq : seq ≤ 255) (model : Byte) {statuses : List CircuitStatus}
    (h1 : 1 ≤ statuses.length) (h96 : statuses.length ≤ 96) :
    classReturn seq true (returnBytes seq model statuses) = .good model.toNat statuses.length statuses := by
  have hcount : byteAt (returnBytes seq model statuses) 3 = statuses.length := by
    simp only [returnBytes_eq, byteAt_cons_succ]
    exact byteAt_byte (by omega) _
  have hecho : byteAt (returnBytes seq model statuses) 1 = seq := by
    simp only [returnBytes_eq, byteAt_cons_succ]
    exact byteAt_byte hseq _
  have hcodes : ((returnBytes seq model statuses).drop 4).take statuses.length = statusBytes statuses := by
    rw [returnBytes_eq]
    exact List.take_left' (statusBytes_length statuses)
  have hlength : (returnBytes seq model statuses).length = 4 + statuses.length + 2 := by
    rw [returnBytes_eq]
    simp only [List.length_cons, List.length_append, statusBytes_length, crcBytes_length]
    omega
  have hcheck : (returnBytes seq model statuses).drop (4 + statuses.length)
      = crcBytes (((returnBytes seq model statuses).drop 1).take (3 + statuses.length)) := by
    have content : ((returnBytes seq model statuses).drop 1).take (3 + statuses.length)
        = byte seq :: model :: byte statuses.length :: statusBytes statuses :=
      List.take_left' (l₁ := byte seq :: model :: byte statuses.length :: statusBytes statuses)
        (by simp only [List.length_cons, statusBytes_length]; omega)
    rw [content, ← List.drop_drop, returnBytes_eq]
    exact List.drop_left' (statusBytes_length statuses)
  unfold classReturn
  dsimp only
  rw [hcount, if_pos ⟨rfl, rfl, h1, h96, hlength, hcheck, hecho⟩, hcodes, circuitStatuses?_bytes]
  rfl

/-- Four bytes, a run of statuses and their check value are a return frame. -/
theorem eq_returnBytes {x0 x1 x2 x3 : Byte} {rest : List Byte} {statuses : List CircuitStatus} (hsync : x0.toNat = 0xA5)
    (hecho : x1.toNat = seq) (hcount : x3.toNat = statuses.length) (hcodes : rest.take x3.toNat = statusBytes statuses)
    (hcheck : rest.drop x3.toNat = crcBytes (x1 :: x2 :: x3 :: rest.take x3.toNat)) :
    x0 :: x1 :: x2 :: x3 :: rest = returnBytes seq x2 statuses := by
  have sync : x0 = 0xA5 := by rw [← byte_toNat x0, hsync]; rfl
  rw [returnBytes_eq, ← hecho, ← hcount, byte_toNat, byte_toNat, ← hcodes, ← hcheck, List.take_append_drop, sync]

/-- A return that is not bad is a return frame that echoes the sequence of the frame sent last, on a clean line (R138). -/
theorem classReturn_bad {clean : Bool} {b : List Byte}
    (h : ∀ model statuses, ¬ (clean = true ∧ 1 ≤ statuses.length ∧ statuses.length ≤ 96
      ∧ b = returnBytes seq model statuses)) : classReturn seq clean b = .bad := by
  unfold classReturn
  dsimp only
  split_ifs with hframe
  · obtain ⟨hclean, hsync, h1, h96, hlength, hcheck, hecho⟩ := hframe
    split
    · rename_i statuses hcodes
      match b, hsync, h1, h96, hlength, hcheck, hecho, hcodes, h with
      | x0 :: x1 :: x2 :: x3 :: rest, hsync, h1, h96, hlength, hcheck, hecho, hcodes, h =>
        have count : byteAt (x0 :: x1 :: x2 :: x3 :: rest) 3 = x3.toNat := rfl
        rw [count] at h1 h96 hlength hcodes
        rw [count, Nat.add_comm 4, Nat.add_comm 3] at hcheck
        have codes : rest.take x3.toNat = statusBytes statuses := bytes_of_circuitStatuses? hcodes
        have length : x3.toNat = statuses.length := by
          rw [← statusBytes_length, ← codes, List.length_take]
          simp only [List.length_cons] at hlength
          omega
        exact absurd ⟨hclean, by omega, by omega, eq_returnBytes hsync hecho length codes hcheck⟩ (h x2 statuses)
    · rfl
  · rfl

end Classing

end Sys2Proof.Machine

/-! The return frames: which of them are taken, and how the rack monitor moves by them (R138 to R140). -/

namespace Sys2Proof.Machine

/-! ### A good return on the monitor -/

/-- The run of good returns after one more, with a model and count (R139). -/
def Line.goodRunWith (x : Line) (rack : Nat × Nat) : Nat :=
  if x.goodRun = 0 ∨ x.rack = some rack then x.goodRun + 1 else 1

/-- A line that becomes LOCKED (R139). -/
def Line.locks (x : Line) (rack : Nat × Nat) : Line :=
  { x with
    goodRun := x.goodRunWith rack, rack := some rack, monitor := .locked, interval := false, badRun := 0,
    debounce := x.debounce.map (fun d : Debounce => { d with candidate := none, run := 0 }) }

theorem Monitor.ne_locked_of {m : Monitor} (h : m = .off ∨ m = .seeking ∨ m = .lost) : m ≠ .locked := by
  rcases h with rfl | rfl | rfl <;> decide

namespace Line

variable {x : Line} {rack : Nat × Nat}

theorem goodReturn_off (hm : x.monitor = .off) (model count : Nat) :
    ({ x with interval := false } : Line).goodReturn model count = ({ x with interval := false, badRun := 0 }, .none) := by
  unfold goodReturn; simp only [hm]

theorem goodReturn_counts (hm : x.monitor = .seeking ∨ x.monitor = .lost) (h : x.goodRunWith rack < 8) :
    ({ x with interval := false } : Line).goodReturn rack.1 rack.2
      = ({ x with goodRun := x.goodRunWith rack, rack := some rack, interval := false, badRun := 0 }, .none) := by
  have short : ¬ 8 ≤ x.goodRunWith rack := Nat.not_le.mpr h
  rcases hm with hm | hm <;> unfold goodReturn <;> simp only [hm] <;> exact if_neg short

/-- The eighth good return in a row with one model and count locks the line (R139). -/
theorem goodReturn_locks (hm : x.monitor = .seeking ∨ x.monitor = .lost) (h : 8 ≤ x.goodRunWith rack) :
    ({ x with interval := false } : Line).goodReturn rack.1 rack.2 = (x.locks rack, .found) := by
  rcases hm with hm | hm <;> unfold goodReturn <;> simp only [hm] <;> exact if_pos h

theorem goodReturn_same (hm : x.monitor = .locked) (h : x.rack = some rack) :
    ({ x with interval := false } : Line).goodReturn rack.1 rack.2
      = ({ x with interval := false, badRun := 0 }, .none) := by
  unfold goodReturn; simp only [hm]; exact if_pos h

/-- Another model or count on a LOCKED line is taken at once (R139). -/
theorem goodReturn_changed (hm : x.monitor = .locked) (h : x.rack ≠ some rack) :
    ({ x with interval := false } : Line).goodReturn rack.1 rack.2
      = ({ x with
          rack := some rack, interval := false, badRun := 0,
          debounce := x.debounce.map (fun d : Debounce => { d with candidate := none, run := 0 }) },
        .changed (x.rack.getD (0, 0)).1 (x.rack.getD (0, 0)).2) := by
  unfold goodReturn; simp only [hm]; exact if_neg h

end Line

namespace State

/-! ### A good return on the part -/

section Counting

variable {s : State} {l : Fin 6} {z : Line} {news : RackNews} {model count : Nat} {statuses : List CircuitStatus}

/-- A return frame in an open interval (R138). -/
theorem takeReturn_open (h : (s.line l).interval = true) (clean : Bool) (b : List Byte) :
    s.takeReturn l clean b = ((s.closeInterval l).countReturn l (classReturn (s.line l).seq clean b)).pump := if_pos h

theorem setRack_closed (z : Line) (news : RackNews) : (s.closeInterval l).setRack l (z, news)
    = (s.setLine l z).rackReport 0 (l.val + 1) (z.rack.getD (0, 0)) news := by
  rw [setRack, closeInterval, setLine_setLine]

theorem line_rackReport (s : State) (stage line : Nat) (rack : Nat × Nat) (news : RackNews) (l : Fin 6) :
    (s.rackReport stage line rack news).line l = s.line l := by rw [State.line, rackReport_outp]; rfl

theorem rackReport_changed (s : State) (stage line : Nat) (rack : Nat × Nat) (m n : Nat) :
    s.rackReport stage line rack (.changed m n)
      = s.report 0xE8 false (b1 stage ++ b1 line ++ b1 rack.1 ++ b1 rack.2 ++ b1 m ++ b1 n) := rfl

section Good

variable (h : ({ s.line l with interval := false } : Line).goodReturn model count = (z, news))
include h

/-- A good return counted on a line, with what it leaves of the line and tells of it (R139, R140). -/
theorem countReturn_good : (s.closeInterval l).countReturn l (.good model count statuses)
    = if z.monitor = .locked
      then ((s.setLine l z).rackReport 0 (l.val + 1) (z.rack.getD (0, 0)) news).takeStatuses l statuses
      else (s.setLine l z).rackReport 0 (l.val + 1) (z.rack.getD (0, 0)) news := by
  have line : (s.closeInterval l).line l = { s.line l with interval := false } := line_setLine_same s l _
  simp only [countReturn, line, h, setRack_closed, line_rackReport, line_setLine_same]

/-- The statuses of a good return are taken on a line that is LOCKED after it (R139, R141). -/
theorem countReturn_locked (hz : z.monitor = .locked) : (s.closeInterval l).countReturn l (.good model count statuses)
    = ((s.setLine l z).rackReport 0 (l.val + 1) (z.rack.getD (0, 0)) news).takeStatuses l statuses := by
  rw [countReturn_good h, if_pos hz]

theorem countReturn_unlocked (hz : z.monitor ≠ .locked) : (s.closeInterval l).countReturn l (.good model count statuses)
    = (s.setLine l z).rackReport 0 (l.val + 1) (z.rack.getD (0, 0)) news := by
  rw [countReturn_good h, if_neg hz]

end Good

end Counting

end State

/-! ### The obligation -/

/-- Settles O46: what a return is classed as (`classReturn_returnBytes`, `classReturn_bad`), and the move of the monitor by
its state and its runs. -/
theorem returnsMoveTheMonitor : Obligations.ReturnsMoveTheMonitor := by
  refine fun s => ⟨fun n clean bytes hn => ?_, fun l clean bytes => ?_⟩
  · show execReturnFrame n clean bytes s = _
    unfold execReturnFrame
    rw [line?_none (by omega)]
  intro x good
  have frame : exec (.returnFrame (l.val + 1) clean bytes) s = .next (s.takeReturn l clean bytes) := by
    show execReturnFrame (l.val + 1) clean bytes s = _
    unfold execReturnFrame
    rw [State.line?_succ]
  refine ⟨fun hshut => ?_, fun hopen hseq hbad => ?_, fun model statuses hopen hseq hgood => ?_⟩
  · have discarded : s.takeReturn l clean bytes = s := if_neg (by rw [show (s.line l).interval = false from hshut]; decide)
    rw [frame, discarded]
  · rw [State.takeReturn_open hopen, classReturn_bad hbad, State.countReturn_bad] at frame
    refine ⟨_, frame, ?_⟩
    generalize ht : State.pump _ = t
    have outp : t.outp = (s.setLine l { x.missed with interval := false }).outp := by rw [← ht, State.pump_outp]
    have line (l' : Fin 6) : t.line l' = (s.setLine l { x.missed with interval := false }).line l' := by
      rw [State.line, outp]; rfl
    have told : (s.missTold l).KeepsReports t := by
      rw [← ht]; exact State.keepsReports_pump _ _ rfl rfl
    refine ⟨(line l).trans (State.line_setLine_same s l _), fun l' hl => (line l').trans (State.line_setLine_other s l l' _ hl),
      ?_, fun hlocked hfifth => ?_, fun hquiet => ?_⟩
    · rw [← ht, State.inside_pump, State.pump_outp]
      exact State.inside_relink (t := s.setLine l _) (State.inside_rackReport _ _ _ _ _) rfl
    · rwa [State.missTold_lost hlocked hfifth] at told
    · rwa [State.missTold_quiet hquiet] at told
  · obtain ⟨hclean, h1, h96, rfl⟩ := hgood
    intro rack run taken fresh
    have classed : exec (.returnFrame (l.val + 1) clean (returnBytes x.seq model statuses)) s
        = .next ((s.closeInterval l).countReturn l (.good rack.1 rack.2 statuses)).pump := by
      rw [frame, State.takeReturn_open hopen, hclean, classReturn_returnBytes hseq model h1 h96]
    have unlocked {z : Line} {news : RackNews} (h : ({ x with interval := false } : Line).goodReturn rack.1 rack.2 = (z, news))
        (hz : z.monitor ≠ .locked) : exec (.returnFrame (l.val + 1) clean (returnBytes x.seq model statuses)) s
          = .next ((s.setLine l z).rackReport 0 (l.val + 1) (z.rack.getD (0, 0)) news).pump := by
      rw [classed, State.countReturn_unlocked h hz]
    have locked {z : Line} {news : RackNews} (h : ({ x with interval := false } : Line).goodReturn rack.1 rack.2 = (z, news))
        (hz : z.monitor = .locked) : exec (.returnFrame (l.val + 1) clean (returnBytes x.seq model statuses)) s
          = .next (((s.setLine l z).rackReport 0 (l.val + 1) (z.rack.getD (0, 0)) news).takeStatuses l statuses).pump := by
      rw [classed, State.countReturn_locked h hz]
    refine ⟨fun hm => ?_, fun hm hrun => ?_, fun hm hrun => ?_, fun hm hrack => ?_, fun hm hrack => ?_⟩
    · exact unlocked (Line.goodReturn_off hm _ _) (Monitor.ne_locked_of (.inl hm))
    · exact unlocked (Line.goodReturn_counts hm hrun) (Monitor.ne_locked_of (.inr hm))
    · exact locked (Line.goodReturn_locks hm hrun) rfl
    · exact locked (Line.goodReturn_same hm hrack) hm
    · have changed := locked (Line.goodReturn_changed hm hrack) hm
      rw [State.rackReport_changed] at changed
      exact changed

end Sys2Proof.Machine

/-! The watch of the hop counts on a follower: its stage, and what it does when that changes (R132, R148, R150). -/

namespace Sys2Proof.Machine

/-! ### New settings of a line -/

namespace Line

variable {x : Line} {n : LineSettings}

theorem isEnabled_eq (x : Line) : x.isEnabled = (x.settings.map (fun o => o.enabled)).getD false := by
  unfold isEnabled; cases x.settings <;> rfl

theorem take_enables (hw : x.isEnabled = false) (hn : n.enabled = true) : x.take n = x.enable n := if_pos ⟨hw, hn⟩

theorem take_disables (hw : x.isEnabled = true) (hn : n.enabled = false) : x.take n = x.disable n :=
  (if_neg fun h => absurd (hw.symm.trans h.1) (by decide)).trans (if_pos ⟨hw, hn⟩)

theorem take_renews (hw : x.isEnabled = true) (hn : n.enabled = true) :
    x.take n = { x with settings := some n, clock := some (linePeriod n) } :=
  (if_neg fun h => absurd (hw.symm.trans h.1) (by decide)).trans
    ((if_neg fun h => absurd (hn.symm.trans h.2) (by decide)).trans (if_pos hw))

theorem take_stores (hw : x.isEnabled = false) (hn : n.enabled = false) : x.take n = { x with settings := some n } :=
  (if_neg fun h => absurd (hn.symm.trans h.2) (by decide)).trans
    ((if_neg fun h => absurd (hw.symm.trans h.1) (by decide)).trans (if_neg (by rw [hw]; decide)))

/-- New settings leave the hold, the sequence and the frames of a line alone (R132). -/
theorem take_keeps (x : Line) (n : LineSettings) :
    (x.take n).hold = x.hold ∧ (x.take n).live = x.live ∧ (x.take n).seq = x.seq ∧ (x.take n).next = x.next := by
  unfold take
  split_ifs <;> exact ⟨rfl, rfl, rfl, rfl⟩

theorem shut_disabled (h : ∀ n, x.settings = some n → n.enabled = false) : x.shut = x := by
  unfold shut
  split
  · rename_i n hn
    exact if_neg (by rw [h n hn]; decide)
  · rfl

theorem shut_enabled (h : x.settings = some n) (hn : n.enabled = true) : x.shut = x.disable { n with enabled := false } := by
  unfold shut; rw [h]; exact if_pos hn

end Line

namespace State

/-! ### The role that a stage gives -/

section Roles

variable {s : State} {stage : Nat}

theorem roleOfStage_near (h : stage < 4) : s.roleOfStage stage = { s with cas := { s.cas with role := .follower } } :=
  if_neg (Nat.not_le.mpr h)

theorem roleOfStage_orphan (h : 4 ≤ stage) (hr : s.cas.role = .orphan) : s.roleOfStage stage = s :=
  (if_pos h).trans (if_pos hr)

theorem roleOfStage_enters (h : 4 ≤ stage) (hr : s.cas.role ≠ .orphan) : s.roleOfStage stage = s.enterOrphan :=
  (if_pos h).trans (if_neg hr)

/-- A follower's stage gives it its role, and touches the Cascade Unit and the lines alone (R148, R150). -/
theorem roleOfStage_role (s : State) (stage : Nat) : s.roleOfStage stage
      = { s with cas := (s.roleOfStage stage).cas, outp := (s.roleOfStage stage).outp }
    ∧ (s.roleOfStage stage).cas = { s.cas with
        role := if stage < 4 then .follower else .orphan, events := (s.roleOfStage stage).cas.events,
        genHeld := (s.roleOfStage stage).cas.genHeld } := by
  rcases Nat.lt_or_ge stage 4 with h | h
  · rw [roleOfStage_near h, if_pos h]; exact ⟨rfl, rfl⟩
  · rw [if_neg (Nat.not_lt.mpr h)]
    by_cases hr : s.cas.role = .orphan
    · rw [roleOfStage_orphan h hr, ← hr]; exact ⟨rfl, rfl⟩
    · rw [roleOfStage_enters h hr]; exact ⟨rfl, rfl⟩

/-- A part that is not made an ORPHAN keeps its lines, its events and the setup generation it holds. -/
theorem roleOfStage_stays (h : stage < 4 ∨ s.cas.role = .orphan) : (s.roleOfStage stage).outp = s.outp
    ∧ (s.roleOfStage stage).cas.events = s.cas.events ∧ (s.roleOfStage stage).cas.genHeld = s.cas.genHeld := by
  rcases Nat.lt_or_ge stage 4 with hs | hs
  · rw [roleOfStage_near hs]; exact ⟨rfl, rfl, rfl⟩
  · rw [roleOfStage_orphan hs (h.resolve_left (Nat.not_lt.mpr hs))]; exact ⟨rfl, rfl, rfl⟩

/-- A part that holds no setup generation holds none after it (R150). -/
theorem roleOfStage_genHeld (h : s.cas.genHeld = 0) (stage : Nat) : (s.roleOfStage stage).cas.genHeld = 0 := by
  rcases Nat.lt_or_ge stage 4 with hs | hs
  · rw [roleOfStage_near hs]; exact h
  · by_cases hr : s.cas.role = .orphan
    · rw [roleOfStage_orphan hs hr]; exact h
    · rw [roleOfStage_enters hs hr]; rfl

end Roles

/-! ### The watch -/

/-- How often in a row a hop count other than that of the stage has been seen, with this one (R150). -/
def hopRun (s : State) (hop : Nat) : Nat := if s.cas.cand = some hop then s.cas.candRun + 1 else 1

/-- A follower at a stage, before its stage gives it its role: its first stage, or another (R150). -/
def atStage (s : State) (stage : Nat) : State :=
  { s with cas := match s.cas.stage with
    | none => { s.cas with stage := some stage }
    | some _ => { s.cas with stage := some stage, cand := none, candRun := 0, genHeld := 0, lastSeq := none } }

section Watching

variable {s : State} {hop : Nat}

theorem watchHop_same (h : s.cas.stage = some (hop + 1)) :
    s.watchHop hop = { s with cas := { s.cas with cand := none, candRun := 0 } } := by
  unfold watchHop; rw [h]; exact if_pos rfl

/-- A hop count that is not that of the stage is counted (R150). -/
theorem watchHop_counts (h : s.cas.stage ≠ none) (hne : s.cas.stage ≠ some (hop + 1)) (hrun : s.hopRun hop < 3) :
    s.watchHop hop = { s with cas := { s.cas with cand := some hop, candRun := s.hopRun hop } } := by
  obtain ⟨stage, hs⟩ := Option.ne_none_iff_exists'.mp h
  have other : ¬ hop + 1 = stage := fun he => hne (by rw [hs, he])
  unfold watchHop; rw [hs]
  exact (if_neg other).trans (if_neg (Nat.not_le.mpr hrun))

/-- The first hop count gives the stage, and the third other in a row changes it (R150). -/
theorem watchHop_moves (h : s.cas.stage = none ∨ (s.cas.stage ≠ some (hop + 1) ∧ 3 ≤ s.hopRun hop)) :
    s.watchHop hop = (s.atStage (hop + 1)).roleOfStage (hop + 1) := by
  unfold watchHop atStage
  cases hs : s.cas.stage with
  | none => rfl
  | some stage =>
    obtain ⟨hne, hrun⟩ := h.resolve_left (by rw [hs]; exact Option.some_ne_none stage)
    have other : ¬ hop + 1 = stage := fun he => hne (by rw [hs, he])
    exact (if_neg other).trans (if_pos hrun)

theorem atStage_cas (s : State) (stage : Nat) : (s.atStage stage).cas = { s.cas with
    stage := some stage, cand := (s.atStage stage).cas.cand, candRun := (s.atStage stage).cas.candRun,
    genHeld := (s.atStage stage).cas.genHeld, lastSeq := (s.atStage stage).cas.lastSeq } := by
  unfold atStage
  cases s.cas.stage <;> rfl

theorem atStage_changed {stage : Nat} (h : s.cas.stage ≠ none) : (s.atStage stage).cas.cand = none
    ∧ (s.atStage stage).cas.candRun = 0 ∧ (s.atStage stage).cas.genHeld = 0 ∧ (s.atStage stage).cas.lastSeq = none := by
  obtain ⟨old, hs⟩ := Option.ne_none_iff_exists'.mp h
  unfold atStage; rw [hs]; exact ⟨rfl, rfl, rfl, rfl⟩

/-- The three outcomes of the watch (R150). -/
theorem watchHop_cases (s : State) (hop : Nat) :
    s.cas.stage = some (hop + 1)
      ∨ (s.cas.stage ≠ none ∧ s.cas.stage ≠ some (hop + 1) ∧ s.hopRun hop < 3)
      ∨ (s.cas.stage = none ∨ (s.cas.stage ≠ some (hop + 1) ∧ 3 ≤ s.hopRun hop)) := by
  have run := Nat.lt_or_ge (s.hopRun hop) 3
  tauto

/-- The watch touches the Cascade Unit and the lines alone, and not the leader-lost state (R150). -/
theorem watchHop_only (s : State) (hop : Nat) :
    s.watchHop hop = { s with cas := (s.watchHop hop).cas, outp := (s.watchHop hop).outp }
      ∧ (s.watchHop hop).cas.leaderLost = s.cas.leaderLost := by
  rcases s.watchHop_cases hop with h | ⟨h, hne, hrun⟩ | h
  · rw [watchHop_same h]; exact ⟨rfl, rfl⟩
  · rw [watchHop_counts h hne hrun]; exact ⟨rfl, rfl⟩
  · obtain ⟨only, cas⟩ := (s.atStage (hop + 1)).roleOfStage_role (hop + 1)
    rw [watchHop_moves h]
    refine ⟨only.trans rfl, ?_⟩
    rw [cas, atStage_cas]

/-! ### The move to a stage -/

variable (h : s.cas.stage = none ∨ (s.cas.stage ≠ some (hop + 1) ∧ 3 ≤ s.hopRun hop))
include h

theorem watchHop_stage : (s.watchHop hop).cas.stage = some (hop + 1) := by
  rw [watchHop_moves h, (roleOfStage_role _ _).2, atStage_cas]

/-- A stage of 4 or more makes the part ORPHAN (R150). -/
theorem watchHop_role : (s.watchHop hop).cas.role = if hop + 1 < 4 then .follower else .orphan := by
  rw [watchHop_moves h, (roleOfStage_role _ _).2]

/-- An ID change forgets what was counted and held for the old stage (R150). -/
theorem watchHop_changed (hs : s.cas.stage ≠ none) : (s.watchHop hop).cas.cand = none
    ∧ (s.watchHop hop).cas.candRun = 0 ∧ (s.watchHop hop).cas.genHeld = 0 ∧ (s.watchHop hop).cas.lastSeq = none := by
  obtain ⟨hcand, hrun, hheld, hlast⟩ := atStage_changed (stage := hop + 1) hs
  have cas := ((s.atStage (hop + 1)).roleOfStage_role (hop + 1)).2
  rw [watchHop_moves h]
  exact ⟨by rw [cas, hcand], by rw [cas, hrun], roleOfStage_genHeld hheld _, by rw [cas, hlast]⟩

/-- A part that does not become an ORPHAN keeps its lines and its events (R150). -/
theorem watchHop_stays (hstays : hop + 1 < 4 ∨ s.cas.role = .orphan) :
    (s.watchHop hop).outp = s.outp ∧ (s.watchHop hop).cas.events = s.cas.events := by
  have role : (s.atStage (hop + 1)).cas.role = s.cas.role := by rw [atStage_cas]
  obtain ⟨houtp, hevents, -⟩ := roleOfStage_stays (hstays.imp_right role.trans)
  rw [watchHop_moves h, houtp, hevents, atStage_cas]
  exact ⟨rfl, rfl⟩

theorem watchHop_orphans (hfar : 4 ≤ hop + 1) (hfollower : s.cas.role = .follower) :
    s.watchHop hop = (s.atStage (hop + 1)).enterOrphan := by
  rw [watchHop_moves h, roleOfStage_enters hfar (by rw [atStage_cas, hfollower]; decide)]

end Watching

end State

end Sys2Proof.Machine

/-! The stage and setup frames on a follower, and on a part whose role is undecided (R148, R149, R153 to R155). -/

namespace Sys2Proof.Machine

/-- Six like things, each changed by its place and itself. -/
def Six.mapWith {α β : Type} (f : Fin 6 → α → β) (x : Six α) : Six β :=
  ⟨f 0 x.x0, f 1 x.x1, f 2 x.x2, f 3 x.x3, f 4 x.x4, f 5 x.x5⟩

theorem Six.get_mapWith {α β : Type} (f : Fin 6 → α → β) (x : Six α) (i : Fin 6) : (x.mapWith f).get i = f i (x.get i) := by
  fin_cases i <;> rfl

theorem isFollowerStage_iff (n : Nat) : isFollowerStage n = true ↔ 1 ≤ n ∧ n ≤ 3 := by
  simp [isFollowerStage]

namespace State

/-! ### A part that is not the leader -/

theorem not_leader_of_follower {s : State} (h : s.isFollower = true) : s.isLeader = false := by
  cases hl : s.isLeader with
  | false => rfl
  | true => exact absurd ((isFollower_of_leader hl).symm.trans h) (by decide)

theorem dinByte_decided {s : State} (h : s.cas.role ≠ .undecided) : s.dinByte = s := if_neg h

theorem dinByte_follower {s : State} (h : s.isFollower = true) : s.dinByte = s :=
  dinByte_decided fun hr => by simp [isFollower, hr] at h

section Undecided

variable {s : State} (h : s.cas.role = .undecided)
include h

/-- A byte on CAS_DIN makes an undecided part a follower (R148). -/
theorem dinByte_undecided : s.dinByte = s.becomeFollower := if_pos h

theorem dinByte_isFollower : s.dinByte.isFollower = true := by
  rw [dinByte_undecided h, isFollower, becomeFollower, settle_cas]; rfl

theorem dinByte_dinByte : s.dinByte.dinByte = s.dinByte := dinByte_follower (dinByte_isFollower h)

theorem not_leader_of_undecided : s.isLeader = false := by simp [isLeader, h]

/-- An undecided part takes a frame as the follower that it becomes (log 29). -/
theorem stageFrameIn_undecided (f : StageFrame) : s.stageFrameIn f = s.dinByte.stageFrameIn f := by
  unfold stageFrameIn
  rw [not_leader_of_undecided h, not_leader_of_follower (dinByte_isFollower h), dinByte_dinByte h]
  rfl

theorem setupFrameIn_undecided (f : SetupFrame) : s.setupFrameIn f = s.dinByte.setupFrameIn f := by
  unfold setupFrameIn
  rw [not_leader_of_undecided h, not_leader_of_follower (dinByte_isFollower h), dinByte_dinByte h]
  rfl

theorem countError_undecided : s.countError .din = s.dinByte.countError .din := by
  simp only [countError, dinByte_dinByte h]

end Undecided

/-! ### What a follower takes of its frames -/

/-- The six lines changed one after another. -/
theorem foldLines_eq (s : State) (f : Fin 6 → Line → Line) :
    six.foldl (fun t l => t.setLine l (f l (t.line l))) s
      = { s with outp := { s.outp with lines := s.outp.lines.mapWith f } } := by
  simp only [six, List.foldl_cons, List.foldl_nil, setLine, line, Six.set, Six.get, Six.mapWith]

/-- A stage frame for the follower's own stage (R153). -/
theorem takeStage_eq (s : State) (f : StageFrame) : s.takeStage f = { s with
    free := s.free + stageOpens f
    outp := { s.outp with
      target := rangeValue 0 1000 f.blend s.free
      lines := s.outp.lines.mapWith (fun l x => { x with next := (f.levels.drop (l.val * 96)).take 96 }) }
    cas := { s.cas with
      policyHeld := f.policy, genSeen := f.gen, missed := min (s.cas.missed + s.missedNow f.seq) 65535,
      lastSeq := some f.seq } } := by
  have lines := foldLines_eq { s with
    outp := { s.outp with target := (stageSettled f s.free).blend }, free := s.free + stageOpens f }
    (fun l x => { x with next := levelsOfLine (stageSettled f s.free).levels l })
  unfold takeStage
  dsimp only at lines ⊢
  rw [lines]
  rfl

/-- A setup frame applied (R154). -/
theorem applySetup_eq (s : State) (f : SetupFrame) : s.applySetup f = { s with
    free := s.free + setupOpens f
    outp := { s.outp with
      safeFade := (setupSettled f s.free).safeFade, lamp := (setupSettled f s.free).lamp
      safeLook := (setupSettled f s.free).safe
      lines := s.outp.lines.mapWith (fun l x => x.take (f.lines.getD l.val defaultLine)) }
    cas := { s.cas with policyHeld := f.policy, house := (setupSettled f s.free).house, genHeld := f.gen } } := by
  have lines := foldLines_eq { s with free := s.free + setupOpens f }
    (fun l x => x.take ((setupSettled f s.free).lines.getD l.val defaultLine))
  unfold applySetup
  dsimp only at lines ⊢
  rw [lines]
  rfl

/-- A stage frame ends the leader-lost state, and with it the setup generation held (R155). -/
theorem endLeaderLost_eq (s : State) : s.endLeaderLost = { s with
    cas := { s.cas with leaderLost := false, genHeld := if s.cas.leaderLost then 0 else s.cas.genHeld } } := by
  unfold endLeaderLost
  split_ifs with h
  · rfl
  · rw [Bool.not_eq_true] at h
    rw [← h]

theorem watchHop_wire (s : State) (hop : Nat) : (s.watchHop hop).wire = s.wire :=
  (congrArg State.wire (s.watchHop_only hop).1).trans rfl

theorem watchHop_free (s : State) (hop : Nat) : (s.watchHop hop).free = s.free :=
  (congrArg State.free (s.watchHop_only hop).1).trans rfl

theorem watchHop_leaderLost (s : State) (hop : Nat) : (s.watchHop hop).cas.leaderLost = s.cas.leaderLost :=
  (s.watchHop_only hop).2

section Framed

variable {s : State} (h : s.isFollower = true)
include h

/-- A stage frame on a follower: the watch, the end of the leader-lost state, and what the part takes of it (R149, R150,
R153, R155). -/
theorem stageFrameIn_follower (f : StageFrame) : s.stageFrameIn f
    = (if isFollowerStage f.target ∧ (s.watchHop f.hop).endLeaderLost.cas.stage = some f.target
        then (s.watchHop f.hop).endLeaderLost.takeStage f else (s.watchHop f.hop).endLeaderLost).emit
      (.stageFrame { f with hop := nextHop f.hop }) := by
  unfold stageFrameIn
  rw [not_leader_of_follower h, dinByte_follower h]
  rfl

/-- A stage frame for another stage is passed on, and ends the leader-lost state (R149, R155). -/
theorem stageFrameIn_other {f : StageFrame}
    (hother : ¬ (1 ≤ f.target ∧ f.target ≤ 3 ∧ (s.watchHop f.hop).cas.stage = some f.target)) :
    s.stageFrameIn f = { s.watchHop f.hop with
      wire := s.wire ++ [.stageFrame { f with hop := min (f.hop + 1) 255 }]
      cas := { (s.watchHop f.hop).cas with
        leaderLost := false, genHeld := if s.cas.leaderLost then 0 else (s.watchHop f.hop).cas.genHeld } } := by
  rw [stageFrameIn_follower h, if_neg, endLeaderLost_eq, watchHop_leaderLost, emit, watchHop_wire]
  · rfl
  · rintro ⟨hstage, hown⟩
    rw [endLeaderLost_eq] at hown
    exact hother (and_assoc.mp ⟨(isFollowerStage_iff _).mp hstage, hown⟩)

/-- A stage frame for the stage of the part is taken too (R153). -/
theorem stageFrameIn_own {f : StageFrame}
    (hown : 1 ≤ f.target ∧ f.target ≤ 3 ∧ (s.watchHop f.hop).cas.stage = some f.target) :
    s.stageFrameIn f = { s.watchHop f.hop with
      wire := s.wire ++ [.stageFrame { f with hop := min (f.hop + 1) 255 }]
      free := s.free + stageOpens f
      outp := { (s.watchHop f.hop).outp with
        target := rangeValue 0 1000 f.blend s.free
        lines := (s.watchHop f.hop).outp.lines.mapWith
          (fun l x => { x with next := (f.levels.drop (l.val * 96)).take 96 }) }
      cas := { (s.watchHop f.hop).cas with
        leaderLost := false, genHeld := if s.cas.leaderLost then 0 else (s.watchHop f.hop).cas.genHeld
        policyHeld := f.policy, genSeen := f.gen
        missed := min ((s.watchHop f.hop).cas.missed + (s.watchHop f.hop).missedNow f.seq) 65535
        lastSeq := some f.seq } } := by
  obtain ⟨h1, h3, hstage⟩ := hown
  have held : (s.watchHop f.hop).endLeaderLost.cas.stage = some f.target := by rw [endLeaderLost_eq]; exact hstage
  rw [stageFrameIn_follower h, if_pos ⟨(isFollowerStage_iff _).mpr ⟨h1, h3⟩, held⟩, takeStage_eq, endLeaderLost_eq,
    watchHop_leaderLost, emit, watchHop_wire, watchHop_free]
  rfl

/-- A setup frame on a follower (R149, R150, R154). -/
theorem setupFrameIn_follower (f : SetupFrame) : s.setupFrameIn f
    = (if isFollowerStage f.target ∧ (s.watchHop f.hop).cas.stage = some f.target
          ∧ f.gen ≠ (s.watchHop f.hop).cas.genHeld
        then (s.watchHop f.hop).applySetup f else s.watchHop f.hop).emit
      (.setupFrame { f with hop := nextHop f.hop }) := by
  unfold setupFrameIn
  rw [not_leader_of_follower h, dinByte_follower h]
  rfl

theorem setupFrameIn_other {f : SetupFrame}
    (hother : ¬ (1 ≤ f.target ∧ f.target ≤ 3 ∧ (s.watchHop f.hop).cas.stage = some f.target
      ∧ f.gen ≠ (s.watchHop f.hop).cas.genHeld)) :
    s.setupFrameIn f = { s.watchHop f.hop with
      wire := s.wire ++ [.setupFrame { f with hop := min (f.hop + 1) 255 }] } := by
  rw [setupFrameIn_follower h, if_neg, emit, watchHop_wire]
  · rfl
  · exact fun ⟨hstage, hown⟩ => hother (and_assoc.mp ⟨(isFollowerStage_iff _).mp hstage, hown⟩)

/-- A setup frame of another generation for the stage of the part is applied (R154). -/
theorem setupFrameIn_own {f : SetupFrame}
    (hown : 1 ≤ f.target ∧ f.target ≤ 3 ∧ (s.watchHop f.hop).cas.stage = some f.target
      ∧ f.gen ≠ (s.watchHop f.hop).cas.genHeld) :
    s.setupFrameIn f = { s.watchHop f.hop with
      wire := s.wire ++ [.setupFrame { f with hop := min (f.hop + 1) 255 }]
      free := s.free + setupOpens f
      outp := { (s.watchHop f.hop).outp with
        safeFade := (setupSettled f s.free).safeFade, lamp := (setupSettled f s.free).lamp
        safeLook := (setupSettled f s.free).safe
        lines := (s.watchHop f.hop).outp.lines.mapWith (fun l x => x.take (f.lines.getD l.val defaultLine)) }
      cas := { (s.watchHop f.hop).cas with
        policyHeld := f.policy, house := (setupSettled f s.free).house, genHeld := f.gen } } := by
  obtain ⟨h1, h3, hstage⟩ := hown
  rw [setupFrameIn_follower h, if_pos ⟨(isFollowerStage_iff _).mpr ⟨h1, h3⟩, hstage⟩, applySetup_eq, emit, watchHop_wire,
    watchHop_free]
  rfl

end Framed

end State

/-! ### The values that a frame brings -/

/-- A setup frame as it is applied has the values it brings where they lie in their ranges (R154; log 33). -/
theorem setupSettled_kept (f : SetupFrame) (k : Nat) :
    (isHouseList f.house = true → (setupSettled f k).house = f.house)
      ∧ (isSafeList f.safe = true → (setupSettled f k).safe = f.safe)
      ∧ (f.safeFade ≤ 600 → (setupSettled f k).safeFade = f.safeFade)
      ∧ (50 ≤ f.lamp → f.lamp ≤ 500 → (setupSettled f k).lamp = f.lamp) :=
  ⟨fun h => if_pos h, fun h => if_pos h, fun h => rangeValue_of ⟨Nat.zero_le _, h⟩ k,
    fun h1 h2 => rangeValue_of ⟨h1, h2⟩ (k + 1)⟩

theorem SetupFrame.inRange_iff (f : SetupFrame) : f.inRange = true ↔ f.safeFade ≤ 600 ∧ 50 ≤ f.lamp ∧ f.lamp ≤ 500
    ∧ isHouseList f.house = true ∧ isSafeList f.safe = true := by
  simp [SetupFrame.inRange, and_assoc]

/-! ### The obligation -/

/-- Settles O51: an undecided part by the follower it becomes; a frame on a follower by whether it takes it; the watch by its
three outcomes, and a moved stage by the role it gives; new settings by the old and the new. -/
theorem followerTakesItsFrames : Obligations.FollowerTakesItsFrames := by
  refine ⟨fun s => ⟨fun f hf => ?_, fun f hf => ?_, fun f hf hl => ?_, fun f hf hl => ?_, fun u hu hx => ?_,
    fun f hf hrole => ?_, fun f hf hrole => ?_⟩, fun s hop hrole => ?_, fun x n => ?_⟩
  · exact congrArg Host.Outcome.next (if_neg (by rw [hf]; decide))
  · exact congrArg Host.Outcome.next (if_neg (by rw [hf]; decide))
  · exact congrArg Host.Outcome.next ((if_pos hf).trans (if_pos hl))
  · exact congrArg Host.Outcome.next ((if_pos hf).trans (if_pos hl))
  · obtain rfl : s.dinByte = u := Host.Outcome.next.inj hx
    refine ⟨fun f => ?_, fun f => ?_⟩
    · show Host.Outcome.next (if f.fits then s.stageFrameIn f else s.countError .din) = _
      rw [State.stageFrameIn_undecided hu, State.countError_undecided hu]; rfl
    · show Host.Outcome.next (if f.fits then s.setupFrameIn f else s.countError .din) = _
      rw [State.setupFrameIn_undecided hu, State.countError_undecided hu]; rfl
  · have run : exec (.stageFrame f) s = .next (s.stageFrameIn f) := congrArg Host.Outcome.next (if_pos hf)
    refine ⟨_, run, ?_⟩
    beta_reduce
    intro v genHeld taken
    by_cases hown : taken
    · rw [State.stageFrameIn_own hrole hown]
      refine ⟨rfl, fun hother => absurd hown hother, fun _ => ⟨rfl, rfl, ?_, fun hblend => ⟨?_, ?_⟩, fun l => ?_, rfl⟩⟩
      · exact (rangeValue_mem f.blend s.free (Nat.zero_le 1000)).2
      · exact rangeValue_of ⟨Nat.zero_le _, hblend⟩ _
      · exact congrArg (s.free + ·) (if_pos hblend)
      · exact Six.get_mapWith _ _ l
    · rw [State.stageFrameIn_other hrole hown]
      exact ⟨rfl, fun _ => rfl, fun h => absurd h hown⟩
  · have run : exec (.setupFrame f) s = .next (s.setupFrameIn f) := congrArg Host.Outcome.next (if_pos hf)
    refine ⟨_, run, ?_⟩
    beta_reduce
    intro v taken
    by_cases hown : taken
    · rw [State.setupFrameIn_own hrole hown]
      obtain ⟨hfade, hlamp1, hlamp2, hhouse, hsafe⟩ := (SetupFrame.inRange_iff _).mp (setupSettled_inRange f s.free)
      obtain ⟨house, safe, fade, lamp⟩ := setupSettled_kept f s.free
      refine ⟨rfl, fun hother => absurd hown hother, fun _ => ⟨rfl, rfl, hhouse, hsafe, hfade, hlamp1, hlamp2, house, safe,
        fade, lamp, fun hrange => ?_, fun l x hx => ?_, rfl⟩⟩
      · exact congrArg (s.free + ·) (if_pos hrange)
      · have settings : f.lines.getD l.val defaultLine = x := by rw [List.getD_eq_getElem?_getD, hx]; rfl
        exact (Six.get_mapWith _ _ l).trans (by rw [settings]; rfl)
    · rw [State.setupFrameIn_other hrole hown]
      exact ⟨rfl, fun _ => rfl, fun h => absurd h hown⟩
  · intro t run moved
    refine ⟨State.watchHop_same, State.watchHop_counts, fun hmoved => ?_⟩
    have role : t.cas.role = if hop + 1 < 4 then .follower else .orphan := State.watchHop_role hmoved
    refine ⟨State.watchHop_stage hmoved, (s.watchHop_only hop).1, ?_, ?_, State.watchHop_changed hmoved,
      State.watchHop_stays hmoved, fun hfar hfollower => ?_⟩
    · rw [role, ← Nat.not_lt]; split_ifs with hnear <;> simp [hnear]
    · rw [role]; split_ifs with hnear <;> simp [hnear]
    · have orphaned : t = (s.atStage (hop + 1)).enterOrphan := State.watchHop_orphans hmoved hfar hfollower
      have shut (l : Fin 6) : t.line l = (s.line l).shut := by rw [orphaned]; exact Six.get_map _ _ l
      rw [orphaned] at shut ⊢
      refine ⟨rfl, rfl, rfl, fun l hl => ?_, fun l n hn hon => ?_⟩
      · rw [shut, Line.shut_disabled hl]
      · rw [shut, Line.shut_enabled hn hon]; rfl
  · intro was clock
    have enabled : x.isEnabled = was := x.isEnabled_eq
    refine ⟨fun hw hn => ?_, fun hw hn => ?_, fun hw hn => ?_, fun hw hn => ?_, x.take_keeps n⟩
    · exact Line.take_enables (enabled.trans hw) hn
    · exact Line.take_disables (enabled.trans hw) hn
    · exact Line.take_renews (enabled.trans hw) hn
    · exact Line.take_stores (enabled.trans hw) hn

end Sys2Proof.Machine

/-! The stage and setup frames that the leader sends at each expiry of its cascade frame timer (R151, R152). -/

namespace Sys2Proof.Machine

namespace State

/-- The stage frame that the leader sends to a stage (R151). -/
def stageFrameOf (s : State) (n : Fin 3) : StageFrame :=
  { target := n.val + 1, hop := 0, seq := (s.cas.seqs.get n + 1) % 256, blend := s.outp.blend, policy := s.sup.policy,
    gen := s.cas.gens.get n, levels := s.stageLevels n }

/-- The setup frame that the leader sends to a stage (R152). -/
def setupFrameOf (s : State) (n : Fin 3) : SetupFrame :=
  { target := n.val + 1, hop := 0, gen := s.cas.gens.get n, lines := (s.cas.lineItems.get n).toList,
    safeFade := s.outp.safeFade, policy := s.sup.policy, lamp := s.outp.lamp, house := s.stageHouse n,
    safe := s.stageSafe n }

/-- A part that has sent frames down the cascade: other sequences, another frame timer, and the frames on the wire. -/
def sent (s : State) (seqs : Three Nat) (timer : Nat) (out : List Output) : State :=
  { s with cas := { s.cas with seqs := seqs, frameTimer := timer }, wire := s.wire ++ out }

section Sending

variable (s : State) {seqs : Three Nat} {timer : Nat} {n : Fin 3}

/-- A stage frame reads neither the sequences of the other stages, nor the timer, nor the frames sent before it (R151). -/
theorem stageFrameOf_sent (h : seqs.get n = s.cas.seqs.get n) (out : List Output) :
    (s.sent seqs timer out).stageFrameOf n = s.stageFrameOf n := by
  have seq : (s.sent seqs timer out).cas.seqs.get n = s.cas.seqs.get n := h
  unfold stageFrameOf
  rw [seq]
  rfl

/-- A stage frame sent after others: its stage's sequence goes up, and the frame is the one of the instant (R151). -/
theorem sendStage_sent (h : seqs.get n = s.cas.seqs.get n) (out : List Output) : (s.sent seqs timer out).sendStage n
    = s.sent (seqs.set n ((s.cas.seqs.get n + 1) % 256)) timer (out ++ [.stageFrame (s.stageFrameOf n)]) := by
  rw [← stageFrameOf_sent s (timer := timer) h out, ← h]
  unfold sent
  rw [← List.append_assoc]
  rfl

/-- A setup frame sent after others is the one of the instant (R152). -/
theorem sendSetup_sent (n : Fin 3) (out : List Output) :
    (s.sent seqs timer out).sendSetup n = s.sent seqs timer (out ++ [.setupFrame (s.setupFrameOf n)]) := by
  unfold sent
  rw [← List.append_assoc]
  rfl

theorem sent_nothing : s.sent s.cas.seqs s.cas.frameTimer [] = s := by rw [sent, List.append_nil]

/-- The three stage frames of an expiry (R151). -/
theorem sendStages_eq : three.foldl sendStage s = s.sent (s.cas.seqs.map (fun q => (q + 1) % 256)) s.cas.frameTimer
    [.stageFrame (s.stageFrameOf 0), .stageFrame (s.stageFrameOf 1), .stageFrame (s.stageFrameOf 2)] := by
  conv_lhs => rw [← s.sent_nothing]
  rw [three, List.foldl_cons, List.foldl_cons, List.foldl_cons, List.foldl_nil, sendStage_sent, sendStage_sent,
    sendStage_sent] <;> rfl

/-- The three setup frames of an expiry (R152). -/
theorem sendSetups_sent (out : List Output) : three.foldl sendSetup (s.sent seqs timer out) = s.sent seqs timer
    (out ++ [.setupFrame (s.setupFrameOf 0), .setupFrame (s.setupFrameOf 1), .setupFrame (s.setupFrameOf 2)]) := by
  rw [three, List.foldl_cons, List.foldl_cons, List.foldl_cons, List.foldl_nil, sendSetup_sent, sendSetup_sent,
    sendSetup_sent, List.append_assoc, List.append_assoc]
  rfl

end Sending

theorem cascadeExpiry_idle {s : State} (h : s.isLeader = false ∨ s.ctl.startUp ≠ none) : s.cascadeExpiry = s := by
  refine if_neg fun ⟨hl, hst⟩ => ?_
  obtain h | h := h
  · exact absurd (h.symm.trans hl) (by decide)
  · exact h (Option.isNone_iff_eq_none.mp hst)

/-- An expiry on the leader: the stage frames, and at every tenth the setup frames behind them (R151). -/
theorem cascadeExpiry_leader {s : State} (hl : s.isLeader = true) (hst : s.ctl.startUp = none) :
    s.cascadeExpiry = s.sent (s.cas.seqs.map (fun q => (q + 1) % 256))
      (if s.cas.frameTimer = 9 then 0 else s.cas.frameTimer + 1)
      ([.stageFrame (s.stageFrameOf 0), .stageFrame (s.stageFrameOf 1), .stageFrame (s.stageFrameOf 2)]
        ++ if s.cas.frameTimer = 9 then
          [.setupFrame (s.setupFrameOf 0), .setupFrame (s.setupFrameOf 1), .setupFrame (s.setupFrameOf 2)] else []) := by
  have timer : (three.foldl sendStage s).cas.frameTimer = s.cas.frameTimer := by rw [sendStages_eq]; rfl
  unfold cascadeExpiry
  rw [if_pos ⟨hl, Option.isNone_iff_eq_none.mpr hst⟩]
  dsimp only
  rw [timer]
  split_ifs with ht
  · rw [← sendSetups_sent, sendStages_eq]
    rfl
  · rw [List.append_nil, sendStages_eq]
    rfl

/-- The house circuits of a stage are those that one of the four groups lists (R152). -/
theorem stageHouse_eq (s : State) (n : Fin 3) : s.stageHouse n = ((List.range 576).map (fun i => i + 1)).filter (fun i =>
    decide (∃ g : Fin 4, (n.val + 1) * 576 + i ∈ (s.patch.groups.get g).members)) :=
  List.filter_congr fun i _ => Bool.eq_iff_iff.mpr
    ((s.houseGroupOf_isSome ((n.val + 1) * 576 + i)).trans decide_eq_true_iff.symm)

end State

/-- Settles O50: what an expiry sends, its frames with the house circuits as the groups list them
(`State.cascadeExpiry_leader`, `State.stageHouse_eq`). -/
theorem leaderSendsStageAndSetupFrames : Obligations.LeaderSendsStageAndSetupFrames := by
  intro s
  refine ⟨fun h => congrArg Host.Outcome.next (State.cascadeExpiry_idle h), fun hl hst => ?_⟩
  intro stage setup
  have setups (n : Fin 3) : Output.setupFrame (s.setupFrameOf n) = setup n := by
    rw [State.setupFrameOf, State.stageHouse_eq]; rfl
  refine congrArg Host.Outcome.next ((State.cascadeExpiry_leader hl hst).trans ?_)
  rw [setups, setups, setups, State.sent, ← List.append_assoc]
  rfl

end Sys2Proof.Machine

/-! The up frames of the cascade, and its watches and counts (R149, R155, R157 to R160). -/

namespace Sys2Proof.Machine

/-! ### What the lines of a stage report -/

section News

variable {held now : LineReport}

/-- A line that locks is found (R159). -/
theorem stageNews_found (hh : held.monitor ≠ .locked) (hn : now.monitor = .locked) :
    stageNews held now = (.found, (now.model, now.count)) := (if_pos hn).trans (if_neg hh)

/-- A line that stays locked on another rack has changed (R159). -/
theorem stageNews_changed (hh : held.monitor = .locked) (hn : now.monitor = .locked)
    (hd : held.model ≠ now.model ∨ held.count ≠ now.count) :
    stageNews held now = (.changed held.model held.count, (now.model, now.count)) :=
  (if_pos hn).trans ((if_pos hh).trans (if_neg fun ⟨hm, hc⟩ => hd.elim (absurd hm) (absurd hc)))

theorem stageNews_same (hh : held.monitor = .locked) (hn : now.monitor = .locked) (hm : held.model = now.model)
    (hc : held.count = now.count) : stageNews held now = (.none, (0, 0)) :=
  (if_pos hn).trans ((if_pos hh).trans (if_pos ⟨hm, hc⟩))

theorem stageNews_lost (hh : held.monitor = .locked) (hn : now.monitor = .lost) :
    stageNews held now = (.lost, (held.model, held.count)) :=
  (if_neg (by rw [hn]; decide)).trans (if_pos ⟨hh, hn⟩)

theorem stageNews_quiet (hn : now.monitor ≠ .locked) (h : held.monitor ≠ .locked ∨ now.monitor ≠ .lost) :
    stageNews held now = (.none, (0, 0)) :=
  (if_neg hn).trans (if_neg fun ⟨hh, hl⟩ => h.elim (absurd hh) (absurd hl))

/-- The report that a line of a stage calls for, as it is sent (R159). -/
theorem rackReport_stageNews (t : State) (stage line : Nat) (held now : LineReport) :
    t.rackReport stage line (stageNews held now).2 (stageNews held now).1 = t.tellStageLine stage line held now := by
  unfold State.tellStageLine
  by_cases hn : now.monitor = .locked
  · by_cases hh : held.monitor = .locked
    · rw [if_neg fun h => h.2 hh]
      by_cases hd : held.model ≠ now.model ∨ held.count ≠ now.count
      · rw [stageNews_changed hh hn hd, if_pos ⟨hn, hd⟩]; rfl
      · obtain ⟨hm, hc⟩ := not_or.mp hd
        rw [stageNews_same hh hn (not_not.mp hm) (not_not.mp hc), if_neg fun h => hd h.2,
          if_neg fun h => absurd (hn.symm.trans h.2) (by decide)]
        rfl
    · rw [stageNews_found hh hn, if_pos ⟨hn, hh⟩]; rfl
  · rw [if_neg fun h => hn h.1, if_neg fun h => hn h.1]
    by_cases hl : held.monitor = .locked ∧ now.monitor = .lost
    · rw [stageNews_lost hl.1 hl.2, if_pos hl]; rfl
    · rw [stageNews_quiet hn (not_and_or.mp hl), if_neg hl]; rfl

end News

/-! ### An up frame as the leader takes it -/

/-- A number put in the place of another in each entry of a list leaves what does not read it (log 33). -/
theorem map_zipIdx_keeps {α β : Type} (put : α × Nat → α) (view : α → β) (h : ∀ e, view (put e) = view e.1) (l : List α) :
    (l.zipIdx.map put).map view = l.map view := by
  rw [List.map_map, ← congrArg (List.map view) (List.zipIdx_map_fst 0 l), List.map_map]
  exact List.map_congr_left fun e _ => h e

theorem upSettled_lines (f : UpFrame) (k : Nat) : (upSettled f k).lines.map (fun x => (x.monitor, x.model))
    = f.lines.map (fun x => (x.monitor, x.model)) := by
  refine map_zipIdx_keeps _ _ ?_ f.lines
  exact fun _ => rfl

theorem upSettled_events (f : UpFrame) (k : Nat) : (upSettled f k).events.map (fun x => (x.kind, x.raises))
    = f.events.map (fun x => (x.kind, x.raises)) := by
  refine map_zipIdx_keeps _ _ ?_ f.events
  exact fun _ => rfl

theorem lockedCount_eq (l : List LineReport) : lockedCount l = (l.map (fun x => x.monitor)).countP (· = .locked) := by
  rw [lockedCount, ← List.countP_eq_length_filter, List.countP_map]
  rfl

theorem upSettled_lockedCount (f : UpFrame) (k : Nat) : lockedCount (upSettled f k).lines = lockedCount f.lines := by
  have monitors : (upSettled f k).lines.map (fun x => x.monitor) = f.lines.map (fun x => x.monitor) := by
    refine map_zipIdx_keeps _ _ ?_ f.lines
    exact fun _ => rfl
  rw [lockedCount_eq, monitors, ← lockedCount_eq]

theorem UpFrame.lines_length {f : UpFrame} (h : f.fits = true) : f.lines.length = 6 := by
  unfold UpFrame.fits at h
  simp only [Bool.and_eq_true, decide_eq_true_eq] at h
  exact h.1.1.1.2

theorem upSettled_lines_length {f : UpFrame} (h : f.fits = true) (k : Nat) : (upSettled f k).lines.length = 6 :=
  UpFrame.lines_length ((Bool.and_eq_true _ _).mp (upSettled_wf h k)).1

/-- The entry of a stage once the stage has joined (R158). -/
def StageEntry.joined (e : StageEntry) : StageEntry :=
  if e.present then e else { e with present := true, lines := List.replicate 6 lineOff }

theorem StageEntry.joined_lines (e : StageEntry) :
    e.joined.lines = if e.present then e.lines else List.replicate 6 lineOff := by
  unfold joined; split_ifs <;> rfl

theorem StageEntry.joined_length {e : StageEntry} (h : e.lines.length = 6 ∨ e.present = false) :
    e.joined.lines.length = 6 := by
  rw [joined_lines]
  split_ifs with hp
  · exact h.resolve_right (by rw [hp]; decide)
  · rfl

namespace State

/-! ### The up frame of a follower -/

theorem sendUp_none {s : State} (h : s.isFollower = false ∨ s.cas.stage = none) : s.sendUp = s := by
  unfold sendUp
  obtain h | h := h <;> rw [h]
  cases s.isFollower <;> rfl

/-- A follower with a valid stage sends its own up frame, and the events in it leave the queue (R157). -/
theorem sendUp_some {s : State} {n : Nat} (h : s.isFollower = true) (hn : s.cas.stage = some n) : s.sendUp = { s with
    cas := { s.cas with events := s.cas.events.drop (s.ownUpFrame n).events.length }
    wire := s.wire ++ [.upFrame (s.ownUpFrame n)] } := by
  unfold sendUp
  rw [h, hn]
  rfl

/-! ### The joining of a stage -/

/-- What the leader tells of a stage that joins: nothing of one that is present (R158). -/
def joinTold (s : State) (n : Fin 3) (gen locked : Nat) : State :=
  if (s.cas.stages.get n).present then s
  else s.report 0xE9 false (b1 (n.val + 1) ++ b1 gen ++ b1 (s.cas.gens.get n) ++ b1 locked)

theorem joinTold_upon (s : State) (n : Fin 3) (gen locked : Nat) :
    s.joinTold n gen locked = (s.joinTold n gen locked).upon s := by
  unfold joinTold
  split_ifs
  · rfl
  · exact report_upon _ _ _ _

theorem agrees_joinTold {d : State} (s : State) (h : d.Agrees s) (n : Fin 3) (gen locked : Nat) :
    d.Agrees (s.joinTold n gen locked) := by rw [joinTold_upon]; exact h

/-- A part with another count of free values and another entry of a stage. -/
def withEntry (s : State) (k : Nat) (n : Fin 3) (e : StageEntry) : State :=
  { s with free := k, cas := { s.cas with stages := s.cas.stages.set n e } }

/-- A stage joins: its report, and its entry present (R158). -/
theorem joinStage_told (s : State) (k : Nat) (n : Fin 3) (f : UpFrame) : joinStage { s with free := k } n f
    = (s.joinTold n f.gen (lockedCount f.lines)).upon (s.withEntry k n (s.cas.stages.get n).joined) := by
  unfold joinStage joinTold withEntry StageEntry.joined
  dsimp only
  by_cases h : (s.cas.stages.get n).present
  · rw [if_pos h, if_pos h, if_pos h, Three.set_get]; rfl
  · rw [if_neg h, if_neg h, if_neg h]
    exact upon_report (t := s) (d := s.withEntry k n { s.cas.stages.get n with
      present := true, lines := List.replicate 6 lineOff }) ⟨rfl, rfl⟩ _ _ _

/-! ### The reports of its lines -/

/-- The reports that the six lines of a stage call for (R159). -/
def linesTold (s : State) (n : Fin 3) (was now : List LineReport) : State :=
  six.foldl (fun (u : State) l => u.tellStageLine (n.val + 1) (l.val + 1) (was.getD l.val lineOff) (now.getD l.val lineOff)) s

theorem upon_tellStageLine {t d : State} (h : d.Agrees t) (stage line : Nat) (was now : LineReport) :
    (t.upon d).tellStageLine stage line was now = (t.tellStageLine stage line was now).upon d := by
  unfold tellStageLine
  split_ifs
  · exact upon_report h _ _ _
  · exact upon_report h _ _ _
  · exact upon_report h _ _ _
  · rfl

theorem agrees_tellStageLine {d t : State} (h : d.Agrees t) (stage line : Nat) (was now : LineReport) :
    d.Agrees (t.tellStageLine stage line was now) := by
  have told : t.tellStageLine stage line was now = (t.tellStageLine stage line was now).upon t :=
    upon_tellStageLine (t := t) ⟨rfl, rfl⟩ _ _ _ _
  rw [told]; exact h

theorem upon_linesTold {t d : State} (h : d.Agrees t) (n : Fin 3) (was now : List LineReport) :
    (t.upon d).linesTold n was now = (t.linesTold n was now).upon d := by
  unfold linesTold
  generalize six = l
  induction l generalizing t with
  | nil => rfl
  | cons i rest ih => rw [List.foldl_cons, List.foldl_cons, upon_tellStageLine h, ih (agrees_tellStageLine h _ _ _ _)]

/-- The lines of a stage are told in order 1 to 6, each by what the entry holds of it and what the frame reports (R159). -/
theorem reportStageLines_upon {t d : State} (h : d.Agrees t) (n : Fin 3) {now : List LineReport}
    (hw : (d.cas.stages.get n).lines.length = 6) (hn : now.length = 6) :
    (t.upon d).reportStageLines n now = (t.linesTold n (d.cas.stages.get n).lines now).upon d := by
  rw [← upon_linesTold h]
  have held : ((t.upon d).cas.stages.get n).lines = (d.cas.stages.get n).lines := rfl
  unfold reportStageLines
  simp only [rackReport_stageNews, held]
  generalize (d.cas.stages.get n).lines = was at hw
  match was, hw, now, hn with
  | [_, _, _, _, _, _], _, [_, _, _, _, _, _], _ => rfl

/-! ### The taking of an up frame -/

/-- What the leader tells of a stage and of its lines at an up frame of it (R158, R159). -/
def stageTold (s : State) (n : Fin 3) (f : UpFrame) : State :=
  (s.joinTold n f.gen (lockedCount f.lines)).linesTold n (s.cas.stages.get n).joined.lines (upSettled f s.free).lines

theorem stageTold_upon (s : State) (n : Fin 3) (f : UpFrame) : s.stageTold n f = (s.stageTold n f).upon s := by
  have told := upon_linesTold (s.agrees_joinTold (d := s) ⟨rfl, rfl⟩ n f.gen (lockedCount f.lines)) n
    (s.cas.stages.get n).joined.lines (upSettled f s.free).lines
  rwa [← joinTold_upon] at told

/-- A stage joins, and its lines are told, over the entry of the stage that has joined (R158, R159). -/
theorem reportStageLines_joined {s : State} {n : Fin 3} {f : UpFrame} (hf : f.fits = true)
    (hw : (s.cas.stages.get n).lines.length = 6 ∨ (s.cas.stages.get n).present = false) (k : Nat) :
    (joinStage { s with free := k } n (upSettled f s.free)).reportStageLines n (upSettled f s.free).lines
      = (s.stageTold n f).upon (s.withEntry k n (s.cas.stages.get n).joined) := by
  have entry : (s.withEntry k n (s.cas.stages.get n).joined).cas.stages.get n = (s.cas.stages.get n).joined :=
    Three.get_set_same _ _ _
  have lines := reportStageLines_upon
    (s.agrees_joinTold (d := s.withEntry k n (s.cas.stages.get n).joined) ⟨rfl, rfl⟩ n f.gen (lockedCount f.lines)) n
    (by rw [entry]; exact StageEntry.joined_length hw) (upSettled_lines_length hf s.free)
  rw [joinStage_told, upSettled_lockedCount]
  rwa [entry] at lines

/-- An up frame of a stage as the leader takes it: what it tells of the stage and of its lines, the stage's entry, then the
events, each into the fault table (R158, R159). -/
theorem takeUp_eq {s : State} {n : Fin 3} {f : UpFrame} (hf : f.fits = true)
    (hw : (s.cas.stages.get n).lines.length = 6 ∨ (s.cas.stages.get n).present = false) :
    s.takeUp n f = (upSettled f s.free).events.foldl (fun (u : State) x => u.tableEvent (n.val + 1) x)
      { s.stageTold n f with
        free := s.free + upOpens f
        cas := { s.cas with
          stages := s.cas.stages.set n
            { present := true, gen := f.gen, leaderLost := f.leaderLost, lines := (upSettled f s.free).lines,
              lastUp := s.sup.showTime } } } := by
  have entry (k : Nat) (e x : StageEntry) : (s.withEntry k n e).cas.stages.set n x = s.cas.stages.set n x :=
    Three.set_set _ _ _ _
  unfold takeUp
  dsimp only
  rw [reportStageLines_joined hf hw, stageTold_upon]
  dsimp only [upon]
  rw [entry]
  rfl

section Arriving

variable {s : State} {f : UpFrame}

/-- An up frame that names no stage of a follower without the ORPHAN flag is a frame error (R160; log 42). -/
theorem upFrameIn_stray (ho : f.orphan = false) (hs : f.stage = 0 ∨ 3 < f.stage) : s.upFrameIn f = s.countError .uin := by
  refine if_pos ⟨ho, ?_⟩
  rw [stage?_none (hs.imp_left fun h => by omega)]; rfl

variable (h : f.orphan = true ∨ (1 ≤ f.stage ∧ f.stage ≤ 3))
include h

/-- An ORPHAN up frame, or one that names a follower's stage, is no frame error (R149, R160). -/
theorem not_stray : ¬ (f.orphan = false ∧ (stage? f.stage).isNone = true) := by
  rintro ⟨ho, hs⟩
  obtain h | h := h
  · exact absurd (ho.symm.trans h) (by decide)
  · rw [isNone_stage] at hs
    simp only [outside, Bool.or_eq_true, decide_eq_true_eq] at hs
    omega

theorem upFrameIn_undecided (hr : s.cas.role = .undecided) : s.upFrameIn f = s :=
  (if_neg (not_stray h)).trans ((if_neg (by simp [isFollower, hr])).trans
    (if_neg (by rw [not_leader_of_undecided hr]; decide)))

theorem upFrameIn_follower (hr : s.isFollower = true) : s.upFrameIn f = { s with wire := s.wire ++ [.upFrame f] } :=
  (if_neg (not_stray h)).trans (if_pos hr)

/-- The leader looks at what the frame says of itself (R158, R160). -/
theorem upFrameIn_leader (hr : s.isLeader = true) {u : State} (ho : f.orphan = true → s.seeOrphan = u)
    (hn : f.orphan = false → ∃ n : Fin 3, f.stage = n.val + 1 ∧ (s.takeUp n f).pump = u) : s.upFrameIn f = u := by
  refine (if_neg (not_stray h)).trans ((if_neg (by rw [isFollower_of_leader hr]; decide)).trans ((if_pos hr).trans ?_))
  cases orphan : f.orphan with
  | true => exact ho orphan
  | false =>
    obtain ⟨n, stage, taken⟩ := hn orphan
    rw [stage, stage?_succ]
    exact taken

end Arriving

/-- The first ORPHAN frame that the watch sees raises CHAIN_TOO_LONG (R160). -/
theorem seeOrphan_first {s : State} (hl : s.isLeader = true) (h : s.cas.orphanSeen = false) : s.seeOrphan = { s with
    cas := { s.cas with orphanSeen := true }
    sup := { s.sup with raised := s.sup.raised ++ [s.fault .chainTooLong false 0] } } :=
  (if_neg (by rw [h]; decide)).trans
    (raise_of_leader (s := { s with cas := { s.cas with orphanSeen := true } }) hl (s.fault .chainTooLong false 0))

/-! ### The watches -/

section Watches

variable {s : State}

theorem loseStage_none {n : Fin 3} (h : s.isLeader = false ∨ (s.cas.stages.get n).present = false) : s.loseStage n = s := by
  refine if_neg fun ⟨hl, hp⟩ => ?_
  obtain h | h := h
  · exact absurd (h.symm.trans hl) (by decide)
  · exact absurd (h.symm.trans hp) (by decide)

/-- A present stage that falls silent: its report, its entry no longer present, and STAGE_LOST raised (R158). -/
theorem loseStage_present {n : Fin 3} (hl : s.isLeader = true) (hp : (s.cas.stages.get n).present = true) :
    s.loseStage n = ({ s.report 0xEA true (b1 (n.val + 1) ++ b4 (s.cas.stages.get n).lastUp
        ++ b1 (lockedCount (s.cas.stages.get n).lines)) with
      cas := { s.cas with stages := s.cas.stages.set n { s.cas.stages.get n with present := false } }
      sup := { s.sup with raised := s.sup.raised ++
        [{ s.fault .stageLost false (n.val + 1) with stage := some (n.val + 1) }] } } : State).pump := by
  let d : State := { s with cas := { s.cas with stages := s.cas.stages.set n { s.cas.stages.get n with present := false } } }
  have reported (b : List Byte) : d.report 0xEA true b = (s.report 0xEA true b).upon d :=
    upon_report (t := s) (d := d) ⟨rfl, rfl⟩ _ _ _
  have leads (u : State) : (u.upon d).isLeader = true := hl
  refine (if_pos ⟨hl, hp⟩).trans ?_
  rw [reported, raise_of_leader (leads _)]
  conv_rhs => rw [report_upon]
  rfl

theorem loseLeader_follower (hr : s.isFollower = true) (h : s.cas.leaderLost = false) : s.loseLeader = { s with
    cas := { s.cas with leaderLost := true }
    outp := { s.outp with target := if s.cas.policyHeld = .safe then 1000 else s.outp.target } } := if_pos ⟨hr, h⟩

theorem loseLeader_none (h : s.isFollower = false ∨ s.cas.leaderLost = true) : s.loseLeader = s := by
  refine if_neg fun ⟨hr, hl⟩ => ?_
  obtain h | h := h
  · exact absurd (h.symm.trans hr) (by decide)
  · exact absurd (hl.symm.trans h) (by decide)

theorem countError_din_leader (h : s.isLeader = true) : s.countError .din = s := by
  have role : s.cas.role = .leader := of_decide_eq_true h
  unfold countError
  dsimp only
  rw [dinByte_decided (by rw [role]; decide), if_pos h]

theorem countError_din_follower (h : s.isFollower = true) :
    s.countError .din = { s with cas := { s.cas with dinErrors := min (s.cas.dinErrors + 1) 65535 } } := by
  unfold countError
  dsimp only
  rw [dinByte_follower h, if_neg (by rw [not_leader_of_follower h]; decide)]
  rfl

theorem becomeFollower_cas (s : State) : s.becomeFollower.cas = { s.cas with role := .follower } := settle_cas _

end Watches

end State

/-! ### The obligations -/

/-- Settles O52: the follower's own frame; a frame that is an error, and one that meets the role of the part; on the leader
what it tells, holds and tables of a stage (`State.takeUp_eq`). -/
theorem upFramesTravelToTheLeader : Obligations.UpFramesTravelToTheLeader := by
  refine ⟨fun s => ⟨fun h => congrArg Host.Outcome.next (State.sendUp_none h), fun n hr hn => ?_, fun f hf => ?_,
    fun f hf hs => ?_⟩, fun held now => ⟨stageNews_found, stageNews_lost, stageNews_changed, fun hh hn hm hc => ?_,
    fun hn h => ?_⟩⟩
  · intro orphan events
    exact congrArg Host.Outcome.next (State.sendUp_some hr hn)
  · refine congrArg Host.Outcome.next ?_
    obtain hf | ⟨ho, hs⟩ := hf
    · exact if_neg (by rw [hf]; decide)
    · exact (congrArg (fun u => if f.fits = true then u else s.countError .uin) (State.upFrameIn_stray ho hs)).trans (ite_self _)
  · have arrives {u : State} (h : s.upFrameIn f = u) : exec (.upFrame f) s = .next u :=
      congrArg Host.Outcome.next ((if_pos hf).trans h)
    have orphan {u : State} (hl : s.isLeader = true) (ho : f.orphan = true) (h : s.seeOrphan = u) : s.upFrameIn f = u :=
      State.upFrameIn_leader hs hl (fun _ => h) fun hn => absurd (hn.symm.trans ho) (by decide)
    refine ⟨fun hr => arrives (State.upFrameIn_undecided hs hr), fun hr => arrives (State.upFrameIn_follower hs hr),
      fun hl ho hseen => ?_, fun hl ho hseen => ?_, fun n hl ho hn => ?_⟩
    · exact arrives (orphan hl ho (if_pos hseen))
    · exact arrives (orphan hl ho (State.seeOrphan_first hl hseen))
    · refine ⟨upSettled f s.free, upSettled_wf hf _, fun hr => (upSettled_of hr _).1, rfl, upSettled_lines f _,
        upSettled_events f _, ?_⟩
      intro e joined off was told hw
      refine ⟨s.free + upOpens f, fun hr => congrArg (s.free + ·) (if_pos hr), ?_⟩
      refine arrives (State.upFrameIn_leader hs hl (fun h => absurd (ho.symm.trans h) (by decide)) fun _ => ⟨n, hn, ?_⟩)
      have all : s.stageTold n f = told := by rw [State.stageTold, StageEntry.joined_lines]; rfl
      rw [State.takeUp_eq hf hw, all]
  · exact congrArg Prod.fst (stageNews_same hh hn hm hc)
  · exact congrArg Prod.fst (stageNews_quiet hn h)

/-- Settles O53: each watch by the part it acts on, and each count by its input; an error on CAS_DIN makes an undecided part
the follower that counts it (`State.countError_undecided`). -/
theorem cascadeWatchesExpire : Obligations.CascadeWatchesExpire := by
  intro s
  have lost (n : Fin 3) : exec (.stageLost (n.val + 1)) s = .next (s.loseStage n) := by
    show execStageLost (n.val + 1) s = _
    rw [execStageLost, State.stage?_succ]
  refine ⟨fun n hn => ?_, fun n h => (lost n).trans (congrArg Host.Outcome.next (State.loseStage_none h)),
    fun n hl hp => ?_, rfl, fun hr h => congrArg Host.Outcome.next (State.loseLeader_follower hr h),
    fun h => congrArg Host.Outcome.next (State.loseLeader_none h), fun c => ⟨?_, fun hc => ?_⟩⟩
  · show execStageLost n s = _
    rw [execStageLost, stage?_none (hn.imp_left fun h => by omega)]
  · intro e
    refine ⟨_, (lost n).trans (congrArg Host.Outcome.next (State.loseStage_present hl hp)), ?_,
      State.keepsReports_pump _ _ rfl rfl, fun p => ?_⟩
    · rw [State.inside_pump]
      exact congrArg (fun u : State => { u with
        cas := { s.cas with stages := s.cas.stages.set n { e with present := false } }
        sup := { s.sup with raised := s.sup.raised ++
          [{ s.fault .stageLost false (n.val + 1) with stage := some (n.val + 1) }] } }) (State.inside_report s _ _ _)
    · rw [State.pump_outgoing, ← State.port_report s 0xEA true
        (b1 (n.val + 1) ++ b4 e.lastUp ++ b1 (e.lines.filter (fun x => x.monitor = .locked)).length) p]
      cases p <;> rfl
  · rintro (rfl | rfl) <;> rfl
  · have run : exec c s = .next (s.countError .din) := by obtain rfl | rfl := hc <;> rfl
    refine ⟨fun hl => ?_, fun hr => ?_, fun hu => ⟨_, run, ?_⟩⟩
    · rw [run, State.countError_din_leader hl]
    · rw [run, State.countError_din_follower hr]
    · rw [State.countError_undecided hu, State.countError_din_follower (State.dinByte_isFollower hu),
        State.dinByte_undecided hu, State.becomeFollower_cas]
      exact ⟨rfl, rfl⟩

end Sys2Proof.Machine

/-! The general checks on every request (R161, R169 to R171), and STATUS in every role (R161, R177). -/

namespace Sys2Proof.Machine

/-! ### The size of a body -/

/-- The kinds whose body counts its own size. -/
theorem code_of_counted {code n : Nat} {b : List Byte} (h : countedSize code b = some n) :
    code ∈ [0x20, 0x21, 0x25, 0x27, 0x28, 0x55, 0x56] := by
  unfold countedSize at h
  dsimp only at h
  split_ifs at h <;> simp [*]

/-- No body both is of a fixed size and counts its own. -/
theorem bodySize_of_counted {code n : Nat} {b : List Byte} (h : countedSize code b = some n) : bodySize code = none := by
  have hc := code_of_counted h
  clear h
  fin_cases hc <;> rfl

theorem bodyFits_wrong_fixed {code n : Nat} {b : List Byte} (hn : bodySize code = some n) (h : b.length ≠ n) :
    bodyFits code b = false := by
  cases hc : countedSize code b with
  | none => simp [bodyFits, hn, hc, h.symm]
  | some m => exact nomatch hn.symm.trans (bodySize_of_counted hc)

theorem bodyFits_wrong_counted {code n : Nat} {b : List Byte} (hn : countedSize code b = some n) (h : b.length ≠ n) :
    bodyFits code b = false := by
  simp [bodyFits, bodySize_of_counted hn, hn, h.symm]

/-- PING's body is of no size that these checks know (R176). -/
theorem bodyFits_ping (b : List Byte) : bodyFits 0x01 b = false := rfl

/-! ### The first three checks -/

namespace State

section Gate

variable {s : State} {p : PortId} {code : Nat} {g : Group} {h : Bool}

theorem permitted_of {m : Mask} (hu : p = .console ∨ m.holds g = true) (hk : kindInfo code = some (g, h)) :
    permitted p m code = true := by
  cases p
  · rfl
  · have hm : m.holds g = true := hu.resolve_left (by decide)
    unfold permitted
    rw [hk]
    exact hm

/-- The Auxiliary Port may make no kind that is not in Table 10-2 (check 1 of R169). -/
theorem gate_unknown (hk : kindInfo code = none) : s.gate .aux code = some .notPermitted := by
  have barred : permitted .aux s.link.mask code = false := by unfold permitted; rw [hk]
  rw [gate, if_pos barred]

variable (hp : permitted p s.link.mask code = true)
include hp

/-- A follower takes STATUS alone (check 2 of R169; R161). -/
theorem gate_follower (hf : s.isFollower = true) (hc : code ≠ 0x02) : s.gate p code = some .follower := by
  rw [gate, if_neg (by rw [hp]; decide), if_pos ⟨hf, hc⟩]

/-- While HALTED a kind is taken by its column of Table 10-2 (check 3 of R169). -/
theorem gate_halted (hf : s.isFollower = false) (hh : s.sup.halted = true) (ht : takenHalted code = false) :
    s.gate p code = some .halted := by
  rw [gate, if_neg (by rw [hp]; decide), if_neg (fun h => absurd (hf.symm.trans h.1) (by decide)), if_pos ⟨hh, ht⟩]

theorem gate_passes (hf : s.isFollower = false ∨ code = 0x02) (hh : s.sup.halted = false ∨ takenHalted code = true) :
    s.gate p code = none := by
  have led : ¬ (s.isFollower = true ∧ code ≠ 0x02) := fun ⟨h, hc⟩ => hc (hf.resolve_left (by rw [h]; decide))
  have runs : ¬ (s.sup.halted = true ∧ takenHalted code = false) := fun ⟨h, ht⟩ =>
    absurd (ht.symm.trans (hh.resolve_left (by rw [h]; decide))) (by decide)
  rw [gate, if_neg (by rw [hp]; decide), if_neg led, if_neg runs]

end Gate

/-- A request of a kind not in Table 10-2 is refused by the check it fails, else BAD_VALUE (R169). -/
theorem refuses_unknown {s : State} {p : PortId} {r : Request} {rest : List Request}
    (hq : (s.port p).requests = r :: rest) (howed : (s.port p).owed < 13) (hk : kindInfo r.kind.toNat = none) :
    Refuses (.unknownKindRequest p) s p r rest ((s.gate p r.kind.toNat).getD .badValue) := by
  have head : s.headRequest p = some (r, rest) := by simp [headRequest, hq, Config.owedReplies, howed]
  refine refuses_of (congrArg Host.Outcome.next ?_)
  unfold takeUnknown
  rw [head]
  exact if_neg (by rw [hk]; decide)

end State

/-! ### The refusals of a request row -/

section Rows

variable {c : Instr} {p : PortId} {code : Nat} {s : State} {r : Request} {rest : List Request}

theorem TakenAs.refuses_gated (h : TakenAs c p code) (hd : s.Head p code r rest) {st : Status}
    (hg : s.gate p code = some st) : Refuses c s p r rest st := by
  obtain ⟨hc, β, parse, work, -, hx⟩ := h
  exact State.refuses_gate (hx s) hc hd hg

theorem TakenAs.refuses_length (h : TakenAs c p code) (hping : code ≠ 0x01) (hd : s.Head p code r rest)
    (hg : s.gate p code = none) (hf : bodyFits code r.body = false) : Refuses c s p r rest .badLength := by
  obtain ⟨hc, β, parse, work, hk, hx⟩ := h
  exact State.refuses_body (hx s) hc hd hg ((hk.resolve_left hping r.body).1 hf)

theorem TakenAs.refuses_value (h : TakenAs c p code) (hd : s.Head p code r rest) (hg : s.gate p code = none)
    (hf : bodyFits code r.body = true) (ho : fieldOutOfRange code r.body = true) : Refuses c s p r rest .badValue := by
  have hping : code ≠ 0x01 := fun he => absurd ((he ▸ bodyFits_ping r.body).symm.trans hf) (by decide)
  obtain ⟨hc, β, parse, work, hk, hx⟩ := h
  exact State.refuses_body (hx s) hc hd hg ((hk.resolve_left hping r.body).2.1 hf ho)

end Rows

/-- Settles O10: every request row makes the checks of its kind (`takenAs_of_requestOf`); the first three by the rank, the
role and the engine's state, the sizes by the kinds that have them, and a kind not in Table 10-2 by the same three. -/
theorem generalChecksRefuse : Obligations.GeneralChecksRefuse := by
  refine ⟨fun c p code s r rest st h hd hg => (takenAs_of_requestOf h).refuses_gated hd hg,
    fun s p code => ⟨fun hp hk => hp ▸ State.gate_unknown hk, fun g h hp hk hm => hp ▸ State.gate_notPermitted hk hm,
      fun g h hu hk => ?_, rfl, rfl⟩,
    fun c p code n s r rest h hd hg hn hl => ?_, fun c p code n s r rest h hd hg hn hl => ?_,
    fun c p code s r rest h hd hg hf ho => (takenAs_of_requestOf h).refuses_value hd hg hf ho,
    fun s p r rest hq howed hk => ?_⟩
  · have allowed := State.permitted_of hu hk
    have column : takenHalted code = h := by unfold takenHalted; rw [hk]
    refine ⟨State.gate_follower allowed, fun hf hh hcol => State.gate_halted allowed hf hh (column.trans hcol),
      fun hf hcol => State.gate_passes allowed (.inl hf) (hcol.imp_right column.trans), fun hc => ?_⟩
    subst hc
    exact State.gate_passes allowed (.inr rfl) (.inr rfl)
  · have hping : code ≠ 0x01 := fun he => by rw [he] at hn; cases hn
    exact (takenAs_of_requestOf h).refuses_length hping hd hg (bodyFits_wrong_fixed hn hl)
  · have hping : code ≠ 0x01 := fun he => by rw [he] at hn; cases hn
    exact (takenAs_of_requestOf h).refuses_length hping hd hg (bodyFits_wrong_counted hn hl)
  · have refused {st : Option Status} (hg : s.gate p r.kind.toNat = st) := hg ▸ State.refuses_unknown hq howed hk
    have status : r.kind.toNat ≠ 0x02 := fun he => by rw [he] at hk; cases hk
    have column : takenHalted r.kind.toNat = false := by unfold takenHalted; rw [hk]
    refine ⟨by rw [replyTo, hk]; rfl, fun hp => ?_, fun hp hf => ?_, fun hp hf hh => ?_, fun hp hf hh => ?_⟩ <;> subst hp
    · exact refused (State.gate_unknown hk)
    · exact refused (State.gate_follower rfl hf status)
    · exact refused (State.gate_halted rfl hf hh column)
    · exact refused (State.gate_passes rfl (.inl hf) (.inl hh))

/-! ### STATUS -/

namespace State

section Status

variable {s : State} {p : PortId} {r : Request} {rest : List Request}

/-- STATUS is taken from a port with READ in every role and in either state of the engine, and waits for nothing (R161,
R169). -/
theorem status_takes (hd : s.Head p 0x02 r rest) (hu : p = .console ∨ s.link.mask.read = true) : s.Takes p 0x02 r rest :=
  ⟨hd.1, hd.2.1, hd.2.2, gate_passes (permitted_of (g := .read) (h := true) hu rfl) (.inr rfl) (.inr rfl),
    mustWait_free s rfl rfl⟩

theorem statusWork_follower (h : s.isFollower = true) (q : Requester) : s.statusWork q () = s.answer q .ok s.followerStatus :=
  if_pos h

theorem statusWork_leader (h : s.isLeader = true) (q : Requester) :
    s.statusWork q () = s.answer q .ok (b1 0 ++ s.leaderStatus q.port) :=
  (if_neg (by rw [isFollower_of_leader h]; decide)).trans (if_pos h)

theorem statusWork_undecided (h : s.cas.role = .undecided) (q : Requester) : s.statusWork q ()
    = ({ s with free := s.free + 1 }).answer q .ok ([Config.freeByte s.free] ++ s.leaderStatus q.port) :=
  (if_neg (by simp [isFollower, h])).trans (if_neg (by rw [not_leader_of_undecided h]; decide))

theorem followerStatus_takeOff (s : State) (p : PortId) (rest : List Request) :
    (s.takeOff p rest).followerStatus = s.followerStatus := by cases p <;> rfl

theorem status_follower (hd : s.Head p 0x02 r rest) (hu : p = .console ∨ s.link.mask.read = true) (hb : r.body = [])
    (h : s.isFollower = true) : Does (.status p) s p r rest .ok s.followerStatus s := by
  refine does_at_once rfl (by decide) (status_takes hd hu) (parseNone_empty hb) ?_
  rw [statusWork_follower (by rw [isFollower, takeOff_cas]; exact h), followerStatus_takeOff]

theorem status_leader (hd : s.Head p 0x02 r rest) (hu : p = .console ∨ s.link.mask.read = true) (hb : r.body = [])
    (h : s.isLeader = true) : Does (.status p) s p r rest .ok (b1 0 ++ (s.takeOff p rest).leaderStatus p) s := by
  refine does_at_once rfl (by decide) (status_takes hd hu) (parseNone_empty hb) ?_
  exact statusWork_leader (by rw [isLeader, takeOff_cas]; exact h) _

/-- Before the role is decided the role byte is a free value, and a count is used up (log 10). -/
theorem status_undecided (hd : s.Head p 0x02 r rest) (hu : p = .console ∨ s.link.mask.read = true) (hb : r.body = [])
    (h : s.cas.role = .undecided) : Does (.status p) s p r rest .ok
      ([Config.freeByte s.free] ++ (s.takeOff p rest).leaderStatus p) { s with free := s.free + 1 } := by
  refine does_of (t := { s.takeOff p rest with free := s.free + 1 }) rfl (by decide) (status_takes hd hu)
    (parseNone_empty hb) ?_ ?_ ?_ ?_ ?_
  · rw [statusWork_undecided (by rw [takeOff_cas]; exact h), takeOff_free]; rfl
  all_goals cases p <;> rfl

end Status

end State

/-- Settles O13: the three forms of the reply; the replies owed that it shows are those of the port once the request has been
taken off its queue. -/
theorem statusAnswers : Obligations.StatusAnswers := by
  intro s p r rest hd hu hb afterRole
  have after : (s.takeOff p rest).leaderStatus p = afterRole := by cases p <;> rfl
  refine ⟨fun h => ?_, State.status_follower hd hu hb, fun h => ⟨Config.freeByte s.free, ?_⟩⟩
  · exact after ▸ State.status_leader hd hu hb (decide_eq_true h)
  · exact after ▸ State.status_undecided hd hu hb h

end Sys2Proof.Machine

/-! The bytes of a port frame, as they read back (Table 10-1, R164, R165). -/

namespace Sys2Proof.Machine

/-- The bytes of a port frame that its check value runs over: the length, the kind, the tag and the body (Table 10-1). -/
def portContent (kind tag : Byte) (body : List Byte) : List Byte := b2 body.length ++ kind :: tag :: body

theorem portContent_length (kind tag : Byte) (body : List Byte) : (portContent kind tag body).length = 4 + body.length := by
  simp only [portContent, b2, List.length_append, List.length_cons, List.length_nil]
  omega

/-- A port frame: the sync byte, its content, and the check value of the content. -/
theorem portFrame_eq (kind tag : Byte) (body : List Byte) : portFrame kind tag body
    = 0xC5 :: (portContent kind tag body ++ crcBytes (portContent kind tag body)) := rfl

theorem portFrame_length (kind tag : Byte) (body : List Byte) : (portFrame kind tag body).length = 7 + body.length := by
  simp only [portFrame_eq, List.length_cons, List.length_append, portContent_length, crcBytes_length]
  omega

/-- A port frame passes the tests of R165, and reads as what it was made of. -/
theorem portFrameOf_portFrame (kind tag : Byte) {body : List Byte} (h : body.length ≤ 1024) :
    portFrameOf (portFrame kind tag body) = some (kind, tag, body) := by
  have hlen : wordAt (portFrame kind tag body) 1 = body.length :=
    wordAt_byte (by omega) (kind :: tag :: body ++ crcBytes (portContent kind tag body))
  have hcontent : ((portFrame kind tag body).drop 1).take (4 + body.length) = portContent kind tag body :=
    List.take_left' (portContent_length kind tag body)
  have hcheck : (portFrame kind tag body).drop (5 + body.length) = crcBytes (portContent kind tag body) := by
    have split : 5 + body.length = (4 + body.length) + 1 := by omega
    rw [portFrame_eq, split, List.drop_succ_cons]
    exact List.drop_left' (portContent_length kind tag body)
  have hbody : ((portFrame kind tag body).drop 5).take body.length = body := List.take_left' rfl
  have hkind : byte (byteAt (portFrame kind tag body) 3) = kind := byte_toNat kind
  have htag : byte (byteAt (portFrame kind tag body) 4) = tag := byte_toNat tag
  unfold portFrameOf
  dsimp only
  rw [hlen, hcontent, hcheck, hbody, hkind, htag, portFrame_length]
  exact if_pos ⟨rfl, h, rfl, rfl⟩

/-- Settles O60: the length, the content and the check value of the frame stand where its tests look for them. -/
theorem portFramesReadBack : Obligations.PortFramesReadBack := fun kind tag body h =>
  ⟨portFrameOf_portFrame kind tag h, portFrame_length kind tag body⟩

end Sys2Proof.Machine

/-! The frames that a port receives, the silence timer that they restart, and PING (R165, R166, R174 to R176). -/

namespace Sys2Proof.Machine

namespace State

/-! ### The two ports -/

theorem port_setPort_otherPort (s : State) (p : PortId) (x : Port) :
    (s.setPort p x).port (otherPort p) = s.port (otherPort p) := by cases p <;> rfl

/-- Starting replies keeps what a port has to send, and everything but its transmitter and reply queue. -/
theorem startReplies_port (s : State) (q : PortId) :
    (s.startReplies.port q).outgoing = (s.port q).outgoing ∧ (s.startReplies.port q).requests = (s.port q).requests
      ∧ (s.startReplies.port q).owed = (s.port q).owed ∧ (s.startReplies.port q).builder = (s.port q).builder
      ∧ (s.startReplies.port q).errors = (s.port q).errors := by
  obtain ⟨outgoing, requests, owed, builder, errors, -⟩ := startReply_port s .console q
  obtain ⟨outgoing', requests', owed', builder', errors', -⟩ := startReply_port (s.startReply .console) .aux q
  exact ⟨outgoing'.trans outgoing, requests'.trans requests, owed'.trans owed, builder'.trans builder, errors'.trans errors⟩

theorem startReplies_link (s : State) : s.startReplies.link = s.link := by simp [startReplies]

theorem inside_startReplies (s : State) : s.startReplies.inside = s.inside := by simp [startReplies]

/-! ### The silence timer -/

/-- A part that has heard its console just now: the link is LINKED, and the silence timer restarted (R174, R175). -/
def linked (s : State) : State :=
  { s with link := { s.link with
      silent := false, lastFrame := s.sup.showTime, timer := decide (0 < s.link.limit) && !s.isFollower } }

theorem consoleHeard_linked {s : State} (h : s.link.silent = false) (kind : Byte) : s.consoleHeard kind = s.linked := by
  refine (if_neg (by rw [h]; decide)).trans ?_
  rw [linked, ← h]

/-- The frame that ends a silence is told by CONSOLE_RESTORED (R175). -/
theorem consoleHeard_silent {s : State} (h : s.link.silent = true) (kind : Byte) :
    s.consoleHeard kind = s.linked.report 0xEC false (b4 s.link.silence ++ [kind]) := if_pos h

theorem inside_consoleHeard (s : State) (kind : Byte) : (s.consoleHeard kind).inside = s.linked.inside := by
  cases h : s.link.silent with
  | false => rw [consoleHeard_linked h]
  | true => rw [consoleHeard_silent h, inside_report]

theorem port_heard (s : State) (p : PortId) (kind : Byte) (q : PortId) : (s.heard p kind).port q = s.port q := by
  cases p with
  | aux => rfl
  | console =>
    show (s.consoleHeard kind).port q = s.linked.port q
    cases h : s.link.silent with
    | false => rw [consoleHeard_linked h]
    | true => rw [consoleHeard_silent h, port_report]

/-- The silence timer hears a frame as it does whatever stands in the ports. -/
theorem heard_setPort (s : State) (p q : PortId) (x : Port) (kind : Byte) :
    ((s.setPort q x).heard p kind).link = (s.heard p kind).link
      ∧ ((s.setPort q x).heard p kind).inside = (s.heard p kind).inside := by
  cases p with
  | aux => exact ⟨setPort_link s q x, inside_setPort s q x⟩
  | console =>
    have there : (s.setPort q x).linked = s.linked.setPort q x := by cases q <;> rfl
    constructor
    · show ((s.setPort q x).consoleHeard kind).link = (s.consoleHeard kind).link
      cases h : s.link.silent with
      | false => rw [consoleHeard_linked h, consoleHeard_linked (by rw [setPort_link, h]), there, setPort_link]
      | true =>
        rw [consoleHeard_silent h, consoleHeard_silent (by rw [setPort_link, h]), there, setPort_link]
        exact report_link_congr (by rw [isFollower, setPort_cas, isFollower]) (setPort_link _ q x) (by rw [setPort_sup]) _ _ _
    · exact (inside_consoleHeard _ kind).trans (there ▸ (inside_setPort _ q x).trans (inside_consoleHeard s kind).symm)

/-! ### A frame queued, answered BUSY, or discarded -/

section Receiving

variable {s : State} {p : PortId} {kind tag : Byte} {body : List Byte}

/-- The BUSY reply to a frame (R166). -/
def busyReply (kind tag : Byte) : Reply :=
  { kind := if (kindInfo kind.toNat).isSome then kind + 0x80 else 0xFF, tag := tag, status := .busy, fields := [] }

theorem queueFrame_room (h : (s.port p).requests.length < 8) : s.queueFrame p kind tag body
    = s.setPort p { s.port p with requests := (s.port p).requests ++ [{ kind := kind, tag := tag, body := body }] } :=
  if_pos h

theorem queueFrame_busy (h : 8 ≤ (s.port p).requests.length) : s.queueFrame p kind tag body
    = s.setPort p { s.port p with replies := (s.port p).replies ++ [busyReply kind tag] } := if_neg (Nat.not_lt.mpr h)

/-- A frame touches its port's request queue and reply queue alone (R166). -/
theorem queueFrame_kept (s : State) (p : PortId) (kind tag : Byte) (body : List Byte) :
    (∃ x, s.queueFrame p kind tag body = s.setPort p x ∧ x.owed = (s.port p).owed ∧ x.errors = (s.port p).errors
      ∧ x.builder = (s.port p).builder) := by
  by_cases h : (s.port p).requests.length < 8
  · exact ⟨_, queueFrame_room h, rfl, rfl, rfl⟩
  · exact ⟨_, queueFrame_busy (Nat.not_lt.mp h), rfl, rfl, rfl⟩

theorem overruns_eq (x : Port) : x.overruns
    = (decide (8 ≤ x.requests.length) && decide (3 ≤ (x.replies.filter (fun r => r.status = .busy)).length)) := rfl

theorem receive_overrun (h8 : 8 ≤ (s.port p).requests.length)
    (h3 : 3 ≤ ((s.port p).replies.filter (fun r => r.status = .busy)).length) :
    s.receive p kind tag body = s.setPort p ((s.port p).discard (.hunting true)) :=
  if_pos (by rw [overruns_eq, decide_eq_true h8, decide_eq_true h3]; rfl)

/-- A body that no frame can carry is a frame discarded (R165; log 33). -/
theorem exec_frameReceived_long (h : 1024 < body.length) : exec (.frameReceived p kind tag body) s
    = .next (s.setPort p ((s.port p).discard (.hunting true))) :=
  congrArg Host.Outcome.next (if_neg (by simp [isBody, h]))

theorem exec_frameReceived (h : body.length ≤ 1024) : exec (.frameReceived p kind tag body) s
    = .next (s.receive p kind tag body) := congrArg Host.Outcome.next (if_pos (decide_eq_true h))

/-! ### What a frame that is no overrun leaves -/

/-- The part with its receiver ready for the next frame, the silence timer having heard this one. -/
def hears (s : State) (p : PortId) (kind : Byte) : State :=
  (s.setPort p { s.port p with receiver := .hunting false }).heard p kind

theorem hears_port : (s.hears p kind).port p = { s.port p with receiver := .hunting false } := by
  rw [hears, port_heard, port_setPort_same]

theorem hears_otherPort : (s.hears p kind).port (otherPort p) = s.port (otherPort p) := by
  rw [hears, port_heard, port_setPort_otherPort]

theorem receive_eq (h : (s.port p).requests.length < 8
      ∨ ((s.port p).replies.filter (fun r => r.status = .busy)).length < 3) :
    s.receive p kind tag body = ((s.hears p kind).queueFrame p kind tag body).startReplies := by
  refine if_neg ?_
  rw [overruns_eq, Bool.and_eq_true, decide_eq_true_eq, decide_eq_true_eq]
  omega

theorem receive_queued (h : (s.port p).requests.length < 8) :
    ((s.receive p kind tag body).port p).requests = (s.port p).requests ++ [{ kind := kind, tag := tag, body := body }]
      ∧ ((s.receive p kind tag body).port p).outgoing = (s.port p).outgoing := by
  obtain ⟨outgoing, requests, -⟩ := startReplies_port ((s.hears p kind).queueFrame p kind tag body) p
  rw [receive_eq (.inl h), outgoing, requests, queueFrame_room (by rw [hears_port]; exact h), hears_port, port_setPort_same]
  exact ⟨rfl, rfl⟩

theorem receive_busy (h8 : 8 ≤ (s.port p).requests.length)
    (h3 : ((s.port p).replies.filter (fun r => r.status = .busy)).length < 3) :
    ((s.receive p kind tag body).port p).requests = (s.port p).requests
      ∧ ((s.receive p kind tag body).port p).outgoing = (s.port p).outgoing ++ [busyReply kind tag] := by
  obtain ⟨outgoing, requests, -⟩ := startReplies_port ((s.hears p kind).queueFrame p kind tag body) p
  rw [receive_eq (.inr h3), outgoing, requests, queueFrame_busy (by rw [hears_port]; exact h8), hears_port, port_setPort_same]
  exact ⟨rfl, outgoing_append (s.port p) [busyReply kind tag]⟩

section Taken

variable (h : (s.port p).requests.length < 8 ∨ ((s.port p).replies.filter (fun r => r.status = .busy)).length < 3)
include h

/-- A frame that is no overrun leaves its port's counts and builder, and the other port (R166). -/
theorem receive_ports : ((s.receive p kind tag body).port p).owed = (s.port p).owed
    ∧ ((s.receive p kind tag body).port p).errors = (s.port p).errors
    ∧ ((s.receive p kind tag body).port p).builder = (s.port p).builder
    ∧ ((s.receive p kind tag body).port (otherPort p)).requests = (s.port (otherPort p)).requests
    ∧ ((s.receive p kind tag body).port (otherPort p)).outgoing = (s.port (otherPort p)).outgoing := by
  obtain ⟨x, queued, owed, errors, builder⟩ := queueFrame_kept (s.hears p kind) p kind tag body
  obtain ⟨-, -, owed', builder', errors'⟩ := startReplies_port ((s.hears p kind).queueFrame p kind tag body) p
  obtain ⟨outgoing, requests, -⟩ := startReplies_port ((s.hears p kind).queueFrame p kind tag body) (otherPort p)
  rw [receive_eq h, owed', errors', builder', requests, outgoing, queued, port_setPort_same, port_setPort_otherPort,
    hears_otherPort, owed, errors, builder, hears_port]
  exact ⟨rfl, rfl, rfl, rfl, rfl⟩

theorem receive_link : (s.receive p kind tag body).link = (s.heard p kind).link := by
  obtain ⟨x, queued, -⟩ := queueFrame_kept (s.hears p kind) p kind tag body
  rw [receive_eq h, startReplies_link, queued, setPort_link, hears, (heard_setPort s p p _ kind).1]

theorem receive_inside : (s.receive p kind tag body).inside = (s.heard p kind).inside := by
  obtain ⟨x, queued, -⟩ := queueFrame_kept (s.hears p kind) p kind tag body
  rw [receive_eq h, inside_startReplies, queued, inside_setPort, hears, (heard_setPort s p p _ kind).2]

end Taken

/-- A frame on the Console Port restarts the silence timer and ends a silence (R174, R175). -/
theorem receive_linked
    (h : s.con.requests.length < 8 ∨ (s.con.replies.filter (fun r => r.status = .busy)).length < 3) :
    (s.receive .console kind tag body).link.silent = false
      ∧ (s.receive .console kind tag body).link.lastFrame = s.sup.showTime
      ∧ (s.receive .console kind tag body).link.timer = (decide (0 < s.link.limit) && !s.isFollower)
      ∧ (s.receive .console kind tag body).inside = s.linked.inside := by
  have inside : (s.receive .console kind tag body).inside = s.linked.inside :=
    (receive_inside (p := .console) h).trans (inside_consoleHeard s kind)
  exact ⟨congrArg (·.link.silent) inside, congrArg (·.link.lastFrame) inside, congrArg (·.link.timer) inside, inside⟩

end Receiving

end State

/-! ### A sync byte after bytes passed over -/

section Syncing

variable {x : Port}

theorem Port.syncFound_counted (h : x.receiver = .hunting false) :
    x.syncFound = { x with errors := raiseCount 1 x.errors, receiver := .gathering } := by
  unfold Port.syncFound; rw [h]

/-- Bytes that follow a discarded frame are not counted again (R165). -/
theorem Port.syncFound_free (h : x.receiver = .hunting true) : x.syncFound = { x with receiver := .gathering } := by
  unfold Port.syncFound; rw [h]

theorem Port.syncFound_gathering (h : x.receiver = .gathering) : x.syncFound = x := by
  unfold Port.syncFound; rw [h]

end Syncing

/-- Settles O7: a frame received by the room of its port, and the counts of the frames discarded. -/
theorem framesAreReceivedOrDiscarded : Obligations.FramesAreReceivedOrDiscarded := by
  refine ⟨fun s p kind tag body => ⟨State.exec_frameReceived_long, fun hb h8 h3 => ?_, fun hb h => ?_, fun hb h8 h3 => ?_,
    fun hb h => ?_⟩, fun s p => ⟨rfl, rfl, rfl, fun h => ?_, fun h => ?_, fun h => ?_⟩⟩
  · exact (State.exec_frameReceived hb).trans (congrArg Host.Outcome.next (State.receive_overrun h8 h3))
  · exact ⟨_, State.exec_frameReceived hb, State.receive_queued h⟩
  · exact ⟨_, State.exec_frameReceived hb, State.receive_busy h8 h3⟩
  · obtain ⟨owed, errors, builder, requests, outgoing⟩ := State.receive_ports (kind := kind) (tag := tag) (body := body) h
    refine ⟨_, State.exec_frameReceived hb, owed, errors, builder, requests, outgoing, fun hp => ?_, fun hp => ?_,
      fun hp hs => ?_, fun hp hs hf hr => ?_⟩ <;> subst hp
    · exact ⟨State.receive_inside h, congrArg (·.reports) (State.receive_link h)⟩
    · exact State.receive_linked h
    · rw [State.receive_link h]
      exact congrArg (·.link.reports) (State.consoleHeard_linked hs kind)
    · rw [State.receive_link h]
      exact (congrArg (·.link.reports) (State.consoleHeard_silent hs kind)).trans (State.report_room (s := s.linked) hf hr _ _ _)
  · exact congrArg (fun x => Host.Outcome.next (s.setPort p x)) (Port.syncFound_counted h)
  · exact congrArg (fun x => Host.Outcome.next (s.setPort p x)) (Port.syncFound_free h)
  · refine (congrArg (fun x => Host.Outcome.next (s.setPort p x)) (Port.syncFound_gathering h)).trans ?_
    cases p <;> rfl

/-! ### PING -/

theorem parsePing_long {b : List Byte} (h : 16 < b.length) : parsePing b = .error .badLength := if_pos h

theorem parsePing_short {b : List Byte} (h : b.length ≤ 16) : parsePing b = .ok b := if_neg (Nat.not_lt.mpr h)

/-- PING may be used from either port under any mask, on a part that is no follower (R176). -/
theorem State.mayUse_always {s : State} (p : PortId) (h : s.isFollower = false) : s.MayUse p .always := ⟨.inr rfl, h⟩

/-- Settles O12: PING's refusals by its gate and its size, its answer over the state as it stands, and the silence timer by
the frame that brings it. -/
theorem pingEchoes : Obligations.PingEchoes := by
  intro s p r rest hd
  have takes (hf : s.isFollower = false) : s.Takes p 0x01 r rest :=
    State.takes_always hd (State.mayUse_always p hf) rfl (State.mustWait_free s rfl rfl)
  refine ⟨fun hf => ?_, fun hf hl => ?_, fun hf hl => ?_, fun tag body hf hl hq hlimit => ?_⟩
  · have allowed : permitted p s.link.mask 0x01 = true := State.permitted_of (g := .always) (h := true) (.inr rfl) rfl
    exact State.refuses_gate rfl (by decide) hd (State.gate_follower allowed hf (by decide))
  · obtain ⟨-, -, -, gate, -⟩ := takes hf
    exact State.refuses_body rfl (by decide) hd gate (parsePing_long hl)
  · refine State.does_at_once rfl (by decide) (takes hf) (parsePing_short hl) ?_
    rw [State.pingWork, State.takeOff_sup]
  · obtain ⟨silent, -, timer, -⟩ := State.receive_linked (kind := 0x01) (tag := tag) (body := body) (.inl hq)
    refine ⟨_, State.exec_frameReceived (by omega), timer.trans ?_, silent⟩
    rw [decide_eq_true hlimit, hf]
    rfl

end Sys2Proof.Machine

/-! The frames that a port sends, and the report queue (R167, R168, R172, R173). -/

namespace Sys2Proof.Machine

namespace State

/-! ### What a free transmitter starts -/

section Transmitters

variable {s : State} {p : PortId}

theorem startReply_some {r : Reply} {rest : List Reply} (hs : (s.port p).sending = none) (hr : (s.port p).replies = r :: rest) :
    s.startReply p = s.setPort p { s.port p with sending := some (.reply r), replies := rest } := by
  unfold startReply; rw [hs, hr]

theorem startReply_none (hr : (s.port p).replies = []) : s.startReply p = s := by
  unfold startReply; rw [hr]
  split
  · rename_i h; cases h
  · rfl

/-- A port starts its replies by what stands in that port alone (R168). -/
theorem startReplies_port_eq (s : State) (p : PortId) : s.startReplies.port p = (s.startReply p).port p := by
  have other (t : State) (q : PortId) : (t.startReply q).port (otherPort q) = t.port (otherPort q) := by
    unfold startReply
    split
    · exact port_setPort_otherPort _ _ _
    · rfl
  cases p with
  | console => exact other (s.startReply .console) .aux
  | aux =>
    have same : (s.startReply .console).port .aux = s.port .aux := other s .console
    show ((s.startReply .console).startReply .aux).port .aux = _
    unfold startReply at same ⊢
    rw [same]
    split
    · rw [port_setPort_same, port_setPort_same]
    · exact same

theorem startReport_aux (s : State) : s.startReport.port .aux = s.port .aux := by unfold startReport; split <;> rfl

theorem startReport_busy {f : Sending} (h : s.con.sending = some f) : s.startReport = s := by
  unfold startReport; rw [h]

theorem startReport_none (h : headReport s.link.reports = none) : s.startReport = s := by
  unfold startReport; rw [h]
  split
  · rename_i h; cases h
  · rfl

theorem startReport_some {r : Report} (hs : s.con.sending = none) (hr : s.con.replies = [])
    (h : headReport s.link.reports = some r) : s.startReport = { s with
      con := { s.con with sending := some (.report r s.link.lost) }
      link := { s.link with reports := dropReport s.link.reports, lost := false } } := by
  unfold startReport; rw [hs, hr, h]

/-! ### The transmitters at the end of a command -/

/-- A free transmitter starts the oldest reply (R168). -/
theorem pump_starts {r : Reply} {rest : List Reply} (hs : (s.port p).sending = none) (hr : (s.port p).replies = r :: rest) :
    (s.pump.port p).sending = some (.reply r) ∧ (s.pump.port p).replies = rest := by
  have started : s.startReplies.port p = { s.port p with sending := some (.reply r), replies := rest } := by
    rw [startReplies_port_eq, startReply_some hs hr, port_setPort_same]
  have sent : s.pump.port p = s.startReplies.port p := by
    cases p with
    | console => exact congrArg (·.port .console) (startReport_busy (congrArg Port.sending started))
    | aux => exact startReport_aux _
  rw [sent, started]
  exact ⟨rfl, rfl⟩

section Idle

variable (hr : (s.port p).replies = [])
include hr

theorem startReplies_idle : s.startReplies.port p = s.port p := by rw [startReplies_port_eq, startReply_none hr]

theorem pump_replies_nil : (s.pump.port p).replies = [] := by
  have kept (t : State) : (t.startReport.port p).replies = (t.port p).replies := by
    unfold startReport
    split <;> cases p <;> rfl
  rw [pump, kept, startReplies_idle hr, hr]

end Idle

theorem pump_aux_idle (hr : s.aux.replies = []) (hs : s.aux.sending = none) : (s.pump.port .aux).sending = none := by
  rw [pump, startReport_aux, startReplies_idle (p := .aux) hr]
  exact hs

theorem pump_console_idle (hr : s.con.replies = []) (hs : s.con.sending = none)
    (hq : headReport s.link.reports = none) : (s.pump.port .console).sending = none := by
  rw [pump, startReport_none (by rw [startReplies_link, hq]), startReplies_idle (p := .console) hr]
  exact hs

/-- A free transmitter of the Console Port with no reply waiting starts the head report (R172, R173). -/
theorem pump_console_report {r : Report} (hr : s.con.replies = []) (hs : s.con.sending = none)
    (hq : headReport s.link.reports = some r) : (s.pump.port .console).sending = some (.report r s.link.lost)
      ∧ s.pump.link.reports = dropReport s.link.reports ∧ s.pump.link.lost = false := by
  have same : s.startReplies.con = s.con := startReplies_idle (p := .console) hr
  rw [pump, startReport_some (by rw [same, hs]) (by rw [same, hr]) (by rw [startReplies_link, hq]), startReplies_link]
  exact ⟨rfl, rfl, rfl⟩

/-! ### A frame that has been sent -/

/-- The part with a frame of a port sent, its transmitter free (R168). -/
def afterSent (s : State) (p : PortId) (f : Sending) : State := (s.setPort p ((s.port p).sent f)).emit (.port p f)

theorem finishSending_none (h : (s.port p).sending = none) : s.finishSending p = s := by
  unfold finishSending; rw [h]

theorem finishSending_some {f : Sending} (h : (s.port p).sending = some f) : s.finishSending p = (s.afterSent p f).pump := by
  unfold finishSending; rw [h]; rfl

theorem afterSent_port (s : State) (p : PortId) (f : Sending) : (s.afterSent p f).port p = (s.port p).sent f := by
  cases p <;> rfl

theorem afterSent_otherPort (s : State) (p : PortId) (f : Sending) : (s.afterSent p f).port (otherPort p) = s.port (otherPort p) := by
  cases p <;> rfl

theorem afterSent_link (s : State) (p : PortId) (f : Sending) : (s.afterSent p f).link = s.link := setPort_link _ _ _

theorem afterSent_wire (s : State) (p : PortId) (f : Sending) : (s.afterSent p f).wire = s.wire ++ [.port p f] := by
  rw [afterSent, emit, setPort_wire]

theorem inside_afterSent (s : State) (p : PortId) (f : Sending) :
    (s.afterSent p f).inside = ({ s with wire := s.wire ++ [.port p f] } : State).inside := by cases p <;> rfl

end Transmitters

end State

/-- A frame sent leaves a port all but its transmitter and the count of the replies owed (R167, R168). -/
theorem Port.sent_eq (x : Port) (f : Sending) : x.sent f = { x with sending := none, owed := (x.sent f).owed } := by
  cases f <;> rfl

namespace State

/-! ### The report queue -/

theorem headReport_eq_some (q : List Report) (r : Report) : headReport q = some r ↔
    q.find? (fun x => x.urgent) = some r ∨ (q.find? (fun x => x.urgent) = none ∧ q.head? = some r) := by
  unfold headReport; rw [Option.or_eq_some_iff]

section Reporting

variable {s : State} (hf : s.isFollower = false) (kind : Nat) {urgent : Bool} (fields : List Byte)
include hf

theorem report_joins (h : s.link.reports.length < 16) : s.report kind urgent fields = { s with link := { s.link with
    reports := s.link.reports ++ [{ kind := byte kind, urgent := urgent, time := s.sup.showTime, fields := fields }] } } :=
  (if_neg (by rw [hf]; decide)).trans (if_pos h)

/-- A report into a full queue (R173). -/
theorem report_full (h : 16 ≤ s.link.reports.length) : s.report kind urgent fields
    = if urgent = true ∧ s.link.reports.any (fun x => !x.urgent) = true then { s with link := { s.link with
        reports := s.link.reports.eraseP (fun x => !x.urgent)
          ++ [{ kind := byte kind, urgent := urgent, time := s.sup.showTime, fields := fields }],
        lost := true } }
      else { s with link := { s.link with lost := true } } :=
  (if_neg (by rw [hf]; decide)).trans (if_neg (Nat.not_lt.mpr h))

/-- An urgent report takes the place of the oldest routine one (R173). -/
theorem report_displaces {front back : List Report} {x : Report} (h : 16 ≤ s.link.reports.length) (hu : urgent = true)
    (hq : s.link.reports = front ++ x :: back) (hfront : front.all (fun y => y.urgent) = true) (hx : x.urgent = false) :
    s.report kind urgent fields = { s with link := { s.link with
      reports := front ++ back ++ [{ kind := byte kind, urgent := urgent, time := s.sup.showTime, fields := fields }],
      lost := true } } := by
  have routine : s.link.reports.any (fun y => !y.urgent) = true := by rw [hq]; simp [hx]
  have oldest : s.link.reports.eraseP (fun y => !y.urgent) = front ++ back := by
    rw [hq, List.eraseP_append_right _ (fun y hy => by simp [List.all_eq_true.mp hfront y hy]),
      List.eraseP_cons_of_pos (by rw [hx]; rfl)]
  rw [report_full hf kind fields h, if_pos ⟨hu, routine⟩, oldest]

/-- Any other report is discarded (R173). -/
theorem report_discarded (h : 16 ≤ s.link.reports.length)
    (hq : urgent = false ∨ s.link.reports.all (fun y => y.urgent) = true) :
    s.report kind urgent fields = { s with link := { s.link with lost := true } } := by
  rw [report_full hf kind fields h]
  refine if_neg fun ⟨hu, hany⟩ => ?_
  obtain hq | hall := hq
  · exact absurd (hq.symm.trans hu) (by decide)
  · obtain ⟨y, hy, hroutine⟩ := List.any_eq_true.mp hany
    rw [List.all_eq_true.mp hall y hy] at hroutine
    exact absurd hroutine (by decide)

end Reporting

end State

/-- Settles O8: a frame sent frees its transmitter, which then starts what waits on its port; a report by the room of the
queue and by its class. -/
theorem framesAreSentAndReportsQueued : Obligations.FramesAreSentAndReportsQueued := by
  refine ⟨fun s p => ⟨fun h => congrArg Host.Outcome.next (State.finishSending_none h), fun f h => ?_⟩,
    State.headReport_eq_some, fun s kind urgent fields hf => ⟨State.report_joins hf kind fields,
      fun front back x => State.report_displaces hf kind fields, State.report_discarded hf kind fields⟩⟩
  have port : (s.afterSent p f).port p = { s.port p with sending := none, owed := ((s.port p).sent f).owed } :=
    (State.afterSent_port s p f).trans (Port.sent_eq _ f)
  have idle : ((s.afterSent p f).port p).sending = none := by rw [port]
  have replies : ((s.afterSent p f).port p).replies = (s.port p).replies := by rw [port]
  have link := State.afterSent_link s p f
  refine ⟨_, congrArg Host.Outcome.next (State.finishSending_some h), ?_, ?_, ?_, ?_, fun r rs hr => ?_, fun hr => ?_,
    fun hr hp => ?_, fun hr hp hq => ?_, fun r hr hp hq => ?_, fun r hr => ?_, fun r b hr => ?_, ?_, ?_⟩
  · rw [State.pump_wire, State.afterSent_wire]
  · rw [State.pump_requests, port]
  · rw [State.pump_builder, port]
  · rw [State.pump_errors, port]
  · exact State.pump_starts idle (replies.trans hr)
  · exact State.pump_replies_nil (replies.trans hr)
  · subst hp; exact State.pump_aux_idle (replies.trans hr) idle
  · subst hp; exact State.pump_console_idle (replies.trans hr) idle (link ▸ hq)
  · subst hp; exact link ▸ State.pump_console_report (replies.trans hr) idle (link ▸ hq)
  · rw [State.pump_owed, State.afterSent_port, hr]; rfl
  · rw [State.pump_owed, State.afterSent_port, hr]; rfl
  · rw [State.pump_outgoing, State.afterSent_otherPort]
  · rw [State.inside_pump, State.inside_afterSent]

end Sys2Proof.Machine

/-! The silent console: the silence that begins, and the loss policy that it brings (R174, R175, R180). -/

namespace Sys2Proof.Machine

/-- A playback's context once it is held: its follow timer paused, with no expiry due (R65, R71; log 23). -/
def Playback.asHeld (x : Playback) : Playback :=
  { x with state := .held, follow := x.follow.map (fun f => { f with paused := true, due := false }) }

namespace State

/-! ### FREEZE -/

/-- What FREEZE holds: a RUNNING playback, and a SETTLED one whose follow timer runs (R180). -/
abbrev Freezes (s : State) (p : PbId) : Prop :=
  (s.pb p).state = .running ∨ ((s.pb p).state = .settled ∧ (s.pb p).follow.isSome = true)

section Freezing

variable {s : State} {p : PbId}

theorem freeze_pos (h : s.Freezes p) : s.freeze p = s.enterHeld p := if_pos h

theorem freeze_neg (h : ¬ s.Freezes p) : s.freeze p = s := if_neg h

theorem freeze_pb_same (s : State) (p : PbId) :
    (s.freeze p).pb p = if s.Freezes p then (s.pb p).asHeld else s.pb p := by
  split_ifs with h
  · rw [freeze_pos h, enterHeld_pb_same]; rfl
  · rw [freeze_neg h]

theorem freeze_pb_other (s : State) {p q : PbId} (hq : q ≠ p) : (s.freeze p).pb q = s.pb q := by
  by_cases h : s.Freezes p
  · rw [freeze_pos h]; exact pb_setPb_other _ _ _ _ hq
  · rw [freeze_neg h]

theorem freeze_slots (s : State) (p : PbId) : (s.freeze p).slots
    = s.slots.map (fun sl => if sl.playback = p ∧ s.Freezes p then { sl with paused := true } else sl) := by
  by_cases h : s.Freezes p
  · simp only [freeze_pos h, h, and_true]; rfl
  · simp only [freeze_neg h, h, and_false, if_false, List.map_id']

/-! ### FREEZE on the playbacks in turn -/

theorem freezes_freeze_other (s : State) {p q : PbId} (hq : q ≠ p) : (s.freeze p).Freezes q ↔ s.Freezes q := by
  simp only [Freezes, freeze_pb_other s hq]

theorem foldl_freeze_pb {l : List PbId} (hl : l.Nodup) (s : State) (p : PbId) :
    (l.foldl freeze s).pb p = if p ∈ l ∧ s.Freezes p then (s.pb p).asHeld else s.pb p := by
  induction l generalizing s with
  | nil => exact (if_neg (by simp)).symm
  | cons q rest ih =>
    obtain ⟨hq, hrest⟩ := List.nodup_cons.mp hl
    rw [List.foldl_cons, ih hrest]
    by_cases hp : p = q
    · subst hp
      simp only [hq, false_and, if_false, freeze_pb_same, List.mem_cons_self, true_and]
    · simp only [freezes_freeze_other s hp, freeze_pb_other s hp, List.mem_cons, hp, false_or]

theorem foldl_freeze_slots {l : List PbId} (hl : l.Nodup) (s : State) : (l.foldl freeze s).slots
    = s.slots.map (fun sl => if sl.playback ∈ l ∧ s.Freezes sl.playback then { sl with paused := true } else sl) := by
  induction l generalizing s with
  | nil => simp
  | cons q rest ih =>
    obtain ⟨hq, hrest⟩ := List.nodup_cons.mp hl
    rw [List.foldl_cons, ih hrest, freeze_slots, List.map_map]
    refine List.map_congr_left fun sl _ => ?_
    by_cases hp : sl.playback = q
    · by_cases hf : s.Freezes q <;> simp [hp, hf, hq]
    · simp only [Function.comp, hp, false_and, if_false, freezes_freeze_other s hp, List.mem_cons, false_or]

end Freezing

/-! ### The loss policy -/

/-- The part with the loss of its console on record (R180). -/
def lossTaken (s : State) : State := { s with sup := { s.sup with loss := some s.sup.policy } }

/-- Everything but the playbacks and the slots. -/
def offstage (s : State) : State := { s with eng := .reset, slots := [] }

theorem offstage_freeze (s : State) (p : PbId) : (s.freeze p).offstage = s.offstage := by
  by_cases h : s.Freezes p
  · rw [freeze_pos h]; rfl
  · rw [freeze_neg h]

/-- Off the stage, the loss policy is recorded, and SAFE sends the blend target to 1000 (R180). -/
theorem offstage_applyLoss (s : State) : s.applyLoss.offstage = ({ s.lossTaken with
    outp := if s.sup.policy = .safe then { s.outp with target := 1000 } else s.outp } : State).offstage := by
  have frozen : (four.foldl freeze s.lossTaken).offstage = s.lossTaken.offstage :=
    foldl_keeps (g := offstage) offstage_freeze four s.lossTaken
  unfold applyLoss
  dsimp only
  split
  case h_1 hp => rw [if_neg (by rw [hp]; decide)]; rfl
  case h_2 hp => rw [if_neg (by rw [hp]; decide)]; exact frozen
  case h_3 hp =>
    rw [if_pos hp]
    exact congrArg (fun u : State => { u with outp := { u.outp with target := 1000 } }) frozen

theorem applyLoss_continue {s : State} (h : s.sup.policy = .continue_) : s.applyLoss = s.lossTaken := by
  simp only [applyLoss, lossTaken, h]

/-- FREEZE and SAFE hold the same playbacks (R180). -/
theorem applyLoss_onstage {s : State} (h : s.sup.policy ≠ .continue_) :
    s.applyLoss.eng = (four.foldl freeze s.lossTaken).eng ∧ s.applyLoss.slots = (four.foldl freeze s.lossTaken).slots := by
  unfold applyLoss
  dsimp only
  split
  case h_1 hp => exact absurd hp h
  case h_2 => exact ⟨rfl, rfl⟩
  case h_3 => exact ⟨rfl, rfl⟩

theorem applyLoss_pb (s : State) (p : PbId) :
    s.applyLoss.pb p = if s.sup.policy ≠ .continue_ ∧ s.Freezes p then (s.pb p).asHeld else s.pb p := by
  by_cases h : s.sup.policy = .continue_
  · rw [applyLoss_continue h, if_neg (fun hc => hc.1 h)]; rfl
  · have held : s.applyLoss.pb p = (four.foldl freeze s.lossTaken).pb p := congrArg (·.pb.get p) (applyLoss_onstage h).1
    rw [held, foldl_freeze_pb (by decide)]
    exact if_congr (and_congr_left' (iff_of_true (mem_four p) h)) rfl rfl

theorem applyLoss_slots (s : State) : s.applyLoss.slots = s.slots.map (fun sl =>
    if s.sup.policy ≠ .continue_ ∧ s.Freezes sl.playback then { sl with paused := true } else sl) := by
  by_cases h : s.sup.policy = .continue_
  · simp only [applyLoss_continue h, h, ne_eq, not_true_eq_false, false_and, if_false, List.map_id']; rfl
  · rw [(applyLoss_onstage h).2, foldl_freeze_slots (by decide)]
    exact List.map_congr_left fun sl _ => if_congr (and_congr_left' (iff_of_true (mem_four _) h)) rfl rfl

/-! ### The silence -/

/-- What a report makes of the report queue depends on the queue, the role and the show time alone (R173). -/
theorem report_queue_congr {s t : State} (hf : t.isFollower = s.isFollower) (hq : t.link.reports = s.link.reports)
    (hl : t.link.lost = s.link.lost) (ht : t.sup.showTime = s.sup.showTime) (k : Nat) (u : Bool) (b : List Byte) :
    (t.report k u b).link.reports = (s.report k u b).link.reports
      ∧ (t.report k u b).link.lost = (s.report k u b).link.lost := by
  unfold report
  rw [hf, hq, ht]
  dsimp only
  split_ifs
  · exact ⟨hq, hl⟩
  · exact ⟨rfl, hl⟩
  · exact ⟨rfl, rfl⟩
  · exact ⟨hq, rfl⟩

/-- The part with its link SILENT (R175). -/
def silenced (s : State) : State := { s with link := { s.link with silent := true, timer := false, silence := 0 } }

/-- The fields of CONSOLE_SILENT (R175). -/
def silenceFields (s : State) : List Byte := b1 s.link.limit ++ b4 s.link.lastFrame ++ b1 (policyCode s.sup.policy)

/-- The part with its link SILENT, CONSOLE_SILENT told (R175). -/
def silenceTold (s : State) : State := s.silenced.report 0xEB true s.silenceFields

theorem goSilent_quiet {s : State} (h : s.isLeader = false ∨ s.link.timer = false ∨ s.link.silent = true) :
    s.goSilent = s := by
  refine if_neg fun ⟨hl, ht, hs⟩ => ?_
  obtain h | h | h := h
  · exact absurd (h.symm.trans hl) (by decide)
  · exact absurd (h.symm.trans ht) (by decide)
  · exact absurd (h.symm.trans hs) (by decide)

theorem goSilent_expires {s : State} (hl : s.isLeader = true) (ht : s.link.timer = true) (hs : s.link.silent = false) :
    s.goSilent = s.silenceTold.applyLoss.pump := if_pos ⟨hl, ht, hs⟩

section Told

variable (s : State)

theorem silenceTold_sup : s.silenceTold.sup = s.sup := report_sup _ _ _ _

theorem silenceTold_slots : s.silenceTold.slots = s.slots := report_slots _ _ _ _

theorem silenceTold_pb (p : PbId) : s.silenceTold.pb p = s.pb p := congrArg (·.pb.get p) (report_eng s.silenced _ _ _)

theorem silenceTold_offstage :
    s.silenceTold.applyLoss.outp = (if s.sup.policy = .safe then { s.outp with target := 1000 } else s.outp)
      ∧ s.silenceTold.applyLoss.merge = s.merge ∧ s.silenceTold.applyLoss.bank = s.bank
      ∧ s.silenceTold.applyLoss.patch = s.patch ∧ s.silenceTold.applyLoss.ctl = s.ctl
      ∧ s.silenceTold.applyLoss.cas = s.cas ∧ s.silenceTold.applyLoss.inputs = s.inputs := by
  have kept := offstage_applyLoss s.silenceTold
  have outp : s.silenceTold.outp = s.outp := report_outp _ _ _ _
  rw [silenceTold_sup, outp] at kept
  exact ⟨congrArg State.outp kept, (congrArg State.merge kept).trans (report_merge _ _ _ _),
    (congrArg State.bank kept).trans (report_bank _ _ _ _), (congrArg State.patch kept).trans (report_patch _ _ _ _),
    (congrArg State.ctl kept).trans (report_ctl _ _ _ _), (congrArg State.cas kept).trans (report_cas _ _ _ _),
    (congrArg State.inputs kept).trans (report_inputs _ _ _ _)⟩

theorem silence_sup : s.silenceTold.applyLoss.sup = { s.sup with loss := some s.sup.policy } := by
  rw [← silenceTold_sup s]
  exact congrArg (·.sup) (offstage_applyLoss s.silenceTold)

theorem silence_link : s.silenceTold.applyLoss.link = s.silenceTold.link :=
  congrArg (·.link) (offstage_applyLoss s.silenceTold)

/-- The link after a silence has begun, the report queue and its flag apart (R175). -/
theorem silence_inside_link : s.silenceTold.applyLoss.pump.inside.link = s.silenced.inside.link := by
  have applied : s.silenceTold.applyLoss.inside.link = s.silenceTold.inside.link :=
    congrArg (fun l : ConsoleLink => { l with reports := [], lost := false }) (silence_link s)
  rw [inside_pump, applied, silenceTold, inside_report]

/-- CONSOLE_SILENT joins the reports that wait, and no other (R172, R173, R175). -/
theorem silence_reports : (s.report 0xEB true s.silenceFields).KeepsReports s.silenceTold.applyLoss.pump := by
  obtain ⟨reports, lost⟩ := report_queue_congr (s := s) (t := s.silenced) rfl rfl rfl rfl 0xEB true s.silenceFields
  exact keepsReports_pump _ _ ((congrArg (·.reports) (silence_link s)).trans reports)
    ((congrArg (·.lost) (silence_link s)).trans lost)

theorem silence_pb (p : PbId) : s.silenceTold.applyLoss.pump.pb p
    = if s.sup.policy ≠ .continue_ ∧ s.Freezes p then (s.pb p).asHeld else s.pb p := by
  have pumped : s.silenceTold.applyLoss.pump.pb p = s.silenceTold.applyLoss.pb p := congrArg (·.pb.get p) (pump_eng _)
  simp only [pumped, applyLoss_pb, Freezes, silenceTold_pb, silenceTold_sup]

theorem silence_slots : s.silenceTold.applyLoss.pump.slots = s.slots.map (fun sl =>
    if s.sup.policy ≠ .continue_ ∧ s.Freezes sl.playback then { sl with paused := true } else sl) := by
  simp only [pump_slots, applyLoss_slots, Freezes, silenceTold_pb, silenceTold_sup, silenceTold_slots]

end Told

end State

/-- Settles O9: a silence that begins is told, and the policy as it stands applied to the playbacks, the slots and the blend;
else the expiry does nothing. -/
theorem silenceAppliesThePolicy : Obligations.SilenceAppliesThePolicy := by
  refine fun s => ⟨fun hl ht hs => ?_, fun h => congrArg Host.Outcome.next (State.goSilent_quiet h)⟩
  have link := State.silence_inside_link s
  obtain ⟨outp, merge, bank, patch, ctl, cas, inputs⟩ := State.silenceTold_offstage s
  refine ⟨_, congrArg Host.Outcome.next (State.goSilent_expires hl ht hs), congrArg (·.silent) link, congrArg (·.timer) link,
    congrArg (·.silence) link, congrArg (·.limit) link, congrArg (·.mask) link, ?_, State.silence_reports s, ?_,
    State.silence_pb s, State.silence_slots s, ?_⟩
  · rw [State.pump_sup, State.silence_sup]
  · rw [State.pump_outp, outp]
  · rw [State.pump_merge, State.pump_bank, State.pump_patch, State.pump_ctl, State.pump_cas, State.pump_inputs]
    exact ⟨merge, bank, patch, ctl, cas, inputs⟩

end Sys2Proof.Machine

/-! The fault record: FAULT_RECORD_READ, FAULT_ACK, and what the next fault taken enters (R186, R187). -/

namespace Sys2Proof.Machine

namespace State

/-! ### The record as the two requests show it -/

/-- The fields of a FAULT_RECORD_READ reply (R187). -/
def recordFields (s : State) : List Byte :=
  bBool s.sup.halted ++ b1 (lossCode s.sup.loss) ++
    (match s.sup.record with
     | none => b1 0
     | some f => b1 1 ++ f.fields)

/-- The fields of a FAULT_ACK reply (R187). -/
def ackFields (s : State) : List Byte :=
  (match s.sup.record with
    | none => b1 0 ++ b1 0
    | some f => b1 f.kind.code ++ bBool f.critical) ++ bBool s.sup.halted

/-- The part with an empty fault record. -/
def acknowledged (s : State) : State := { s with sup := { s.sup with record := none } }

theorem faultRecordReadWork_eq (s : State) (q : Requester) :
    s.faultRecordReadWork q () = s.answer q .ok s.recordFields := by
  unfold faultRecordReadWork recordFields
  cases s.sup.record <;> rfl

theorem faultAckWork_eq (s : State) (q : Requester) :
    s.faultAckWork q () = s.acknowledged.answer q .ok s.ackFields := by
  unfold faultAckWork ackFields
  cases s.sup.record <;> rfl

theorem recordFields_takeOff (s : State) (p : PortId) (rest : List Request) :
    (s.takeOff p rest).recordFields = s.recordFields := by rw [recordFields, takeOff_sup]; rfl

theorem ackFields_takeOff (s : State) (p : PortId) (rest : List Request) :
    (s.takeOff p rest).ackFields = s.ackFields := by rw [ackFields, takeOff_sup]; rfl

theorem acknowledged_takeOff (s : State) (p : PortId) (rest : List Request) :
    (s.takeOff p rest).acknowledged = s.acknowledged.takeOff p rest := by cases p <;> rfl

/-- FAULT_ACK empties the record, and shows what stood there (R187). -/
theorem faultAck_does {s : State} {r : Request} {rest : List Request} (hf : s.isFollower = false)
    (hd : s.Head .console 0x49 r rest) (hb : r.body = []) :
    Does (.faultAck .console) s .console r rest .ok s.ackFields s.acknowledged := by
  refine does_change rfl (by decide) (console_takes hf hd rfl rfl rfl) (parseNone_empty hb) ?_
    (fun x => by cases x <;> rfl) rfl rfl
  rw [faultAckWork_eq, acknowledged_takeOff, ackFields_takeOff]

/-! ### The fault that enters the record -/

theorem enterHalted_sup (s : State) : s.enterHalted.sup = { s.sup with halted := true } :=
  congrArg State.sup (upon_endAll (t := s) (d := { s with sup := { s.sup with halted := true } }) ⟨rfl, rfl⟩)

/-- A fault taken enters an empty record alone, and a critical one halts the engine where the record holds a critical one
(R186). -/
theorem takeFault_sup (s : State) (f : EngineFault) : (s.takeFault f).sup =
    { s.sup with
      record := some (s.sup.record.getD f)
      halted := s.sup.halted || (f.critical && (s.sup.record.map (·.critical)).getD false) } := by
  have first : s.sup.record.or (some f) = some (s.sup.record.getD f) := by cases s.sup.record <;> rfl
  unfold takeFault
  dsimp only
  rw [first]
  split_ifs with halts
  · obtain ⟨critical, -⟩ := Bool.and_eq_true_iff.mp halts
    rw [report_sup, enterHalted_sup, report_sup, critical, Bool.or_true]
  · rw [report_sup]
    cases already : s.sup.halted with
    | true => rfl
    | false =>
      rw [already, Bool.not_false, Bool.and_true, Bool.not_eq_true] at halts
      rw [halts]; rfl

/-- A fault taken enters an empty record and halts nothing, whether it is critical or not (R186, R187). -/
theorem takeFault_sup_empty {s : State} (h : s.sup.record = none) (f : EngineFault) :
    (s.takeFault f).sup = { s.sup with record := some f } := by
  rw [takeFault_sup, h]
  simp

end State

/-! ### The obligation -/

/-- Settles O18: each request by its gate, its body as its parser reads it, and the fields of its reply; the faults after an
empty record by `State.takeFault_sup`. -/
theorem faultRecordReadAndAck : Obligations.FaultRecordReadAndAck := by
  intro s p r rest
  refine ⟨fun hd hu => ⟨fun hb => ?_, fun hb => ?_⟩, fun hd hp => ?_, fun hd hf => ⟨fun hb => ?_, fun hb => ?_⟩,
    fun f g h => ?_⟩
  · exact State.refuses_body rfl (by decide) hd (State.read_gate hu rfl) (parseNone_long hb)
  · exact State.does_at_once (fields := s.recordFields) rfl (by decide)
      (State.takes_always hd hu rfl (State.mustWait_free s rfl rfl)) (State.parseNone_empty hb)
      (by rw [State.faultRecordReadWork_eq, State.recordFields_takeOff])
  · subst hp
    exact State.refuses_gate rfl (by decide) hd (State.gate_notPermitted rfl rfl)
  · exact State.refuses_body rfl (by decide) hd (State.console_gate hf rfl) (parseNone_long hb)
  · exact State.faultAck_does hf hd hb
  · have entered := State.takeFault_sup_empty h f
    refine ⟨congrArg (·.record) entered, congrArg (·.halted) entered, fun _ hcf hcg => ?_⟩
    rw [State.takeFault_sup, entered]
    simp [hcf, hcg]

end Sys2Proof.Machine
